-- ==== Sys2Proof/Word.lean ====
section
/-! DEFINITION. The word types of the cube and the sparse maps that its state is made of. -/

namespace Sys2Proof

/-- A 64-bit register or memory word. -/
abbrev Word := BitVec 64

/-- One byte of memory. -/
abbrev Byte := BitVec 8

/-- A 256-bit vector register (R19). -/
abbrev VReg := BitVec 256

/-- A register number as an encoding carries it. -/
abbrev Reg := BitVec 5

/-- A sparse map: keys strictly rising, and no value equal to the default of the map's use.
An unlisted key reads as that default. -/
abbrev SMap (α : Type) := List (Nat × α)

/-- Sign extension to 64 bits. -/
def sx {n : Nat} (v : BitVec n) : Word := v.signExtend 64

/-- Zero extension to 64 bits. -/
def zx {n : Nat} (v : BitVec n) : Word := v.setWidth 64

/-- Bits `hi` down to `lo` of a number. -/
def bitsOf (v hi lo : Nat) : Nat := (v >>> lo) % 2 ^ (hi + 1 - lo)

/-- Bits `hi` down to `lo` of a word, as a number. -/
def wbits (v : Word) (hi lo : Nat) : Nat := bitsOf v.toNat hi lo

/-- One bit of a word. -/
def wbit (v : Word) (k : Nat) : Bool := v.getLsbD k

/-- The word with bits `hi` down to `lo` replaced by the low bits of `x`. -/
def setBits (v : Word) (hi lo x : Nat) : Word :=
  let m := 2 ^ (hi + 1 - lo)
  BitVec.ofNat 64 (v.toNat - (bitsOf v.toNat hi lo) * 2 ^ lo + (x % m) * 2 ^ lo)

end Sys2Proof
end

