-- ==== Sys2Proof/Config.lean ====
section
/-! DEFINITION. What an implementation fixes and the values the specification leaves open: constants
without a body, which no proof can see into. A claim that mentions one holds whatever it is. -/

namespace Sys2Proof.Config

/-- Cycles that step number `n` takes beyond one (log entry 5). -/
opaque stepCycles : Nat → Nat

/-- Which of several cores that could issue does so (log entry 5). -/
opaque pickCore : Nat → Nat

/-- Whether a fetch uses a stale line of the L1 instruction cache (R173, log entry 7). -/
opaque staleLine : Nat → Bool

/-- Whether an access uses a cached translation where one is held (R325, log entry 7). -/
opaque cachedPte : Nat → Bool

/-- Which line an L2 slice replaces after a fill, counted among the lines it holds; 0 is none (R242 EVICT,
log entry 8). -/
opaque evict : Nat → Nat

/-- The set of an L2 slice, of 2,048, in which a GPA line lies (R2, log entry 8). -/
opaque l2Set : Nat → Nat

/-- Which line a full L1 data cache, instruction cache, TLB or walk cache gives up for a new one (log entry 8). -/
opaque victim : Nat → Nat

/-- The core of a fused cluster, by its position, in whose slice of the cluster cache a GPA line lies (R227). -/
opaque fusedSlice : Nat → Nat

/-- A byte whose value the specification leaves open (log entry 9). -/
opaque freeByte : Nat → BitVec 8

/-- Whether the self-test of a core passes at boot (R374 step 1 and 2, log entry 16). -/
opaque bootCoreFails : Nat → Bool

/-- Whether a self-test finds a lasting fault (R346). -/
opaque testFails : Nat → Bool

/-- The lane of a port, of its 16, in which the error of a group lies whose CRC fails (R345, log entry 73). -/
opaque badLane : Nat → Nat

/-- The DRAM bank of a cube-local address (R345, R348). -/
opaque dramBank : Nat → Nat

/-- The wires that read wrong when a wire of a vault's bus is driven (R363): vault, bus, wire, whether zeros walk, the
layer that loops the beat back, and the beat. -/
opaque wrongWires : Nat → Nat → Nat → Bool → Nat → Nat → List Nat

/-- The bin of the voltage that a supply has when it is sampled, 10 mV each (R361, log entry 26): sample, supply. -/
opaque supplyBin : Nat → Nat → Nat

/-- Fuses (R372): the root hash as 64 bytes, the floor of the security version, the I3C static address. -/
opaque rootHash : List (BitVec 8)
opaque svnFuse : Nat
opaque i3cFuse : Nat

/-- R374 step 6: the entry PC, the ASID and the root of translation of the firmware's tasks (log entry 28). -/
opaque fwEntry : BitVec 64
opaque fwAsid : Nat
opaque fwRoot : Nat

/-- The boot ROM's own image digest (R375). -/
opaque romDigest : List (BitVec 8)

/-- R385: the certificate chain of slot 0, and the signature that the device key gives a message. -/
opaque certChain : List (BitVec 8)
opaque deviceSign : List (BitVec 8) → List (BitVec 8)

/-- R385: bytes of an answer that the specification does not state (nonces). -/
opaque nonce : Nat → List (BitVec 8)

/-- R387: the peer word that the shipped firmware writes for a neighbour which its policy accepts by the answers to its
challenge; 0 for one that fails. -/
opaque neighbourMask : Nat → List (BitVec 8) → BitVec 64

/-- R388: a byte of BAR2 beyond the mailbox, which the specification does not state. -/
opaque barByte : Nat → Nat → BitVec 8

end Sys2Proof.Config
end

