-- ==== Sys2Proof/Syntax.lean ====
section
/-! DEFINITION. The syntax of the cube's steps: one constructor per row of spec/opcode_table.json.
Rows 1 to 248 are the Olric instructions; the rows after them are the cube's own events, whose
operands say which agent, packet, message or place the event concerns. -/

namespace Sys2Proof

/-- The element types of R20 (code 0xF is reserved). -/
inductive ETy where
  | s8 | s16 | s32 | s64 | z8 | z16 | z32 | z64 | h | bf | f | d | e4 | e5 | e2
  deriving DecidableEq, Repr

/-- The memory types of R24: the codes 0 to 7 of f[2:0]. -/
inductive MTy where
  | s8 | s16 | s32 | s64 | z8 | z16 | z32 | z64
  deriving DecidableEq, Repr

/-- The store sizes of R24. -/
inductive MSize where
  | b8 | b16 | b32 | b64
  deriving DecidableEq, Repr

/-- The scopes of R24; `rect` names the register that holds the rectangle word. -/
inductive Scope where
  | thread | core | rect (c : Reg) | cube | system
  deriving DecidableEq, Repr

/-- A T32.B target (R16): signed line delta and head index. -/
structure BTarget where
  delta : BitVec 17
  idx : BitVec 5
  deriving DecidableEq, Repr

/-- The mask operand of R85: `none` when the enable is 0, else the mask register and the zeroing bit. -/
abbrev Mask := Option (BitVec 3 × Bool)

/-- The wait field of a T48.E tail (R13). -/
inductive EWait where
  | none
  | atLeast (sem : BitVec 8) (n : BitVec 11)
  /-- `n` is the field wait imm11, to which mode 10 gives no function -/
  | atLeastReg (sem : BitVec 8) (c : Reg) (n : BitVec 11)
  deriving DecidableEq, Repr

/-- The signal field of a T48.E tail (R13): `none`, or the increment and the semaphore. -/
abbrev ESignal := Option (BitVec 4 × BitVec 8)

/-- The operations of AMO and RED (R163). -/
inductive AOp where
  | add | and | or | xor | min | max | minZ | maxZ | swap
  deriving DecidableEq, Repr

/-- The full-empty forms of R77. -/
inductive FeOp where
  | ldff | ldfe | stef | stsf | stse | ferd
  deriving DecidableEq, Repr

/-- An atomic request as the AMOR event carries it (R162, R165, R77, R152). -/
inductive AtomOp where
  | amo (op : AOp) (w64 : Bool) (y : Nat)
  | cas (w64 : Bool) (cmp new : Nat)
  | cas16 (cmp new : Nat)
  | fe (op : FeOp) (y : Nat)
  | jdec (n : Nat) (asid : Nat)
  deriving DecidableEq, Repr

/-- The source identity of a request (R283): GCID, agent kind (R273) and sequence number. -/
structure Src where
  gcid : Nat
  agent : Nat
  seq : Nat
  deriving DecidableEq, Repr

/-- One constituent of an atomic request (R286): its source, its operand, whether it wants a reply. -/
structure Constituent where
  src : Src
  operand : Nat
  reply : Bool
  deriving DecidableEq, Repr

/-- The events of R242, with NACK and FLT. -/
inductive Ev where
  | ld | st | evict | pfw | wbl | dropl | amol | putn
  | gets | getx | putr | wbr | uread | uwrite | amor | dropr | recall
  | inv | rcls | rcli | upd | putg | disc | dats | datx | datu | ack | dath | ackh
  | nack | flt
  deriving DecidableEq, Repr

/-- A coherence message (R242): the line's GPA, the slot and image identity of the range, the requester,
and what the event carries. -/
structure Msg where
  gpa : Nat := 0
  /-- the cube-local address at the home (R221) -/
  la : Nat := 0
  slot : Nat := 0
  protid : Nat := 0
  /-- identity of the request (R283) -/
  src : Src := ⟨0, 0, 0⟩
  /-- the step of the requester that waits for the answer -/
  own : Src := ⟨0, 0, 0⟩
  /-- the requesting agent, as cube × 64 + tile -/
  agent : Nat := 0
  /-- the agent that an FWD or RSP message goes to -/
  dst : Nat := 0
  /-- the line, when the message carries one -/
  data : List Byte := []
  /-- bytes written, as offsets in the line and values -/
  bytes : List (Nat × Byte) := []
  /-- offset in the line and length of the access -/
  off : Nat := 0
  len : Nat := 0
  op : Option AtomOp := none
  cons : List Constituent := []
  /-- RET of R273: cube × 128 + router, the router being 127 for the source agent itself; from bit 21 on the
  number of the record at that router (the model's own) -/
  ret : Nat := 127
  /-- the count of an ACK under UPD, or the old value of an atomic -/
  val : Nat := 0
  /-- the cause of an FLT -/
  cause : Nat := 0
  /-- 0 an access of a thread through its agent, 1 a prefetch, 2 uncached traffic (R243.5), 3 the line's
  state sent to a mirror and its answer (R356), 4 a full-empty access released from the wait list (R79), 5 a collection
  of no messages (R243.8), 6 the answer WAITING (R284), 7 a withdrawal (R80), 8 a read of a walker or a fetch, 9 a combined
request some of whose constituents the journal held (R294), 10 no message: what waits for a line is looked at again -/
  tag : Nat := 0
  /-- the level of the access (R381) -/
  level : Nat := 0
  /-- ACKH of a UPD: it goes to the requesting agent -/
  toAgent : Bool := false
  /-- the cube to which the access was resolved, and the mirror that it then had (R221 to R223) -/
  home : Nat := 0
  mirror : Option Nat := none
  /-- how often the access has been refused (R229) -/
  tries : Nat := 0
  /-- the ASID of the access (R282) -/
  asid : Nat := 0
  /-- an access of a device page (R225, R274) -/
  device : Bool := false
  /-- the line lies in the firmware region of its home (R381) -/
  fw : Bool := false
  /-- an uncached write that is only asked about: the home answers whether it would refuse it (R134, log entry 71) -/
  probe : Bool := false
  deriving DecidableEq, Repr

/-- What a 64-byte packet is (R143, R147, R121, R152, R201); a SEND carries its level and w1 of the sender's image
(R384). -/
inductive PKind where
  | spawn
  | spawna (tile : Nat)
  | launch (queue id : Nat)
  | cont (tile : Nat) (stage : Nat) (tries : Nat)
  | send (level : Nat) (w1 : Word)
  | completion
  deriving DecidableEq, Repr

/-- A 64-byte packet on its way (R143): its eight words, the GCID it goes to, its sender, its kind, and
whether a SEND's answer goes back to context `ctx` of the sender. -/
structure Packet where
  words : List Word
  dest : Nat
  sender : Nat
  kind : PKind
  ctx : Nat
  deriving DecidableEq, Repr

/-- A collective packet (R131, R298, R300). -/
structure CPkt where
  group : Nat
  /-- the instance of a CRED; the acceptance number of a CMCAST -/
  inst : Nat
  index : Nat
  /-- length of the whole collective in bytes -/
  total : Nat
  op : Nat
  ty : Nat
  bytes : List Byte
  /-- the port it arrived on, or 12 for the local member -/
  port : Nat
  /-- CMCAST: destination address, semaphore, the sender's ASID, level, cube and cluster -/
  dst : Nat
  sem : Nat
  asid : Nat
  sender : Nat
  deriving DecidableEq, Repr

/-- What TLBINV, ICINV and PRSET ask of another cube (R172, R173, R176; the packets are the model's own). -/
inductive FarOp where
  /-- TLBINV: the address and the control word -/
  | tlb (va ctl : BitVec 64)
  /-- ICINV: the line and the rectangle word -/
  | icache (line : Nat) (rect : BitVec 64)
  /-- PRSET phase 1: base, size and slot of the range -/
  | reserve (base k slot : Nat)
  /-- PRSET: the reservations are released -/
  | release
  /-- PRSET phases 2 and 3 -/
  | switch
  deriving DecidableEq, Repr

/-- What a fabric packet carries (R274). -/
inductive NBody where
  | coh (ev : Ev) (m : Msg)
  | task (p : Packet)
  | returned (p : Packet)
  | answer (core ctx val : Nat)
  | notice (cube : Nat)
  | probe (cube : Nat)
  | coll (c : CPkt)
  | orphan (m : Msg)
  | mctp (bytes : List Byte)
  /-- a request of a TLBINV, ICINV or PRSET with the number of its run, the ASID and the level of its issuer -/
  | far (op : FarOp) (id asid level : Nat)
  /-- its answer, with the number of the run and of the request: 0 done, 1 entries are lacking, 2 under way, 3 refused -/
  | farDone (id seq status : Nat)
  deriving DecidableEq, Repr

/-- A packet of the fabric with the fields of its header flit that routing uses (R273). -/
structure NetPkt where
  dest : Nat
  src : Src
  cls : Nat
  ord : Bool
  vc : Nat
  /-- in cycles; the AGE of R273 is in microseconds -/
  age : Nat
  /-- the port that it came in on plus 1, or 0 (R278) -/
  inp : Nat
  body : NBody
  deriving DecidableEq, Repr

/-- A fault found by an engine after acceptance (R136, R328). -/
structure EFault where
  cause : Nat
  addr : Nat
  cursor : Nat
  rcube : Nat
  resumable : Bool
  deriving DecidableEq, Repr

/-- The place an error came from (R342, R345). -/
inductive Place where
  | localWord (core word : Nat)
  | scalarReg (core ctx num : Nat)
  | vectorReg (core ctx num : Nat)
  | maskReg (core ctx num : Nat)
  | pobBlock (core ctx : Nat)
  | coreLogic (core : Nat)
  | weightRow (cluster array row : Nat)
  | accRow (cluster array row : Nat)
  | l2Way (tile way : Nat)
  | dramLine (la : Nat)
  | lane (port dir lane : Nat)
  | wire (vault bus wire : Nat)
  | dupTable (tile : Nat)
  | combining (router record : Nat)
  | cache (core : Nat)
  | packet (router : Nat)
  | tileLogic (tile : Nat)
  | cubeLogic
  deriving DecidableEq, Repr

/-- The operand of an event beside its numbers. -/
inductive EvBody where
  | none
  | msg (m : Msg)
  | packet (p : Packet)
  | net (p : NetPkt)
  | nets (ps : List NetPkt)
  | coll (c : CPkt)
  | fault (f : EFault)
  | place (p : Place)
  | bytes (b : List Byte)
  deriving DecidableEq, Repr

/-- The operands of an event: an event's constructor carries none itself, since Lean's compiler allows
at most 244 constructors with fields in one type; the docstring of the constructor says which of these
it reads and as what. -/
structure EvArg where
  x : Nat := 0
  y : Nat := 0
  z : Nat := 0
  flag : Bool := false
  val : Word := 0
  body : EvBody := .none
  deriving DecidableEq, Repr

/-- One step of the cube: one constructor per row of spec/opcode_table.json. First the Olric
instructions with operands, then the six without, then the events, whose operands stand in an `EvArg`. -/
inductive Instr where
  /-- BEQ (R68) -/
  | beq (a b : Reg) (t : BTarget)
  /-- BNE (R68) -/
  | bne (a b : Reg) (t : BTarget)
  /-- BLT (R68) -/
  | blt (a b : Reg) (t : BTarget)
  /-- BGE (R68) -/
  | bge (a b : Reg) (t : BTarget)
  /-- BLT_Z (R68) -/
  | bltZ (a b : Reg) (t : BTarget)
  /-- BGE_Z (R68) -/
  | bgeZ (a b : Reg) (t : BTarget)
  /-- BR (R68) -/
  | br (t : BTarget)
  /-- JAL (R69) -/
  | jal (d : Reg) (t : BTarget)
  /-- JALR (R17) -/
  | jalr (d a : Reg) (imm : BitVec 11)
  /-- LOOP (R70) -/
  | loop (a : Reg) (t : BTarget)
  /-- BSDONE (R109) -/
  | bsdone (v : BitVec 2) (t : BTarget)
  /-- BSMORE (R109) -/
  | bsmore (v : BitVec 2) (t : BTarget)
  /-- LI (R61) -/
  | li (d : Reg) (imm : BitVec 32)
  /-- LI_Z (R61) -/
  | liZ (d : Reg) (imm : BitVec 32)
  /-- LIHI (R61) -/
  | lihi (d : Reg) (imm : BitVec 32)
  /-- ADDI (R61) -/
  | addi (d a : Reg) (imm : BitVec 11)
  /-- ANDI (R61) -/
  | andi (d a : Reg) (imm : BitVec 11)
  /-- ORI (R61) -/
  | ori (d a : Reg) (imm : BitVec 11)
  /-- XORI (R61) -/
  | xori (d a : Reg) (imm : BitVec 11)
  /-- SLLI (R61) -/
  | slli (d a : Reg) (sh : BitVec 6)
  /-- SRLI (R61) -/
  | srli (d a : Reg) (sh : BitVec 6)
  /-- SRAI (R61) -/
  | srai (d a : Reg) (sh : BitVec 6)
  /-- RORI (R61) -/
  | rori (d a : Reg) (sh : BitVec 6)
  /-- ADDIL (R61) -/
  | addil (d a : Reg) (imm : BitVec 27)
  /-- ADR (R61) -/
  | adr (d : Reg) (imm : BitVec 27)
  /-- SLTI (R61) -/
  | slti (d a : Reg) (imm : BitVec 11)
  /-- SLTI_Z (R61) -/
  | sltiZ (d a : Reg) (imm : BitVec 11)
  /-- SEQI (R61) -/
  | seqi (d a : Reg) (imm : BitVec 11)
  /-- ADD (R62) -/
  | add (d a b : Reg)
  /-- SUB (R62) -/
  | sub (d a b : Reg)
  /-- AND (R62) -/
  | and (d a b : Reg)
  /-- OR (R62) -/
  | or (d a b : Reg)
  /-- XOR (R62) -/
  | xor (d a b : Reg)
  /-- ANDN (R62) -/
  | andn (d a b : Reg)
  /-- ORN (R62) -/
  | orn (d a b : Reg)
  /-- XNOR (R62) -/
  | xnor (d a b : Reg)
  /-- SLL (R62) -/
  | sll (d a b : Reg)
  /-- SRL (R62) -/
  | srl (d a b : Reg)
  /-- SRA (R62) -/
  | sra (d a b : Reg)
  /-- ROL (R62) -/
  | rol (d a b : Reg)
  /-- ROR (R62) -/
  | ror (d a b : Reg)
  /-- SLT (R62) -/
  | slt (d a b : Reg)
  /-- SLT_Z (R62) -/
  | sltZ (d a b : Reg)
  /-- SEQ (R62) -/
  | seq (d a b : Reg)
  /-- MUL (R63) -/
  | mul (d a b : Reg)
  /-- MULH (R63) -/
  | mulh (d a b : Reg)
  /-- MULH_Z (R63) -/
  | mulhZ (d a b : Reg)
  /-- DIV (R63) -/
  | div (d a b : Reg)
  /-- DIV_Z (R63) -/
  | divZ (d a b : Reg)
  /-- REM (R63) -/
  | rem (d a b : Reg)
  /-- REM_Z (R63) -/
  | remZ (d a b : Reg)
  /-- EXT (R64) -/
  | ext (d a : Reg) (p w : BitVec 6)
  /-- EXT_Z (R64) -/
  | extZ (d a : Reg) (p w : BitVec 6)
  /-- INS (R64) -/
  | ins (d a b : Reg) (p w : BitVec 6)
  /-- CLZ (R65) -/
  | clz (d a : Reg)
  /-- CTZ (R65) -/
  | ctz (d a : Reg)
  /-- POPC (R65) -/
  | popc (d a : Reg)
  /-- BREV (R65) -/
  | brev (d a : Reg)
  /-- BSWAP (R65) -/
  | bswap (d a : Reg)
  /-- SEXT_8 (R65) -/
  | sext8 (d a : Reg)
  /-- SEXT_16 (R65) -/
  | sext16 (d a : Reg)
  /-- SEXT_32 (R65) -/
  | sext32 (d a : Reg)
  /-- ZEXT_8 (R65) -/
  | zext8 (d a : Reg)
  /-- ZEXT_16 (R65) -/
  | zext16 (d a : Reg)
  /-- ZEXT_32 (R65) -/
  | zext32 (d a : Reg)
  /-- SEL_NZ (R66) -/
  | selNz (d a b c : Reg)
  /-- SEL_Z (R66) -/
  | selZ (d a b c : Reg)
  /-- MIN (R66) -/
  | min (d a b : Reg)
  /-- MAX (R66) -/
  | max (d a b : Reg)
  /-- MIN_Z (R66) -/
  | minZ (d a b : Reg)
  /-- MAX_Z (R66) -/
  | maxZ (d a b : Reg)
  /-- LD_S8 (R73) -/
  | ldS8 (d a : Reg) (imm : BitVec 11)
  /-- LD_S16 (R73) -/
  | ldS16 (d a : Reg) (imm : BitVec 11)
  /-- LD_S32 (R73) -/
  | ldS32 (d a : Reg) (imm : BitVec 11)
  /-- LD_S64 (R73) -/
  | ldS64 (d a : Reg) (imm : BitVec 11)
  /-- LD_Z8 (R73) -/
  | ldZ8 (d a : Reg) (imm : BitVec 11)
  /-- LD_Z16 (R73) -/
  | ldZ16 (d a : Reg) (imm : BitVec 11)
  /-- LD_Z32 (R73) -/
  | ldZ32 (d a : Reg) (imm : BitVec 11)
  /-- LD_Z64 (R73) -/
  | ldZ64 (d a : Reg) (imm : BitVec 11)
  /-- ST_S8 (R73) -/
  | stS8 (s a : Reg) (imm : BitVec 11)
  /-- ST_S16 (R73) -/
  | stS16 (s a : Reg) (imm : BitVec 11)
  /-- ST_S32 (R73) -/
  | stS32 (s a : Reg) (imm : BitVec 11)
  /-- ST_S64 (R73) -/
  | stS64 (s a : Reg) (imm : BitVec 11)
  /-- LDX (R73) -/
  | ldx (d a b : Reg) (k : BitVec 2) (t : MTy)
  /-- STX (R73) -/
  | stx (c a b : Reg) (k : BitVec 2) (t : MSize)
  /-- LD_ACQ (R75) -/
  | ldAcq (d a : Reg) (t : MTy) (sc : Scope)
  /-- ST_REL (R75) -/
  | stRel (b a : Reg) (t : MSize) (sc : Scope)
  /-- LDFF (R77) -/
  | ldff (d a : Reg) (disp : BitVec 11)
  /-- LDFE (R77) -/
  | ldfe (d a : Reg) (disp : BitVec 11)
  /-- STEF (R77) -/
  | stef (b a : Reg) (disp : BitVec 11)
  /-- STSF (R77) -/
  | stsf (b a : Reg) (disp : BitVec 11)
  /-- STSE (R77) -/
  | stse (b a : Reg) (disp : BitVec 11)
  /-- FERD (R77) -/
  | ferd (d a : Reg) (disp : BitVec 11)
  /-- PREF (R82) -/
  | pref (a : Reg) (imm : BitVec 11)
  /-- PREF_W (R82) -/
  | prefW (a : Reg) (imm : BitVec 11)
  /-- WB (R82) -/
  | wb (a : Reg) (imm : BitVec 11)
  /-- DROP (R84) -/
  | drop (a : Reg) (imm : BitVec 11)
  /-- VLD (R88) -/
  | vld (d a : Reg) (imm : BitVec 11)
  /-- VST (R88) -/
  | vst (s a : Reg) (imm : BitVec 11)
  /-- VGATH (R89) -/
  | vgath (d a b : Reg) (t : ETy) (m : Mask)
  /-- VSCAT (R89) -/
  | vscat (d a b : Reg) (t : ETy) (m : Mask)
  /-- VADD (R90) -/
  | vadd (d a b : Reg) (t : ETy) (m : Mask)
  /-- VSUB (R90) -/
  | vsub (d a b : Reg) (t : ETy) (m : Mask)
  /-- VMUL (R90) -/
  | vmul (d a b : Reg) (t : ETy) (m : Mask)
  /-- VMULH (R90) -/
  | vmulh (d a b : Reg) (t : ETy) (m : Mask)
  /-- VMIN (R90) -/
  | vmin (d a b : Reg) (t : ETy) (m : Mask)
  /-- VMAX (R90) -/
  | vmax (d a b : Reg) (t : ETy) (m : Mask)
  /-- VAND (R90) -/
  | vand (d a b : Reg) (t : ETy) (m : Mask)
  /-- VOR (R90) -/
  | vor (d a b : Reg) (t : ETy) (m : Mask)
  /-- VXOR (R90) -/
  | vxor (d a b : Reg) (t : ETy) (m : Mask)
  /-- VANDN (R90) -/
  | vandn (d a b : Reg) (t : ETy) (m : Mask)
  /-- VSLL (R90) -/
  | vsll (d a b : Reg) (t : ETy) (m : Mask)
  /-- VSRL (R90) -/
  | vsrl (d a b : Reg) (t : ETy) (m : Mask)
  /-- VSRA (R90) -/
  | vsra (d a b : Reg) (t : ETy) (m : Mask)
  /-- VABS (R90) -/
  | vabs (d a : Reg) (t : ETy) (m : Mask)
  /-- VNEG (R90) -/
  | vneg (d a : Reg) (t : ETy) (m : Mask)
  /-- VADDS (R90) -/
  | vadds (d a b : Reg) (t : ETy) (m : Mask)
  /-- VSUBS (R90) -/
  | vsubs (d a b : Reg) (t : ETy) (m : Mask)
  /-- VAVG (R90) -/
  | vavg (d a b : Reg) (t : ETy) (m : Mask)
  /-- VMAC (R90) -/
  | vmac (d a b : Reg) (t : ETy) (m : Mask)
  /-- VFADD (R91) -/
  | vfadd (d a b : Reg) (t : ETy) (m : Mask)
  /-- VFSUB (R91) -/
  | vfsub (d a b : Reg) (t : ETy) (m : Mask)
  /-- VFMUL (R91) -/
  | vfmul (d a b : Reg) (t : ETy) (m : Mask)
  /-- VFDIV (R91) -/
  | vfdiv (d a b : Reg) (t : ETy) (m : Mask)
  /-- VFMA (R91) -/
  | vfma (d a b c : Reg) (t : ETy) (m : Mask)
  /-- VFMS (R91) -/
  | vfms (d a b c : Reg) (t : ETy) (m : Mask)
  /-- VFNMA (R91) -/
  | vfnma (d a b c : Reg) (t : ETy) (m : Mask)
  /-- VFMIN (R91) -/
  | vfmin (d a b : Reg) (t : ETy) (m : Mask)
  /-- VFMAX (R91) -/
  | vfmax (d a b : Reg) (t : ETy) (m : Mask)
  /-- VFABS (R91) -/
  | vfabs (d a : Reg) (t : ETy) (m : Mask)
  /-- VFNEG (R91) -/
  | vfneg (d a : Reg) (t : ETy) (m : Mask)
  /-- VFSQRT (R91) -/
  | vfsqrt (d a : Reg) (t : ETy) (m : Mask)
  /-- VCMP_EQ (R92) -/
  | vcmpEq (d : BitVec 3) (a b : Reg) (t : ETy) (m : Mask)
  /-- VCMP_NE (R92) -/
  | vcmpNe (d : BitVec 3) (a b : Reg) (t : ETy) (m : Mask)
  /-- VCMP_LT (R92) -/
  | vcmpLt (d : BitVec 3) (a b : Reg) (t : ETy) (m : Mask)
  /-- VCMP_LE (R92) -/
  | vcmpLe (d : BitVec 3) (a b : Reg) (t : ETy) (m : Mask)
  /-- VCMP_GT (R92) -/
  | vcmpGt (d : BitVec 3) (a b : Reg) (t : ETy) (m : Mask)
  /-- VCMP_GE (R92) -/
  | vcmpGe (d : BitVec 3) (a b : Reg) (t : ETy) (m : Mask)
  /-- VCMP_UNORD (R92) -/
  | vcmpUnord (d : BitVec 3) (a b : Reg) (t : ETy) (m : Mask)
  /-- VCVT (R93) -/
  | vcvt (d a : Reg) (src dst : ETy) (m : Mask)
  /-- VCVT_SAT (R93) -/
  | vcvtSat (d a : Reg) (src dst : ETy) (m : Mask)
  /-- VMXPACK (R95) -/
  | vmxpack (d a : Reg) (src dst : ETy)
  /-- VMXUNPK (R96) -/
  | vmxunpk (d a : Reg) (src dst : ETy)
  /-- VCVTSR (R94) -/
  | vcvtsr (d a b : Reg) (src dst : ETy) (m : Mask)
  /-- VCVTSR_SAT (R94) -/
  | vcvtsrSat (d a b : Reg) (src dst : ETy) (m : Mask)
  /-- VDOT (R97) -/
  | vdot (d a b : Reg) (t : ETy) (m : Mask)
  /-- VDOTF (R97) -/
  | vdotf (d a b : Reg) (t : ETy) (m : Mask)
  /-- VDOTF8 (R97) -/
  | vdotf8 (d a b : Reg) (t : ETy) (m : Mask)
  /-- VRSUM (R98) -/
  | vrsum (d a : Reg) (t : ETy) (m : Option (BitVec 3))
  /-- VRMIN (R98) -/
  | vrmin (d a : Reg) (t : ETy) (m : Option (BitVec 3))
  /-- VRMAX (R98) -/
  | vrmax (d a : Reg) (t : ETy) (m : Option (BitVec 3))
  /-- VRFSUM (R98) -/
  | vrfsum (d a : Reg) (t : ETy) (m : Option (BitVec 3))
  /-- VRFMIN (R98) -/
  | vrfmin (d a : Reg) (t : ETy) (m : Option (BitVec 3))
  /-- VRFMAX (R98) -/
  | vrfmax (d a : Reg) (t : ETy) (m : Option (BitVec 3))
  /-- VMOV (R99); no rule constrains its field b or gives it a function -/
  | vmov (d a b : Reg) (t : ETy) (m : Mask)
  /-- VPERM (R99) -/
  | vperm (d a b : Reg) (t : ETy) (m : Mask)
  /-- VBCAST (R99) -/
  | vbcast (d a : Reg) (t : ETy) (m : Mask)
  /-- VINS (R99) -/
  | vins (d a b : Reg) (t : ETy)
  /-- VEXT (R99) -/
  | vext (d a b : Reg) (t : ETy)
  /-- VSLIDE (R99) -/
  | vslide (d a b : Reg) (t : ETy) (m : Mask)
  /-- VZIP (R99) -/
  | vzip (d a b : Reg) (t : ETy) (m : Mask)
  /-- VUNZIP (R99) -/
  | vunzip (d a b : Reg) (t : ETy) (m : Mask)
  /-- VEXP2 (R100) -/
  | vexp2 (d a : Reg) (t : ETy) (m : Mask)
  /-- VLOG2 (R100) -/
  | vlog2 (d a : Reg) (t : ETy) (m : Mask)
  /-- VRCP (R100) -/
  | vrcp (d a : Reg) (t : ETy) (m : Mask)
  /-- VRSQRT (R100) -/
  | vrsqrt (d a : Reg) (t : ETy) (m : Mask)
  /-- VSIN (R100) -/
  | vsin (d a : Reg) (t : ETy) (m : Mask)
  /-- VCOS (R100) -/
  | vcos (d a : Reg) (t : ETy) (m : Mask)
  /-- VTANH (R100) -/
  | vtanh (d a : Reg) (t : ETy) (m : Mask)
  /-- VSIGM (R100) -/
  | vsigm (d a : Reg) (t : ETy) (m : Mask)
  /-- VARD (R101) -/
  | vard (d a b : Reg) (acc : Bool)
  /-- VAWR (R101) -/
  | vawr (d a b : Reg) (acc : Bool)
  /-- MAND (R103) -/
  | mand (d a b : BitVec 3)
  /-- MOR (R103) -/
  | mor (d a b : BitVec 3)
  /-- MXOR (R103) -/
  | mxor (d a b : BitVec 3)
  /-- MNOT (R103) -/
  | mnot (d a : BitVec 3)
  /-- MANDN (R103) -/
  | mandn (d a b : BitVec 3)
  /-- MPOPC (R103) -/
  | mpopc (d : Reg) (a : BitVec 3)
  /-- MFIRST (R103) -/
  | mfirst (d : Reg) (a : BitVec 3)
  /-- MSET (R103) -/
  | mset (d : BitVec 3) (a : Reg)
  /-- MGET (R103) -/
  | mget (d : Reg) (a : BitVec 3)
  /-- SBIND (R105) -/
  | sbind (v : BitVec 2) (a : Reg)
  /-- SUNBIND (R108) -/
  | sunbind (v : BitVec 2) (a : Reg)
  /-- MMA (R124) -/
  | mma (acc w : Bool) (d a : Reg) (wt : EWait) (sg : ESignal)
  /-- AMZERO (R125) -/
  | amzero (acc : Bool) (a : Reg) (wt : EWait) (sg : ESignal)
  /-- AMIN (R126) -/
  | amin (acc : Bool) (d a : Reg) (wt : EWait) (sg : ESignal)
  /-- AMOUT (R126) -/
  | amout (acc : Bool) (d a : Reg) (wt : EWait) (sg : ESignal)
  /-- AMOUT_CLR (R126) -/
  | amoutClr (acc : Bool) (d a : Reg) (wt : EWait) (sg : ESignal)
  /-- TCOPY (R128) -/
  | tcopy (d a b : Reg) (wt : EWait) (sg : ESignal)
  /-- TCOPYW (R129) -/
  | tcopyw (w : Bool) (d a b : Reg) (wt : EWait) (sg : ESignal)
  /-- TGATH (R130) -/
  | tgath (d a b : Reg) (wt : EWait) (sg : ESignal)
  /-- TFILL (R128) -/
  | tfill (d a b : Reg) (wt : EWait) (sg : ESignal)
  /-- CRED (R133) -/
  | cred (d a b : Reg) (wt : EWait) (sg : ESignal)
  /-- CMCAST (R135) -/
  | cmcast (d a b : Reg) (wt : EWait) (sg : ESignal)
  /-- ESTAT (R138) -/
  | estat (d a b : Reg)
  /-- ECANCEL (R139) -/
  | ecancel (a b : Reg)
  /-- ERESUME (R137) -/
  | eresume (n : BitVec 3)
  /-- SPAWN (R144) -/
  | spawn (d a b : Reg)
  /-- SPAWNA (R144) -/
  | spawna (d a b : Reg)
  /-- SEND (R147) -/
  | send (d a b : Reg)
  /-- RECV (R149) -/
  | recv (d a : Reg)
  /-- RECV_TRY (R149) -/
  | recvTry (d a : Reg)
  /-- LQPUSH (R151) -/
  | lqpush (d a b : Reg)
  /-- JDEC (R152) -/
  | jdec (d a b : Reg)
  /-- SEMADD (R157) -/
  | semadd (cube : Bool) (d a b : Reg)
  /-- SEMWAIT (R156) -/
  | semwait (cube : Bool) (d a b : Reg)
  /-- SEMTRY (R156) -/
  | semtry (cube : Bool) (d a b : Reg)
  /-- SEMRD (R156) -/
  | semrd (cube : Bool) (d a b : Reg)
  /-- ARRIVE (R160) -/
  | arrive (d : Reg) (g : BitVec 4)
  /-- WAITB (R160) -/
  | waitb (d : Reg) (g : BitVec 4)
  /-- BMISS (R160) -/
  | bmiss (d a : Reg) (g : BitVec 4)
  /-- BMEMB (R160) -/
  | bmemb (d a : Reg) (g : BitVec 4)
  /-- AMO_ADD (R163) -/
  | amoAdd (d a b : Reg) (w64 acq rel : Bool) (sc : Scope)
  /-- AMO_AND (R163) -/
  | amoAnd (d a b : Reg) (w64 acq rel : Bool) (sc : Scope)
  /-- AMO_OR (R163) -/
  | amoOr (d a b : Reg) (w64 acq rel : Bool) (sc : Scope)
  /-- AMO_XOR (R163) -/
  | amoXor (d a b : Reg) (w64 acq rel : Bool) (sc : Scope)
  /-- AMO_MIN (R163) -/
  | amoMin (d a b : Reg) (w64 acq rel : Bool) (sc : Scope)
  /-- AMO_MAX (R163) -/
  | amoMax (d a b : Reg) (w64 acq rel : Bool) (sc : Scope)
  /-- AMO_MIN_Z (R163) -/
  | amoMinZ (d a b : Reg) (w64 acq rel : Bool) (sc : Scope)
  /-- AMO_MAX_Z (R163) -/
  | amoMaxZ (d a b : Reg) (w64 acq rel : Bool) (sc : Scope)
  /-- AMO_SWAP (R163) -/
  | amoSwap (d a b : Reg) (w64 acq rel : Bool) (sc : Scope)
  /-- CAS (R165) -/
  | cas (d a b : Reg) (w64 acq rel : Bool) (sc : Scope)
  /-- CAS16 (R165) -/
  | cas16 (d a b : Reg) (acq rel : Bool) (sc : Scope)
  /-- RED_ADD (R166) -/
  | redAdd (a b : Reg) (w64 rel : Bool) (sc : Scope)
  /-- RED_AND (R166) -/
  | redAnd (a b : Reg) (w64 rel : Bool) (sc : Scope)
  /-- RED_OR (R166) -/
  | redOr (a b : Reg) (w64 rel : Bool) (sc : Scope)
  /-- RED_XOR (R166) -/
  | redXor (a b : Reg) (w64 rel : Bool) (sc : Scope)
  /-- RED_MIN (R166) -/
  | redMin (a b : Reg) (w64 rel : Bool) (sc : Scope)
  /-- RED_MAX (R166) -/
  | redMax (a b : Reg) (w64 rel : Bool) (sc : Scope)
  /-- RED_MIN_Z (R166) -/
  | redMinZ (a b : Reg) (w64 rel : Bool) (sc : Scope)
  /-- RED_MAX_Z (R166) -/
  | redMaxZ (a b : Reg) (w64 rel : Bool) (sc : Scope)
  /-- FENCE (R167) -/
  | fence (sc : Scope) (ld st eng : Bool)
  /-- TRAP (R169) -/
  | trap (imm : BitVec 11)
  /-- CRRD (R171) -/
  | crrd (d : Reg) (n : BitVec 12)
  /-- CRWR (R171) -/
  | crwr (a : Reg) (n : BitVec 12)
  /-- TLBINV (R172) -/
  | tlbinv (a b : Reg)
  /-- ICINV (R173) -/
  | icinv (a b : Reg)
  /-- CTXSW (R174) -/
  | ctxsw (a : Reg)
  /-- CTXFLUSH (R175) -/
  | ctxflush (a : Reg)
  /-- PRSET (R176) -/
  | prset (a b : Reg)
  /-- PTLOAD (R177) -/
  | ptload (a b : Reg)
  /-- PDRAIN (R178) -/
  | pdrain (a b : Reg)
  /-- NOP (R67) -/
  | nop
  /-- TEND (R153) -/
  | tend
  /-- YIELD (R154) -/
  | yield
  /-- KRET (R309) -/
  | kret
  /-- FRET (R309) -/
  | fret
  /-- WFI (R170) -/
  | wfi
  /-- GETS (R242); operands msg: m -/
  | gets
  /-- GETX (R242); operands msg: m -/
  | getx
  /-- PUTR (R242); operands msg: m -/
  | putr
  /-- WBR (R242); operands msg: m -/
  | wbr
  /-- UREAD (R242); operands msg: m -/
  | uread
  /-- UWRITE (R242); operands msg: m -/
  | uwrite
  /-- AMOR (R242); operands msg: m -/
  | amor
  /-- DROPR (R242); operands msg: m -/
  | dropr
  /-- RECALL (R259); operands msg: m -/
  | recall
  /-- INV (R242); operands msg: m -/
  | inv
  /-- RCLS (R242); operands msg: m -/
  | rcls
  /-- RCLI (R242); operands msg: m -/
  | rcli
  /-- UPD (R242); operands msg: m -/
  | upd
  /-- PUTG (R242); operands msg: m -/
  | putg
  /-- DISC (R242); operands msg: m -/
  | disc
  /-- DATS (R242); operands msg: m -/
  | dats
  /-- DATX (R242); operands msg: m -/
  | datx
  /-- DATU (R242); operands msg: m -/
  | datu
  /-- ACK (R242); operands msg: m -/
  | ack
  /-- DATH (R242); operands msg: m -/
  | dath
  /-- ACKH (R243); operands msg: m -/
  | ackh
  /-- PUTN (R242); operands msg: m -/
  | putn
  /-- NACK (R246); operands msg: m -/
  | nack
  /-- FLT (R244); operands msg: m -/
  | flt
  /-- BACKOFF_EXPIRE (R229); operands x: core, y: ctx -/
  | backoffExpire
  /-- FE_WITHDRAW (R80); operands x: core, y: ctx -/
  | feWithdraw
  /-- WAITLIM_EXPIRE (R80); operands x: core, y: ctx, z: stamp -/
  | waitlimExpire
  /-- PRSET_SWITCH (R259); operands x: id -/
  | prsetSwitch
  /-- VECTOR_OP_COMPLETE (R86); operands x: core, y: ctx -/
  | vectorOpComplete
  /-- ENGINE_COMMAND_START (R114); operands x: cl, y: q -/
  | engineCommandStart
  /-- ENGINE_COMMAND_COMPLETE (R120); operands x: cl, y: num -/
  | engineCommandComplete
  /-- ENGINE_FAULT (R136); operands x: cl, y: num, fault: f -/
  | engineFault
  /-- ENGINE_RECORD_WRITE (R136); operands x: cl -/
  | engineRecordWrite
  /-- PENDING_MESSAGE_DELIVER (R121); operands x: cl -/
  | pendingMessageDeliver
  /-- BARRIER_PHASE_COMPLETE (R160); operands x: core, y: g -/
  | barrierPhaseComplete
  /-- PACKET_ARRIVE (R146); operands packet: p -/
  | packetArrive
  /-- BOUNCE_RETURN (R146); operands packet: p -/
  | bounceReturn
  /-- SEND_MESSAGE_ARRIVE (R147); operands packet: p -/
  | sendMessageArrive
  /-- SEND_ANSWER (R147); operands x: core, y: ctx, z: val -/
  | sendAnswer
  /-- CONTINUATION_RETURNED (R152); operands packet: p -/
  | continuationReturned
  /-- CONTINUATION_RESEND (R152); operands packet: p -/
  | continuationResend
  /-- DISPATCH (R194); operands x: core -/
  | dispatch
  /-- PARK (R188); operands x: core -/
  | park
  /-- INBOX_AGING (R193); operands x: core -/
  | inboxAging
  /-- LAUNCH_START (R201) -/
  | launchStart
  /-- START_BUFFER_REOFFER (R201); operands x: core -/
  | startBufferReoffer
  /-- LAUNCH_COMPLETE (R202); operands x: q, y: id -/
  | launchComplete
  /-- WATCHDOG_EXPIRE (R208); operands x: q -/
  | watchdogExpire
  /-- LQ_RESET (R209); operands x: q -/
  | lqReset
  /-- KTIMER_EXPIRE (R315); operands x: core -/
  | ktimerExpire
  /-- INTERRUPT_TAKE (R317); operands x: core, y: slot -/
  | interruptTake
  /-- EVENT_REOFFER (R315); operands x: core -/
  | eventReoffer
  /-- PACKET_ROUTE (R276); operands x: r, net: p -/
  | packetRoute
  /-- DECOMBINE (R290); operands x: r, msg: m -/
  | decombine
  /-- JOURNAL_SPLIT (R293); operands x: tile, msg: m -/
  | journalSplit
  /-- HOLD_EXPIRE (R291); operands x: r, y: n -/
  | holdExpire
  /-- RECORD_EXPIRE (R292); operands x: r, y: n -/
  | recordExpire
  /-- ESCAPE_TIMEOUT (R278); operands x: port, y: n -/
  | escapeTimeout
  /-- AGE_EXPIRE (R280); operands x: port, y: n -/
  | ageExpire
  /-- RETRY_TIMEOUT (R284); operands x: id -/
  | retryTimeout
  /-- JOURNAL_ENTRY_EXPIRE (R286); operands x: tile, y: n -/
  | journalEntryExpire
  /-- REQUEST_FILTER_EXPIRE (R285); operands x: tile, y: n -/
  | requestFilterExpire
  /-- DISPATCHER_HOLD_EXPIRE (R285); operands x: tile, y: n -/
  | dispatcherHoldExpire
  /-- GROUP_RECEIVE (R268); operands x: port, y: seq, z: ackd, flag: crcOk, nets: pkts, val: the trailer's credit return
  and request for a replay -/
  | groupReceive
  /-- HEARTBEAT_SEND (R268) -/
  | heartbeatSend
  /-- HEARTBEAT_MISS (R354); operands x: port -/
  | heartbeatMiss
  /-- PORT_ENABLE (R270); operands x: port -/
  | portEnable
  /-- TRAINING_COMPLETE (R270); operands x: port, y: far, z: fport -/
  | trainingComplete
  /-- PORT_DOWN_NOTICE (R354); operands x: cube -/
  | portDownNotice
  /-- PROBE (R354); operands x: cube -/
  | probe
  /-- PROBE_TIMEOUT (R354); operands x: cube -/
  | probeTimeout
  /-- COLLECTIVE_PACKET_ARRIVE (R298); operands coll: c, x: when its age reaches its limit (0: it has not travelled) -/
  | collectivePacketArrive
  /-- COLLECTIVE_RESULT_DELIVER (R299); operands coll: c, x: as above -/
  | collectiveResultDeliver
  /-- CMCAST_PACKET_ARRIVE (R300); operands coll: c, x: as above -/
  | cmcastPacketArrive
  /-- COLLECTIVE_BUFFER_FREE (R301); operands x: port -/
  | collectiveBufferFree
  /-- ERROR_DETECTED (R345); operands place: at, x: sev -/
  | errorDetected
  /-- SELF_TEST_COMPLETE (R346); operands place: at, flag: failed -/
  | selfTestComplete
  /-- LOGIC_ERROR (R353); operands place: at -/
  | logicError
  /-- PATROL_SCRUB (R350); operands place: at -/
  | patrolScrub
  /-- CORE_PROBE (R339) -/
  | coreProbe
  /-- SPAREMAP_WRITE (R339); operands x: cl, val: v -/
  | sparemapWrite
  /-- LMINJ_WRITE (R336); operands val: v -/
  | lminjWrite
  /-- CMBINJ_WRITE (R264); operands x: r, val: v -/
  | cmbinjWrite
  /-- CMBSTAT_CLEAR (R263); operands x: r -/
  | cmbstatClear
  /-- VB_PAUSE (R363); operands x: vault, y: bus -/
  | vbPause
  /-- VB_RESUME (R363); operands x: vault, y: bus -/
  | vbResume
  /-- VBTEST_GO (R363); operands x: vault, y: bus -/
  | vbtestGo
  /-- VBTEST_STEP_COMPLETE (R363); operands x: vault, y: bus -/
  | vbtestStepComplete
  /-- VBMUX_WRITE (R364); operands x: vault, y: bus, z: g, val: v -/
  | vbmuxWrite
  /-- BUS_RETIRE (R365); operands x: vault, y: bus -/
  | busRetire
  /-- MEAS_EXTEND (R376) -/
  | measExtend
  /-- FLASH_LOG_WRITE (R361) -/
  | flashLogWrite
  /-- CUBE_RESET (R374) -/
  | cubeReset
  /-- RECOVERY_IMAGE_RECEIVE (R377); operands bytes: image -/
  | recoveryImageReceive
  /-- REQUEST_UPDATE (R378); operands x: transport -/
  | requestUpdate
  /-- UPDATE_IMAGE_COMPLETE (R378); operands x: transport, bytes: image; none: the next phase of an update whose image has come -/
  | updateImageComplete
  /-- POWER_LOSS (R378); operands x: bytes of the flash operation under way that are done -/
  | powerLoss
  /-- FIRMWARE_WRITE_REQUEST (R384) -/
  | firmwareWriteRequest
  /-- GET_VERSION (R385); operands x: transport, y: 0, or the code of a request that is not offered, bytes: body -/
  | getVersion
  /-- GET_CAPABILITIES (R385); operands x: transport, bytes: body -/
  | getCapabilities
  /-- NEGOTIATE_ALGORITHMS (R385); operands x: transport, bytes: body -/
  | negotiateAlgorithms
  /-- GET_DIGESTS (R385); operands x: transport, bytes: body -/
  | getDigests
  /-- GET_CERTIFICATE (R385); operands x: transport, bytes: body -/
  | getCertificate
  /-- CHALLENGE (R385); operands x: transport, bytes: body -/
  | challenge
  /-- GET_MEASUREMENTS (R386); operands x: transport, bytes: body -/
  | getMeasurements
  /-- ENTDAA (R368); operands x: addr -/
  | entdaa
  /-- SETDASA (R368); operands x: addr -/
  | setdasa
  /-- HOST_WINDOW_READ (R390); operands x: port, y: off, z: len -/
  | hostWindowRead
  /-- HOST_WINDOW_WRITE (R390); operands x: port, y: off, bytes: bytes -/
  | hostWindowWrite
  /-- HOST_MAILBOX_WRITE (R389); operands x: port, y: w, val: v -/
  | hostMailboxWrite
  /-- HOST_DOORBELL (R390); operands x: port -/
  | hostDoorbell
  /-- HOST_ATOMICOP (R388); operands x: port -/
  | hostAtomicop
  /-- HDB_RING (R389); operands x: port -/
  | hdbRing
  /-- OVERTEMP_FAILURE (R392) -/
  | overtempFailure
  /-- REGISTER_WRITE (R303); operands x: level, y: off, val: v -/
  | registerWrite
  /-- SEQUENCE_NUMBER_REUSE (R283); operands x: core -/
  | sequenceNumberReuse
  /-- SINGLE_FAULT (R350); operands place: at -/
  | singleFault
  /-- THROTTLE (R392); operands x: watts, y: tmax -/
  | throttle
  deriving DecidableEq, Repr

end Sys2Proof
end

