-- ==== Sys2Proof/WellFormed.lean ====
section
/-! DEFINITION. When an instruction is well formed: the checks of R13, R23 to R28 and R31 that the
syntax does not already make impossible. -/

namespace Sys2Proof

/-- The element size in bits (R20). -/
def ETy.bits : ETy → Nat
  | .s8 | .z8 | .e4 | .e5 => 8
  | .s16 | .z16 | .h | .bf => 16
  | .s32 | .z32 | .f => 32
  | .s64 | .z64 | .d => 64
  | .e2 => 4

/-- The type codes of R20. -/
def ETy.code : ETy → Nat
  | .s8 => 0 | .s16 => 1 | .s32 => 2 | .s64 => 3 | .z8 => 4 | .z16 => 5 | .z32 => 6 | .z64 => 7
  | .h => 8 | .bf => 9 | .f => 10 | .d => 11 | .e4 => 12 | .e5 => 13 | .e2 => 14

/-- The type of a code of R20; 0xF is reserved. -/
def ETy.ofCode : Nat → Option ETy
  | 0 => some .s8 | 1 => some .s16 | 2 => some .s32 | 3 => some .s64
  | 4 => some .z8 | 5 => some .z16 | 6 => some .z32 | 7 => some .z64
  | 8 => some .h | 9 => some .bf | 10 => some .f | 11 => some .d
  | 12 => some .e4 | 13 => some .e5 | 14 => some .e2
  | _ => none

/-- Types 0x0 to 0x7 of R26. -/
def ETy.isInt (t : ETy) : Bool := t.code < 8

/-- Types 0x8 to 0xB of R26. -/
def ETy.isFp (t : ETy) : Bool := 8 ≤ t.code && t.code ≤ 11

/-- Types 0x0 to 0xB of R26. -/
def ETy.isIntOrFp (t : ETy) : Bool := t.code ≤ 11

/-- The types of R100: .h, .bf and .f. -/
def ETy.isSpecial (t : ETy) : Bool := t = .h || t = .bf || t = .f

/-- A signed integer type. -/
def ETy.signed : ETy → Bool
  | .s8 | .s16 | .s32 | .s64 => true
  | _ => false

/-- The control registers that R21 assigns. -/
def crAssigned (n : Nat) : Bool :=
  n ≤ 5 || (0x400 ≤ n && n ≤ 0x40D) || (0x440 ≤ n && n ≤ 0x47F) || (0x800 ≤ n && n ≤ 0x80B)

/-- The control registers whose access R21 gives as RO. -/
def crReadOnly (n : Nat) : Bool :=
  (2 ≤ n && n ≤ 5) || (0x440 ≤ n && n ≤ 0x47F)

/-- R16: a head index of 0 in a T32.B tail is illegal. -/
def BTarget.ok (t : BTarget) : Bool := t.idx != 0

/-- R13: a signal carries an increment from 1 to 15. -/
def signalOk (sg : ESignal) : Bool :=
  match sg with
  | none => true
  | some (k, _) => k != 0

/-- R28: CAS16 requires even register numbers, the rectangle register included. -/
def Scope.even : Scope → Bool
  | .rect c => c.toNat % 2 = 0
  | _ => true

/-- R87: a register group starts at a multiple of its size. -/
def groupOk (r : Reg) (g : Nat) : Bool := r.toNat % g = 0

/-- R93: equal codes, and a mask with .e2 on either side, are illegal. -/
def cvtOk (src dst : ETy) (m : Mask) : Bool :=
  src != dst && (m.isNone || (src != .e2 && dst != .e2))

/-- R94: the accepted pairs of VCVTSR. -/
def cvtsrOk (src dst : ETy) (m : Mask) : Bool :=
  src.isSpecial && (dst = .h || dst = .bf || dst = .e4 || dst = .e5 || dst = .e2) && cvtOk src dst m

/-- R44, R95, R96: the element types of an MX block; .s8 means MXINT8. -/
def mxElem (t : ETy) : Bool := t = .e4 || t = .e5 || t = .e2 || t = .s8

/-- R23: position + width ≤ 64, where `w` is the width minus one. -/
def fieldOk (p w : BitVec 6) : Bool := p.toNat + w.toNat + 1 ≤ 64

/-- The checks of step 4 of R29 on an instruction already split into operands. -/
def Instr.wellFormed : Instr → Bool
  | .beq _ _ t | .bne _ _ t | .blt _ _ t | .bge _ _ t | .bltZ _ _ t | .bgeZ _ _ t => t.ok
  | .br t | .jal _ t => t.ok
  | .loop a t => a != 0 && t.ok
  | .bsdone _ t | .bsmore _ t => t.ok
  | .ext _ _ p w | .extZ _ _ p w => fieldOk p w
  | .ins _ _ _ p w => fieldOk p w
  | .vgath _ _ _ t _ | .vscat _ _ _ t _ => t != .e2
  | .vadd _ _ _ t _ | .vsub _ _ _ t _ | .vmul _ _ _ t _ | .vmulh _ _ _ t _ | .vmin _ _ _ t _
  | .vmax _ _ _ t _ | .vand _ _ _ t _ | .vor _ _ _ t _ | .vxor _ _ _ t _ | .vandn _ _ _ t _
  | .vsll _ _ _ t _ | .vsrl _ _ _ t _ | .vsra _ _ _ t _ | .vadds _ _ _ t _ | .vsubs _ _ _ t _
  | .vavg _ _ _ t _ | .vmac _ _ _ t _ => t.isInt
  | .vabs _ _ t _ | .vneg _ _ t _ => t.isInt
  | .vfadd _ _ _ t _ | .vfsub _ _ _ t _ | .vfmul _ _ _ t _ | .vfdiv _ _ _ t _ | .vfmin _ _ _ t _
  | .vfmax _ _ _ t _ => t.isFp
  | .vfma _ _ _ _ t _ | .vfms _ _ _ _ t _ | .vfnma _ _ _ _ t _ => t.isFp
  | .vfabs _ _ t _ | .vfneg _ _ t _ | .vfsqrt _ _ t _ => t.isFp
  | .vcmpEq _ _ _ t _ | .vcmpNe _ _ _ t _ | .vcmpLt _ _ _ t _ | .vcmpLe _ _ _ t _
  | .vcmpGt _ _ _ t _ | .vcmpGe _ _ _ t _ => t.isIntOrFp
  | .vcmpUnord _ _ _ t _ => t.isFp
  | .vcvt _ _ s t m | .vcvtSat _ _ s t m => cvtOk s t m
  | .vmxpack d a s t => s.isSpecial && mxElem t && groupOk d 2 && groupOk a (s.bits / 8)
  | .vmxunpk d a s t => mxElem s && t.isSpecial && groupOk a 2 && groupOk d (t.bits / 8)
  | .vcvtsr _ _ _ s t m | .vcvtsrSat _ _ _ s t m => cvtsrOk s t m
  | .vdot _ _ _ t _ => t = .s8 || t = .z8
  | .vdotf _ _ _ t _ => t = .h || t = .bf
  | .vdotf8 _ _ _ t _ => t = .e4 || t = .e5
  | .vrsum _ _ t _ | .vrmin _ _ t _ | .vrmax _ _ t _ => t.isInt
  | .vrfsum _ _ t _ | .vrfmin _ _ t _ | .vrfmax _ _ t _ => t.isFp
  | .vmov _ _ _ t _ | .vbcast _ _ t _ => t != .e2
  | .vperm _ _ _ t _ | .vslide _ _ _ t _ | .vzip _ _ _ t _ | .vunzip _ _ _ t _ => t != .e2
  | .vins _ _ _ t | .vext _ _ _ t => t != .e2
  | .vexp2 _ _ t _ | .vlog2 _ _ t _ | .vrcp _ _ t _ | .vrsqrt _ _ t _ | .vsin _ _ t _
  | .vcos _ _ t _ | .vtanh _ _ t _ | .vsigm _ _ t _ => t.isSpecial
  | .mma _ _ _ _ _ sg => signalOk sg
  | .amzero _ _ _ sg => signalOk sg
  | .amin _ _ _ _ sg | .amout _ _ _ _ sg | .amoutClr _ _ _ _ sg => signalOk sg
  | .tcopy _ _ _ _ sg | .tgath _ _ _ _ sg | .tfill _ _ _ _ sg | .cred _ _ _ _ sg
  | .cmcast _ _ _ _ sg => signalOk sg
  | .tcopyw _ _ _ _ _ sg => signalOk sg
  | .cas16 d _ b _ _ sc => d.toNat % 2 = 0 && b.toNat % 2 = 0 && sc.even
  | .crrd _ n => crAssigned n.toNat
  | .crwr _ n => crAssigned n.toNat && !crReadOnly n.toNat
  | _ => true

/-- R22 and R21: the level an instruction needs (0 user, 1 kernel, 2 firmware). -/
def Instr.level : Instr → Nat
  | .eresume _ | .kret | .wfi | .tlbinv _ _ | .ctxsw _ | .ctxflush _ | .prset _ _ | .ptload _ _
  | .pdrain _ _ => 1
  | .fret => 2
  | .crrd _ n | .crwr _ n => n.toNat / 1024
  | _ => 0

end Sys2Proof
end

