-- ==== Sys2Proof/Decode.lean ====
section
/-! DEFINITION. Decoding (R7 to R12, R20 to R31): a head and its tail to an instruction, and a
64-byte line to its heads and tails; and the encoder written from the same tables. -/

namespace Sys2Proof

/-! ## Bit fields of the 11-bit and 5-bit operand fields -/

def hi5 (v : BitVec 11) : BitVec 5 := v.extractLsb' 6 5
def lo6 (v : BitVec 11) : BitVec 6 := v.extractLsb' 0 6
def mk56 (h : BitVec 5) (l : BitVec 6) : BitVec 11 := h ++ l

def hi4 (v : BitVec 11) : BitVec 4 := v.extractLsb' 7 4
def bit6 (v : BitVec 11) : BitVec 1 := v.extractLsb' 6 1
def mk416 (h : BitVec 4) (b : BitVec 1) (l : BitVec 6) : BitVec 11 := h ++ b ++ l

/-- R23: width minus one, mod11[6] concatenated with c. -/
def mk15 (b : BitVec 1) (c : Reg) : BitVec 6 := b ++ c
def hi1 (w : BitVec 6) : BitVec 1 := w.extractLsb' 5 1
def lo5 (w : BitVec 6) : Reg := w.extractLsb' 0 5

def hi9 (v : BitVec 11) : BitVec 9 := v.extractLsb' 2 9
def lo2 (v : BitVec 11) : BitVec 2 := v.extractLsb' 0 2
def mk92 (h : BitVec 9) (l : BitVec 2) : BitVec 11 := h ++ l

def hi3f (f : BitVec 6) : BitVec 3 := f.extractLsb' 3 3
def lo3 (f : BitVec 6) : BitVec 3 := f.extractLsb' 0 3
def lo2f (f : BitVec 6) : BitVec 2 := f.extractLsb' 0 2
/-- R24: a store form accepts only t from 0 to 3. -/
def t4 (f : BitVec 6) : Bool := f.getLsbD 2 = false
def mk33 (h l : BitVec 3) : BitVec 6 := h ++ l

def hi8 (v : BitVec 11) : BitVec 8 := v.extractLsb' 3 8
def lo3m (v : BitVec 11) : BitVec 3 := v.extractLsb' 0 3
def mk83 (h : BitVec 8) (l : BitVec 3) : BitVec 11 := h ++ l

def hi10 (v : BitVec 11) : BitVec 10 := v.extractLsb' 1 10
def bit0 (v : BitVec 11) : Bool := v.getLsbD 0
def bit1 (v : BitVec 11) : Bool := v.getLsbD 1
def bit2 (v : BitVec 11) : Bool := v.getLsbD 2
def bit3 (v : BitVec 11) : Bool := v.getLsbD 3
def bit4 (v : BitVec 11) : Bool := v.getLsbD 4
def bit5 (v : BitVec 11) : Bool := v.getLsbD 5
def mk101 (b : Bool) : BitVec 11 := 0#10 ++ BitVec.ofBool b

def hi7 (v : BitVec 11) : BitVec 7 := v.extractLsb' 4 7
def lo4 (v : BitVec 11) : BitVec 4 := v.extractLsb' 0 4
def mk74 (h : BitVec 7) (l : BitVec 4) : BitVec 11 := h ++ l

def hi15 (v : BitVec 27) : BitVec 15 := v.extractLsb' 12 15
def lo12 (v : BitVec 27) : BitVec 12 := v.extractLsb' 0 12
def mk1512 (h : BitVec 15) (l : BitVec 12) : BitVec 27 := h ++ l

/-- R26: a field that names a bound or bindable vector register is 28 to 31. -/
def vhi (r : Reg) : Bool := r.extractLsb' 2 3 = 7#3
def vlo (r : Reg) : BitVec 2 := r.extractLsb' 0 2
def vreg (v : BitVec 2) : Reg := 7#3 ++ v

/-- R26: a field that names a mask is 0 to 7. -/
def m3 (r : Reg) : Bool := r.extractLsb' 3 2 = 0#2
def mlo (r : Reg) : BitVec 3 := r.extractLsb' 0 3
def mreg (m : BitVec 3) : Reg := 0#2 ++ m

/-- The low and high bit of the selector A[6:5]. -/
def lsb (v : BitVec 2) : Bool := v.getLsbD 0
def msb (v : BitVec 2) : Bool := v.getLsbD 1
def mk11 (h l : Bool) : BitVec 2 := BitVec.ofBool h ++ BitVec.ofBool l

/-- R28: the scope field mod11[5:3] of AMO, CAS and RED, and the whole mod11. -/
def sc3 (v : BitVec 11) : BitVec 3 := v.extractLsb' 3 3
def mkAmo (sc : BitVec 3) (rel acq w64 : Bool) : BitVec 11 :=
  0#5 ++ sc ++ BitVec.ofBool rel ++ BitVec.ofBool acq ++ BitVec.ofBool w64

/-- R28: imm11 of FENCE. -/
def mkFence (eng st ld : Bool) (sc : BitVec 3) : BitVec 11 :=
  0#5 ++ BitVec.ofBool eng ++ BitVec.ofBool st ++ BitVec.ofBool ld ++ sc

/-! ## Type, size and scope codes (R24) -/

def MTy.dec (c : BitVec 3) : MTy :=
  if c = 0 then .s8 else if c = 1 then .s16 else if c = 2 then .s32 else if c = 3 then .s64
  else if c = 4 then .z8 else if c = 5 then .z16 else if c = 6 then .z32 else .z64

def MTy.enc : MTy → BitVec 3
  | .s8 => 0 | .s16 => 1 | .s32 => 2 | .s64 => 3 | .z8 => 4 | .z16 => 5 | .z32 => 6 | .z64 => 7

def MSize.dec (c : BitVec 2) : MSize :=
  if c = 0 then .b8 else if c = 1 then .b16 else if c = 2 then .b32 else .b64

def MSize.enc : MSize → BitVec 3
  | .b8 => 0 | .b16 => 1 | .b32 => 2 | .b64 => 3

/-- R24: scope codes 5 to 7 are undefined, and field c must be 0 unless the scope is RECT. -/
def scopeOk (code : BitVec 3) (c : Reg) : Bool :=
  code = 0 && c = 0 || code = 1 && c = 0 || code = 2 || code = 3 && c = 0 || code = 4 && c = 0

def Scope.dec (code : BitVec 3) (c : Reg) : Scope :=
  if code = 0 then .thread else if code = 1 then .core else if code = 2 then .rect c
  else if code = 3 then .cube else .system

def Scope.enc : Scope → BitVec 3
  | .thread => 0 | .core => 1 | .rect _ => 2 | .cube => 3 | .system => 4

def Scope.reg : Scope → Reg
  | .rect c => c
  | _ => 0

/-! ## Element type and mask in mod11 (R25), and the source type in c (R26) -/

def ETy.code4 (t : ETy) : BitVec 4 := BitVec.ofNat 4 t.code
def ETy.reg (t : ETy) : Reg := 0#1 ++ t.code4

/-- mod11[8], the zeroing bit. -/
def zbit (v : BitVec 11) : Bool := v.getLsbD 8

/-- R25: the mask fields of mod11, `none` where a bit that must be zero is set. -/
def maskDec (v : BitVec 11) : Option Mask :=
  if v.extractLsb' 9 2 != 0#2 then none
  else if v.getLsbD 7 then some (some (v.extractLsb' 4 3, v.getLsbD 8))
  else if v.extractLsb' 4 5 = 0#5 then some none
  else none

def modTM (t : ETy) (m : Mask) : BitVec 11 :=
  match m with
  | none => 0#7 ++ t.code4
  | some (r, z) => 0#2 ++ BitVec.ofBool z ++ 1#1 ++ r ++ t.code4

def withTMo (md : BitVec 11) (k : ETy → Mask → Option Instr) : Option Instr :=
  match ETy.ofCode (lo4 md).toNat, maskDec md with
  | some t, some m => k t m
  | _, _ => none

def withTM (md : BitVec 11) (k : ETy → Mask → Instr) : Option Instr :=
  withTMo md (fun t m => some (k t m))

/-- R26, OP 0x25 and 0x26: the source type in c[3:0], with c[4] = 0. -/
def withSTMo (md : BitVec 11) (c : Reg) (k : ETy → ETy → Mask → Option Instr) : Option Instr :=
  if c.getLsbD 4 then none
  else
    match ETy.ofCode (c.extractLsb' 0 4).toNat with
    | some s => withTMo md (fun t m => k s t m)
    | none => none

def withSTM (md : BitVec 11) (c : Reg) (k : ETy → ETy → Mask → Instr) : Option Instr :=
  withSTMo md c (fun s t m => some (k s t m))

/-! ## The wait and signal fields (R13) -/

/-- R13: the wait fields are legal. Field c must be 0 where the wait does not name a register
(R116). -/
def waitOk (mode : BitVec 2) (ws : BitVec 8) (imm : BitVec 11) (c : Reg) : Bool :=
  mode = 0 && ws = 0 && imm = 0 && c = 0 || mode = 1 && c = 0 || mode = 2

def EWait.dec (mode : BitVec 2) (ws : BitVec 8) (imm : BitVec 11) (c : Reg) : EWait :=
  if mode = 0 then .none else if mode = 1 then .atLeast ws imm else .atLeastReg ws c imm

def EWait.mode : EWait → BitVec 2
  | .none => 0 | .atLeast _ _ => 1 | .atLeastReg _ _ _ => 2
def EWait.imm : EWait → BitVec 11
  | .atLeast _ n => n
  | .atLeastReg _ _ n => n
  | .none => 0
def EWait.sem : EWait → BitVec 8
  | .none => 0 | .atLeast s _ => s | .atLeastReg s _ _ => s
def EWait.reg : EWait → Reg
  | .atLeastReg _ c _ => c
  | _ => 0

/-- R13: with increment 0 the signal semaphore must be zero. -/
def signalEncOk (inc : BitVec 4) (ss : BitVec 8) : Bool := inc != 0 || ss = 0

def signalDec (inc : BitVec 4) (ss : BitVec 8) : ESignal :=
  if inc = 0 then none else some (inc, ss)

def sigInc : ESignal → BitVec 4
  | none => 0
  | some (k, _) => k
def sigSem : ESignal → BitVec 8
  | none => 0
  | some (_, ss) => ss

/-! ## Heads and tails (R11, R12) -/

/-- The tail formats of R12, one for each OP. -/
inductive Format where
  | none | r | i | x | i27 | br | i48 | e
  deriving DecidableEq, Repr

/-- The tail length that selects the format, in halfwords (R12). -/
def Format.tl : Format → Nat
  | .none => 0 | .r => 1 | .i => 1 | .x => 2 | .i27 => 2 | .br => 2 | .i48 => 3 | .e => 3

/-- The fields of a head other than TL (R11): OP, A[6:5] and A[4:0]. -/
structure HeadF where
  op : Nat
  sel : BitVec 2
  d : Reg
  deriving DecidableEq, Repr

/-- The fields of a tail (R12). -/
inductive Tail where
  | none
  | r (f : BitVec 6) (b a : Reg)
  | i (imm : BitVec 11) (a : Reg)
  | x (md : BitVec 11) (f : BitVec 6) (c b a : Reg)
  | i27 (imm : BitVec 27) (a : Reg)
  | br (dl : BitVec 17) (ix : BitVec 5) (b a : Reg)
  | i48 (imm : BitVec 32) (f : BitVec 11) (a : Reg)
  | e (inc : BitVec 4) (ss : BitVec 8) (imm : BitVec 11) (mode : BitVec 2) (ws : BitVec 8) (c b a : Reg)
  deriving DecidableEq, Repr

/-- R22: the tail format of each defined OP; `none` for an OP that R22 leaves undefined. -/
def opFormat : Nat → Option Format
  | 0x01 => some .none
  | 0x02 => some .br
  | 0x03 => some .br
  | 0x04 => some .i
  | 0x05 => some .br
  | 0x06 => some .br
  | 0x08 => some .i48
  | 0x09 => some .i
  | 0x0a => some .i
  | 0x0b => some .i27
  | 0x0c => some .i27
  | 0x0d => some .i
  | 0x10 => some .r
  | 0x11 => some .r
  | 0x12 => some .x
  | 0x13 => some .r
  | 0x14 => some .x
  | 0x18 => some .i
  | 0x19 => some .i
  | 0x1a => some .i
  | 0x1b => some .x
  | 0x1c => some .x
  | 0x1d => some .x
  | 0x1e => some .i
  | 0x20 => some .i
  | 0x21 => some .x
  | 0x22 => some .x
  | 0x23 => some .x
  | 0x24 => some .x
  | 0x25 => some .x
  | 0x26 => some .x
  | 0x27 => some .x
  | 0x28 => some .x
  | 0x29 => some .x
  | 0x2a => some .x
  | 0x2b => some .x
  | 0x2c => some .r
  | 0x2d => some .r
  | 0x40 => some .e
  | 0x41 => some .e
  | 0x42 => some .e
  | 0x43 => some .e
  | 0x44 => some .e
  | 0x46 => some .e
  | 0x47 => some .e
  | 0x48 => some .e
  | 0x49 => some .e
  | 0x45 => some .e
  | 0x4a => some .r
  | 0x4b => some .r
  | 0x4c => some .i
  | 0x50 => some .r
  | 0x51 => some .i
  | 0x52 => some .r
  | 0x53 => some .r
  | 0x54 => some .none
  | 0x55 => some .r
  | 0x56 => some .i
  | 0x57 => some .x
  | 0x58 => some .x
  | 0x59 => some .x
  | 0x5a => some .i
  | 0x60 => some .i
  | 0x61 => some .none
  | 0x62 => some .i27
  | 0x63 => some .r
  | 0x64 => some .r
  | 0x66 => some .r
  | 0x67 => some .r
  | 0x68 => some .r
  | 0x65 => some .r
  | _ => none

/-- R22 to R28: the instructions of OP 0x01. -/
def dec01 (sel : BitVec 2) (d : Reg) : Option Instr :=
  if sel = 0 ∧ d = 0 then some (.nop)
  else none

/-- R22 to R28: the instructions of OP 0x02. -/
def dec02 (sel : BitVec 2) (d : Reg) (dl : BitVec 17) (ix : BitVec 5) (b a : Reg) : Option Instr :=
  if sel = 0 ∧ d = 0 then some (.beq a b ⟨dl, ix⟩)
  else if sel = 0 ∧ d = 1 then some (.bne a b ⟨dl, ix⟩)
  else if sel = 0 ∧ d = 2 then some (.blt a b ⟨dl, ix⟩)
  else if sel = 0 ∧ d = 3 then some (.bge a b ⟨dl, ix⟩)
  else if sel = 0 ∧ d = 4 then some (.bltZ a b ⟨dl, ix⟩)
  else if sel = 0 ∧ d = 5 then some (.bgeZ a b ⟨dl, ix⟩)
  else if sel = 0 ∧ d = 6 ∧ a = 0 ∧ b = 0 then some (.br ⟨dl, ix⟩)
  else none

/-- R22 to R28: the instructions of OP 0x03. -/
def dec03 (sel : BitVec 2) (d : Reg) (dl : BitVec 17) (ix : BitVec 5) (b a : Reg) : Option Instr :=
  if sel = 0 ∧ a = 0 ∧ b = 0 then some (.jal d ⟨dl, ix⟩)
  else none

/-- R22 to R28: the instructions of OP 0x04. -/
def dec04 (sel : BitVec 2) (d : Reg) (imm : BitVec 11) (a : Reg) : Option Instr :=
  if sel = 0 then some (.jalr d a imm)
  else none

/-- R22 to R28: the instructions of OP 0x05. -/
def dec05 (sel : BitVec 2) (d : Reg) (dl : BitVec 17) (ix : BitVec 5) (b a : Reg) : Option Instr :=
  if sel = 0 ∧ d = 0 ∧ b = 0 then some (.loop a ⟨dl, ix⟩)
  else none

/-- R22 to R28: the instructions of OP 0x06. -/
def dec06 (sel : BitVec 2) (d : Reg) (dl : BitVec 17) (ix : BitVec 5) (b a : Reg) : Option Instr :=
  if sel = 0 ∧ d = 0 ∧ b = 0 ∧ vhi a then some (.bsdone (vlo a) ⟨dl, ix⟩)
  else if sel = 0 ∧ d = 1 ∧ b = 0 ∧ vhi a then some (.bsmore (vlo a) ⟨dl, ix⟩)
  else none

/-- R22 to R28: the instructions of OP 0x08. -/
def dec08 (sel : BitVec 2) (d : Reg) (imm : BitVec 32) (f : BitVec 11) (a : Reg) : Option Instr :=
  if sel = 0 ∧ a = 0 ∧ f = 0 then some (.li d imm)
  else if sel = 0 ∧ a = 0 ∧ f = 1 then some (.liZ d imm)
  else if sel = 0 ∧ a = 0 ∧ f = 2 then some (.lihi d imm)
  else none

/-- R22 to R28: the instructions of OP 0x09. -/
def dec09 (sel : BitVec 2) (d : Reg) (imm : BitVec 11) (a : Reg) : Option Instr :=
  if sel = 0 then some (.addi d a imm)
  else if sel = 1 then some (.andi d a imm)
  else if sel = 2 then some (.ori d a imm)
  else if sel = 3 then some (.xori d a imm)
  else none

/-- R22 to R28: the instructions of OP 0x0A. -/
def dec0A (sel : BitVec 2) (d : Reg) (imm : BitVec 11) (a : Reg) : Option Instr :=
  if sel = 0 ∧ hi5 imm = 0 then some (.slli d a (lo6 imm))
  else if sel = 1 ∧ hi5 imm = 0 then some (.srli d a (lo6 imm))
  else if sel = 2 ∧ hi5 imm = 0 then some (.srai d a (lo6 imm))
  else if sel = 3 ∧ hi5 imm = 0 then some (.rori d a (lo6 imm))
  else none

/-- R22 to R28: the instructions of OP 0x0B. -/
def dec0B (sel : BitVec 2) (d : Reg) (imm : BitVec 27) (a : Reg) : Option Instr :=
  if sel = 0 then some (.addil d a imm)
  else none

/-- R22 to R28: the instructions of OP 0x0C. -/
def dec0C (sel : BitVec 2) (d : Reg) (imm : BitVec 27) (a : Reg) : Option Instr :=
  if sel = 0 ∧ a = 0 then some (.adr d imm)
  else none

/-- R22 to R28: the instructions of OP 0x0D. -/
def dec0D (sel : BitVec 2) (d : Reg) (imm : BitVec 11) (a : Reg) : Option Instr :=
  if sel = 0 then some (.slti d a imm)
  else if sel = 1 then some (.sltiZ d a imm)
  else if sel = 2 then some (.seqi d a imm)
  else none

/-- R22 to R28: the instructions of OP 0x10. -/
def dec10 (sel : BitVec 2) (d : Reg) (f : BitVec 6) (b a : Reg) : Option Instr :=
  if sel = 0 ∧ f = 0 then some (.add d a b)
  else if sel = 0 ∧ f = 1 then some (.sub d a b)
  else if sel = 0 ∧ f = 2 then some (.and d a b)
  else if sel = 0 ∧ f = 3 then some (.or d a b)
  else if sel = 0 ∧ f = 4 then some (.xor d a b)
  else if sel = 0 ∧ f = 5 then some (.andn d a b)
  else if sel = 0 ∧ f = 6 then some (.orn d a b)
  else if sel = 0 ∧ f = 7 then some (.xnor d a b)
  else if sel = 0 ∧ f = 8 then some (.sll d a b)
  else if sel = 0 ∧ f = 9 then some (.srl d a b)
  else if sel = 0 ∧ f = 10 then some (.sra d a b)
  else if sel = 0 ∧ f = 11 then some (.rol d a b)
  else if sel = 0 ∧ f = 12 then some (.ror d a b)
  else if sel = 0 ∧ f = 13 then some (.slt d a b)
  else if sel = 0 ∧ f = 14 then some (.sltZ d a b)
  else if sel = 0 ∧ f = 15 then some (.seq d a b)
  else none

/-- R22 to R28: the instructions of OP 0x11. -/
def dec11 (sel : BitVec 2) (d : Reg) (f : BitVec 6) (b a : Reg) : Option Instr :=
  if sel = 0 ∧ f = 0 then some (.mul d a b)
  else if sel = 0 ∧ f = 1 then some (.mulh d a b)
  else if sel = 0 ∧ f = 2 then some (.mulhZ d a b)
  else if sel = 0 ∧ f = 3 then some (.div d a b)
  else if sel = 0 ∧ f = 4 then some (.divZ d a b)
  else if sel = 0 ∧ f = 5 then some (.rem d a b)
  else if sel = 0 ∧ f = 6 then some (.remZ d a b)
  else none

/-- R22 to R28: the instructions of OP 0x12. -/
def dec12 (sel : BitVec 2) (d : Reg) (md : BitVec 11) (f : BitVec 6) (c b a : Reg) : Option Instr :=
  if sel = 0 ∧ hi4 md = 0 ∧ b = 0 ∧ f = 0 then some (.ext d a (lo6 md) (mk15 (bit6 md) c))
  else if sel = 0 ∧ hi4 md = 0 ∧ b = 0 ∧ f = 1 then some (.extZ d a (lo6 md) (mk15 (bit6 md) c))
  else if sel = 0 ∧ hi4 md = 0 ∧ f = 2 then some (.ins d a b (lo6 md) (mk15 (bit6 md) c))
  else none

/-- R22 to R28: the instructions of OP 0x13. -/
def dec13 (sel : BitVec 2) (d : Reg) (f : BitVec 6) (b a : Reg) : Option Instr :=
  if sel = 0 ∧ b = 0 ∧ f = 0 then some (.clz d a)
  else if sel = 0 ∧ b = 0 ∧ f = 1 then some (.ctz d a)
  else if sel = 0 ∧ b = 0 ∧ f = 2 then some (.popc d a)
  else if sel = 0 ∧ b = 0 ∧ f = 3 then some (.brev d a)
  else if sel = 0 ∧ b = 0 ∧ f = 4 then some (.bswap d a)
  else if sel = 0 ∧ b = 0 ∧ f = 5 then some (.sext8 d a)
  else if sel = 0 ∧ b = 0 ∧ f = 6 then some (.sext16 d a)
  else if sel = 0 ∧ b = 0 ∧ f = 7 then some (.sext32 d a)
  else if sel = 0 ∧ b = 0 ∧ f = 8 then some (.zext8 d a)
  else if sel = 0 ∧ b = 0 ∧ f = 9 then some (.zext16 d a)
  else if sel = 0 ∧ b = 0 ∧ f = 10 then some (.zext32 d a)
  else none

/-- R22 to R28: the instructions of OP 0x14. -/
def dec14 (sel : BitVec 2) (d : Reg) (md : BitVec 11) (f : BitVec 6) (c b a : Reg) : Option Instr :=
  if sel = 0 ∧ md = 0 ∧ f = 0 then some (.selNz d a b c)
  else if sel = 0 ∧ md = 0 ∧ f = 1 then some (.selZ d a b c)
  else if sel = 0 ∧ md = 0 ∧ c = 0 ∧ f = 2 then some (.min d a b)
  else if sel = 0 ∧ md = 0 ∧ c = 0 ∧ f = 3 then some (.max d a b)
  else if sel = 0 ∧ md = 0 ∧ c = 0 ∧ f = 4 then some (.minZ d a b)
  else if sel = 0 ∧ md = 0 ∧ c = 0 ∧ f = 5 then some (.maxZ d a b)
  else none

/-- R22 to R28: the instructions of OP 0x18. -/
def dec18 (sel : BitVec 2) (d : Reg) (imm : BitVec 11) (a : Reg) : Option Instr :=
  if sel = 0 then some (.ldS8 d a imm)
  else if sel = 1 then some (.ldS16 d a imm)
  else if sel = 2 then some (.ldS32 d a imm)
  else if sel = 3 then some (.ldS64 d a imm)
  else none

/-- R22 to R28: the instructions of OP 0x19. -/
def dec19 (sel : BitVec 2) (d : Reg) (imm : BitVec 11) (a : Reg) : Option Instr :=
  if sel = 0 then some (.ldZ8 d a imm)
  else if sel = 1 then some (.ldZ16 d a imm)
  else if sel = 2 then some (.ldZ32 d a imm)
  else if sel = 3 then some (.ldZ64 d a imm)
  else none

/-- R22 to R28: the instructions of OP 0x1A. -/
def dec1A (sel : BitVec 2) (d : Reg) (imm : BitVec 11) (a : Reg) : Option Instr :=
  if sel = 0 then some (.stS8 d a imm)
  else if sel = 1 then some (.stS16 d a imm)
  else if sel = 2 then some (.stS32 d a imm)
  else if sel = 3 then some (.stS64 d a imm)
  else none

/-- R22 to R28: the instructions of OP 0x1B. -/
def dec1B (sel : BitVec 2) (d : Reg) (md : BitVec 11) (f : BitVec 6) (c b a : Reg) : Option Instr :=
  if sel = 0 ∧ hi9 md = 0 ∧ hi3f f = 0 ∧ c = 0 then some (.ldx d a b (lo2 md) (MTy.dec (lo3 f)))
  else if sel = 0 ∧ hi9 md = 0 ∧ hi3f f = 1 ∧ d = 0 ∧ t4 f then some (.stx c a b (lo2 md) (MSize.dec (lo2f f)))
  else none

/-- R22 to R28: the instructions of OP 0x1C. -/
def dec1C (sel : BitVec 2) (d : Reg) (md : BitVec 11) (f : BitVec 6) (c b a : Reg) : Option Instr :=
  if sel = 0 ∧ hi8 md = 0 ∧ hi3f f = 0 ∧ b = 0 ∧ scopeOk (lo3m md) c then some (.ldAcq d a (MTy.dec (lo3 f)) (Scope.dec (lo3m md) c))
  else if sel = 0 ∧ hi8 md = 0 ∧ hi3f f = 1 ∧ d = 0 ∧ t4 f ∧ scopeOk (lo3m md) c then some (.stRel b a (MSize.dec (lo2f f)) (Scope.dec (lo3m md) c))
  else none

/-- R22 to R28: the instructions of OP 0x1D. -/
def dec1D (sel : BitVec 2) (d : Reg) (md : BitVec 11) (f : BitVec 6) (c b a : Reg) : Option Instr :=
  if sel = 0 ∧ c = 0 ∧ b = 0 ∧ f = 0 then some (.ldff d a md)
  else if sel = 0 ∧ c = 0 ∧ b = 0 ∧ f = 1 then some (.ldfe d a md)
  else if sel = 0 ∧ c = 0 ∧ b = 0 ∧ f = 5 then some (.ferd d a md)
  else if sel = 0 ∧ c = 0 ∧ d = 0 ∧ f = 2 then some (.stef b a md)
  else if sel = 0 ∧ c = 0 ∧ d = 0 ∧ f = 3 then some (.stsf b a md)
  else if sel = 0 ∧ c = 0 ∧ d = 0 ∧ f = 4 then some (.stse b a md)
  else none

/-- R22 to R28: the instructions of OP 0x1E. -/
def dec1E (sel : BitVec 2) (d : Reg) (imm : BitVec 11) (a : Reg) : Option Instr :=
  if sel = 0 ∧ d = 0 then some (.pref a imm)
  else if sel = 1 ∧ d = 0 then some (.prefW a imm)
  else if sel = 2 ∧ d = 0 then some (.wb a imm)
  else if sel = 3 ∧ d = 0 then some (.drop a imm)
  else none

/-- R22 to R28: the instructions of OP 0x20. -/
def dec20 (sel : BitVec 2) (d : Reg) (imm : BitVec 11) (a : Reg) : Option Instr :=
  if sel = 0 then some (.vld d a imm)
  else if sel = 1 then some (.vst d a imm)
  else none

/-- R22 to R28: the instructions of OP 0x21. -/
def dec21 (sel : BitVec 2) (d : Reg) (md : BitVec 11) (f : BitVec 6) (c b a : Reg) : Option Instr :=
  if sel = 0 ∧ f = 0 ∧ c = 0 then withTM md (fun t m => .vgath d a b t m)
  else if sel = 0 ∧ f = 1 ∧ c = 0 then withTM md (fun t m => .vscat d a b t m)
  else none

/-- R22 to R28: the instructions of OP 0x22. -/
def dec22 (sel : BitVec 2) (d : Reg) (md : BitVec 11) (f : BitVec 6) (c b a : Reg) : Option Instr :=
  if sel = 0 ∧ f = 0 ∧ c = 0 then withTM md (fun t m => .vadd d a b t m)
  else if sel = 0 ∧ f = 1 ∧ c = 0 then withTM md (fun t m => .vsub d a b t m)
  else if sel = 0 ∧ f = 2 ∧ c = 0 then withTM md (fun t m => .vmul d a b t m)
  else if sel = 0 ∧ f = 3 ∧ c = 0 then withTM md (fun t m => .vmulh d a b t m)
  else if sel = 0 ∧ f = 4 ∧ c = 0 then withTM md (fun t m => .vmin d a b t m)
  else if sel = 0 ∧ f = 5 ∧ c = 0 then withTM md (fun t m => .vmax d a b t m)
  else if sel = 0 ∧ f = 6 ∧ c = 0 then withTM md (fun t m => .vand d a b t m)
  else if sel = 0 ∧ f = 7 ∧ c = 0 then withTM md (fun t m => .vor d a b t m)
  else if sel = 0 ∧ f = 8 ∧ c = 0 then withTM md (fun t m => .vxor d a b t m)
  else if sel = 0 ∧ f = 9 ∧ c = 0 then withTM md (fun t m => .vandn d a b t m)
  else if sel = 0 ∧ f = 10 ∧ c = 0 then withTM md (fun t m => .vsll d a b t m)
  else if sel = 0 ∧ f = 11 ∧ c = 0 then withTM md (fun t m => .vsrl d a b t m)
  else if sel = 0 ∧ f = 12 ∧ c = 0 then withTM md (fun t m => .vsra d a b t m)
  else if sel = 0 ∧ f = 13 ∧ c = 0 ∧ b = 0 then withTM md (fun t m => .vabs d a t m)
  else if sel = 0 ∧ f = 14 ∧ c = 0 ∧ b = 0 then withTM md (fun t m => .vneg d a t m)
  else if sel = 0 ∧ f = 15 ∧ c = 0 then withTM md (fun t m => .vadds d a b t m)
  else if sel = 0 ∧ f = 16 ∧ c = 0 then withTM md (fun t m => .vsubs d a b t m)
  else if sel = 0 ∧ f = 17 ∧ c = 0 then withTM md (fun t m => .vavg d a b t m)
  else if sel = 0 ∧ f = 18 ∧ c = 0 then withTM md (fun t m => .vmac d a b t m)
  else none

/-- R22 to R28: the instructions of OP 0x23. -/
def dec23 (sel : BitVec 2) (d : Reg) (md : BitVec 11) (f : BitVec 6) (c b a : Reg) : Option Instr :=
  if sel = 0 ∧ f = 0 ∧ c = 0 then withTM md (fun t m => .vfadd d a b t m)
  else if sel = 0 ∧ f = 1 ∧ c = 0 then withTM md (fun t m => .vfsub d a b t m)
  else if sel = 0 ∧ f = 2 ∧ c = 0 then withTM md (fun t m => .vfmul d a b t m)
  else if sel = 0 ∧ f = 3 ∧ c = 0 then withTM md (fun t m => .vfdiv d a b t m)
  else if sel = 0 ∧ f = 4 then withTM md (fun t m => .vfma d a b c t m)
  else if sel = 0 ∧ f = 5 then withTM md (fun t m => .vfms d a b c t m)
  else if sel = 0 ∧ f = 6 then withTM md (fun t m => .vfnma d a b c t m)
  else if sel = 0 ∧ f = 7 ∧ c = 0 then withTM md (fun t m => .vfmin d a b t m)
  else if sel = 0 ∧ f = 8 ∧ c = 0 then withTM md (fun t m => .vfmax d a b t m)
  else if sel = 0 ∧ f = 9 ∧ c = 0 ∧ b = 0 then withTM md (fun t m => .vfabs d a t m)
  else if sel = 0 ∧ f = 10 ∧ c = 0 ∧ b = 0 then withTM md (fun t m => .vfneg d a t m)
  else if sel = 0 ∧ f = 11 ∧ c = 0 ∧ b = 0 then withTM md (fun t m => .vfsqrt d a t m)
  else none

/-- R22 to R28: the instructions of OP 0x24. -/
def dec24 (sel : BitVec 2) (d : Reg) (md : BitVec 11) (f : BitVec 6) (c b a : Reg) : Option Instr :=
  if sel = 0 ∧ f = 0 ∧ c = 0 ∧ m3 d then withTM md (fun t m => .vcmpEq (mlo d) a b t m)
  else if sel = 0 ∧ f = 1 ∧ c = 0 ∧ m3 d then withTM md (fun t m => .vcmpNe (mlo d) a b t m)
  else if sel = 0 ∧ f = 2 ∧ c = 0 ∧ m3 d then withTM md (fun t m => .vcmpLt (mlo d) a b t m)
  else if sel = 0 ∧ f = 3 ∧ c = 0 ∧ m3 d then withTM md (fun t m => .vcmpLe (mlo d) a b t m)
  else if sel = 0 ∧ f = 4 ∧ c = 0 ∧ m3 d then withTM md (fun t m => .vcmpGt (mlo d) a b t m)
  else if sel = 0 ∧ f = 5 ∧ c = 0 ∧ m3 d then withTM md (fun t m => .vcmpGe (mlo d) a b t m)
  else if sel = 0 ∧ f = 6 ∧ c = 0 ∧ m3 d then withTM md (fun t m => .vcmpUnord (mlo d) a b t m)
  else none

/-- R22 to R28: the instructions of OP 0x25. -/
def dec25 (sel : BitVec 2) (d : Reg) (md : BitVec 11) (f : BitVec 6) (c b a : Reg) : Option Instr :=
  if sel = 0 ∧ f = 0 ∧ b = 0 then withSTM md c (fun s t m => .vcvt d a s t m)
  else if sel = 0 ∧ f = 1 ∧ b = 0 then withSTM md c (fun s t m => .vcvtSat d a s t m)
  else if sel = 0 ∧ f = 2 ∧ b = 0 then withSTMo md c (fun s t m => if m = none then some (.vmxpack d a s t) else none)
  else if sel = 0 ∧ f = 3 ∧ b = 0 then withSTMo md c (fun s t m => if m = none then some (.vmxunpk d a s t) else none)
  else none

/-- R22 to R28: the instructions of OP 0x26. -/
def dec26 (sel : BitVec 2) (d : Reg) (md : BitVec 11) (f : BitVec 6) (c b a : Reg) : Option Instr :=
  if sel = 0 ∧ f = 0 then withSTM md c (fun s t m => .vcvtsr d a b s t m)
  else if sel = 0 ∧ f = 1 then withSTM md c (fun s t m => .vcvtsrSat d a b s t m)
  else none

/-- R22 to R28: the instructions of OP 0x27. -/
def dec27 (sel : BitVec 2) (d : Reg) (md : BitVec 11) (f : BitVec 6) (c b a : Reg) : Option Instr :=
  if sel = 0 ∧ f = 0 ∧ c = 0 then withTM md (fun t m => .vdot d a b t m)
  else if sel = 0 ∧ f = 1 ∧ c = 0 then withTM md (fun t m => .vdotf d a b t m)
  else if sel = 0 ∧ f = 2 ∧ c = 0 then withTM md (fun t m => .vdotf8 d a b t m)
  else none

/-- R22 to R28: the instructions of OP 0x28. -/
def dec28 (sel : BitVec 2) (d : Reg) (md : BitVec 11) (f : BitVec 6) (c b a : Reg) : Option Instr :=
  if sel = 0 ∧ f = 0 ∧ c = 0 ∧ b = 0 ∧ zbit md = false then withTM md (fun t m => .vrsum d a t (m.map Prod.fst))
  else if sel = 0 ∧ f = 1 ∧ c = 0 ∧ b = 0 ∧ zbit md = false then withTM md (fun t m => .vrmin d a t (m.map Prod.fst))
  else if sel = 0 ∧ f = 2 ∧ c = 0 ∧ b = 0 ∧ zbit md = false then withTM md (fun t m => .vrmax d a t (m.map Prod.fst))
  else if sel = 0 ∧ f = 3 ∧ c = 0 ∧ b = 0 ∧ zbit md = false then withTM md (fun t m => .vrfsum d a t (m.map Prod.fst))
  else if sel = 0 ∧ f = 4 ∧ c = 0 ∧ b = 0 ∧ zbit md = false then withTM md (fun t m => .vrfmin d a t (m.map Prod.fst))
  else if sel = 0 ∧ f = 5 ∧ c = 0 ∧ b = 0 ∧ zbit md = false then withTM md (fun t m => .vrfmax d a t (m.map Prod.fst))
  else none

/-- R22 to R28: the instructions of OP 0x29. -/
def dec29 (sel : BitVec 2) (d : Reg) (md : BitVec 11) (f : BitVec 6) (c b a : Reg) : Option Instr :=
  if sel = 0 ∧ f = 0 ∧ c = 0 then withTM md (fun t m => .vmov d a b t m)
  else if sel = 0 ∧ f = 1 ∧ c = 0 then withTM md (fun t m => .vperm d a b t m)
  else if sel = 0 ∧ f = 2 ∧ c = 0 ∧ b = 0 then withTM md (fun t m => .vbcast d a t m)
  else if sel = 0 ∧ f = 3 ∧ c = 0 then withTMo md (fun t m => if m = none then some (.vins d a b t) else none)
  else if sel = 0 ∧ f = 4 ∧ c = 0 then withTMo md (fun t m => if m = none then some (.vext d a b t) else none)
  else if sel = 0 ∧ f = 5 ∧ c = 0 then withTM md (fun t m => .vslide d a b t m)
  else if sel = 0 ∧ f = 6 ∧ c = 0 then withTM md (fun t m => .vzip d a b t m)
  else if sel = 0 ∧ f = 7 ∧ c = 0 then withTM md (fun t m => .vunzip d a b t m)
  else none

/-- R22 to R28: the instructions of OP 0x2A. -/
def dec2A (sel : BitVec 2) (d : Reg) (md : BitVec 11) (f : BitVec 6) (c b a : Reg) : Option Instr :=
  if sel = 0 ∧ f = 0 ∧ c = 0 ∧ b = 0 then withTM md (fun t m => .vexp2 d a t m)
  else if sel = 0 ∧ f = 1 ∧ c = 0 ∧ b = 0 then withTM md (fun t m => .vlog2 d a t m)
  else if sel = 0 ∧ f = 2 ∧ c = 0 ∧ b = 0 then withTM md (fun t m => .vrcp d a t m)
  else if sel = 0 ∧ f = 3 ∧ c = 0 ∧ b = 0 then withTM md (fun t m => .vrsqrt d a t m)
  else if sel = 0 ∧ f = 4 ∧ c = 0 ∧ b = 0 then withTM md (fun t m => .vsin d a t m)
  else if sel = 0 ∧ f = 5 ∧ c = 0 ∧ b = 0 then withTM md (fun t m => .vcos d a t m)
  else if sel = 0 ∧ f = 6 ∧ c = 0 ∧ b = 0 then withTM md (fun t m => .vtanh d a t m)
  else if sel = 0 ∧ f = 7 ∧ c = 0 ∧ b = 0 then withTM md (fun t m => .vsigm d a t m)
  else none

/-- R22 to R28: the instructions of OP 0x2B. -/
def dec2B (sel : BitVec 2) (d : Reg) (md : BitVec 11) (f : BitVec 6) (c b a : Reg) : Option Instr :=
  if sel = 0 ∧ f = 0 ∧ c = 0 ∧ hi10 md = 0 then some (.vard d a b (bit0 md))
  else if sel = 0 ∧ f = 1 ∧ c = 0 ∧ hi10 md = 0 then some (.vawr d a b (bit0 md))
  else none

/-- R22 to R28: the instructions of OP 0x2C. -/
def dec2C (sel : BitVec 2) (d : Reg) (f : BitVec 6) (b a : Reg) : Option Instr :=
  if sel = 0 ∧ f = 0 ∧ m3 d ∧ m3 a ∧ m3 b then some (.mand (mlo d) (mlo a) (mlo b))
  else if sel = 0 ∧ f = 1 ∧ m3 d ∧ m3 a ∧ m3 b then some (.mor (mlo d) (mlo a) (mlo b))
  else if sel = 0 ∧ f = 2 ∧ m3 d ∧ m3 a ∧ m3 b then some (.mxor (mlo d) (mlo a) (mlo b))
  else if sel = 0 ∧ f = 3 ∧ m3 d ∧ m3 a ∧ b = 0 then some (.mnot (mlo d) (mlo a))
  else if sel = 0 ∧ f = 4 ∧ m3 d ∧ m3 a ∧ m3 b then some (.mandn (mlo d) (mlo a) (mlo b))
  else if sel = 0 ∧ f = 5 ∧ m3 a ∧ b = 0 then some (.mpopc d (mlo a))
  else if sel = 0 ∧ f = 6 ∧ m3 a ∧ b = 0 then some (.mfirst d (mlo a))
  else if sel = 0 ∧ f = 7 ∧ m3 d ∧ b = 0 then some (.mset (mlo d) a)
  else if sel = 0 ∧ f = 8 ∧ m3 a ∧ b = 0 then some (.mget d (mlo a))
  else none

/-- R22 to R28: the instructions of OP 0x2D. -/
def dec2D (sel : BitVec 2) (d : Reg) (f : BitVec 6) (b a : Reg) : Option Instr :=
  if sel = 0 ∧ f = 0 ∧ b = 0 ∧ vhi d then some (.sbind (vlo d) a)
  else if sel = 0 ∧ f = 1 ∧ b = 0 ∧ vhi d then some (.sunbind (vlo d) a)
  else none

/-- R22 to R28: the instructions of OP 0x40. -/
def dec40 (sel : BitVec 2) (d : Reg) (inc : BitVec 4) (ss : BitVec 8) (imm : BitVec 11) (mode : BitVec 2) (ws : BitVec 8) (c b a : Reg) : Option Instr :=
  if b = 0 ∧ waitOk mode ws imm c ∧ signalEncOk inc ss then some (.mma (lsb sel) (msb sel) d a (EWait.dec mode ws imm c) (signalDec inc ss))
  else none

/-- R22 to R28: the instructions of OP 0x41. -/
def dec41 (sel : BitVec 2) (d : Reg) (inc : BitVec 4) (ss : BitVec 8) (imm : BitVec 11) (mode : BitVec 2) (ws : BitVec 8) (c b a : Reg) : Option Instr :=
  if msb sel = false ∧ d = 0 ∧ b = 0 ∧ waitOk mode ws imm c ∧ signalEncOk inc ss then some (.amzero (lsb sel) a (EWait.dec mode ws imm c) (signalDec inc ss))
  else none

/-- R22 to R28: the instructions of OP 0x42. -/
def dec42 (sel : BitVec 2) (d : Reg) (inc : BitVec 4) (ss : BitVec 8) (imm : BitVec 11) (mode : BitVec 2) (ws : BitVec 8) (c b a : Reg) : Option Instr :=
  if msb sel = false ∧ b = 0 ∧ waitOk mode ws imm c ∧ signalEncOk inc ss then some (.amin (lsb sel) d a (EWait.dec mode ws imm c) (signalDec inc ss))
  else none

/-- R22 to R28: the instructions of OP 0x43. -/
def dec43 (sel : BitVec 2) (d : Reg) (inc : BitVec 4) (ss : BitVec 8) (imm : BitVec 11) (mode : BitVec 2) (ws : BitVec 8) (c b a : Reg) : Option Instr :=
  if msb sel = false ∧ b = 0 ∧ waitOk mode ws imm c ∧ signalEncOk inc ss then some (.amout (lsb sel) d a (EWait.dec mode ws imm c) (signalDec inc ss))
  else if msb sel = true ∧ b = 0 ∧ waitOk mode ws imm c ∧ signalEncOk inc ss then some (.amoutClr (lsb sel) d a (EWait.dec mode ws imm c) (signalDec inc ss))
  else none

/-- R22 to R28: the instructions of OP 0x44. -/
def dec44 (sel : BitVec 2) (d : Reg) (inc : BitVec 4) (ss : BitVec 8) (imm : BitVec 11) (mode : BitVec 2) (ws : BitVec 8) (c b a : Reg) : Option Instr :=
  if sel = 0 ∧ waitOk mode ws imm c ∧ signalEncOk inc ss then some (.tcopy d a b (EWait.dec mode ws imm c) (signalDec inc ss))
  else none

/-- R22 to R28: the instructions of OP 0x46. -/
def dec46 (sel : BitVec 2) (d : Reg) (inc : BitVec 4) (ss : BitVec 8) (imm : BitVec 11) (mode : BitVec 2) (ws : BitVec 8) (c b a : Reg) : Option Instr :=
  if sel = 0 ∧ waitOk mode ws imm c ∧ signalEncOk inc ss then some (.tgath d a b (EWait.dec mode ws imm c) (signalDec inc ss))
  else none

/-- R22 to R28: the instructions of OP 0x47. -/
def dec47 (sel : BitVec 2) (d : Reg) (inc : BitVec 4) (ss : BitVec 8) (imm : BitVec 11) (mode : BitVec 2) (ws : BitVec 8) (c b a : Reg) : Option Instr :=
  if sel = 0 ∧ waitOk mode ws imm c ∧ signalEncOk inc ss then some (.tfill d a b (EWait.dec mode ws imm c) (signalDec inc ss))
  else none

/-- R22 to R28: the instructions of OP 0x48. -/
def dec48 (sel : BitVec 2) (d : Reg) (inc : BitVec 4) (ss : BitVec 8) (imm : BitVec 11) (mode : BitVec 2) (ws : BitVec 8) (c b a : Reg) : Option Instr :=
  if sel = 0 ∧ waitOk mode ws imm c ∧ signalEncOk inc ss then some (.cred d a b (EWait.dec mode ws imm c) (signalDec inc ss))
  else none

/-- R22 to R28: the instructions of OP 0x49. -/
def dec49 (sel : BitVec 2) (d : Reg) (inc : BitVec 4) (ss : BitVec 8) (imm : BitVec 11) (mode : BitVec 2) (ws : BitVec 8) (c b a : Reg) : Option Instr :=
  if sel = 0 ∧ waitOk mode ws imm c ∧ signalEncOk inc ss then some (.cmcast d a b (EWait.dec mode ws imm c) (signalDec inc ss))
  else none

/-- R22 to R28: the instructions of OP 0x45. -/
def dec45 (sel : BitVec 2) (d : Reg) (inc : BitVec 4) (ss : BitVec 8) (imm : BitVec 11) (mode : BitVec 2) (ws : BitVec 8) (c b a : Reg) : Option Instr :=
  if msb sel = false ∧ waitOk mode ws imm c ∧ signalEncOk inc ss then some (.tcopyw (lsb sel) d a b (EWait.dec mode ws imm c) (signalDec inc ss))
  else none

/-- R22 to R28: the instructions of OP 0x4A. -/
def dec4A (sel : BitVec 2) (d : Reg) (f : BitVec 6) (b a : Reg) : Option Instr :=
  if sel = 0 ∧ f = 0 then some (.estat d a b)
  else none

/-- R22 to R28: the instructions of OP 0x4B. -/
def dec4B (sel : BitVec 2) (d : Reg) (f : BitVec 6) (b a : Reg) : Option Instr :=
  if sel = 0 ∧ d = 0 ∧ f = 0 then some (.ecancel a b)
  else none

/-- R22 to R28: the instructions of OP 0x4C. -/
def dec4C (sel : BitVec 2) (d : Reg) (imm : BitVec 11) (a : Reg) : Option Instr :=
  if sel = 0 ∧ d = 0 ∧ a = 0 ∧ hi8 imm = 0 then some (.eresume (lo3m imm))
  else none

/-- R22 to R28: the instructions of OP 0x50. -/
def dec50 (sel : BitVec 2) (d : Reg) (f : BitVec 6) (b a : Reg) : Option Instr :=
  if sel = 0 ∧ f = 0 then some (.spawn d a b)
  else if sel = 0 ∧ f = 1 then some (.spawna d a b)
  else if sel = 0 ∧ f = 2 then some (.send d a b)
  else none

/-- R22 to R28: the instructions of OP 0x51. -/
def dec51 (sel : BitVec 2) (d : Reg) (imm : BitVec 11) (a : Reg) : Option Instr :=
  if sel = 0 ∧ imm = 0 then some (.recv d a)
  else if sel = 0 ∧ imm = 1 then some (.recvTry d a)
  else none

/-- R22 to R28: the instructions of OP 0x52. -/
def dec52 (sel : BitVec 2) (d : Reg) (f : BitVec 6) (b a : Reg) : Option Instr :=
  if sel = 0 ∧ f = 0 then some (.lqpush d a b)
  else none

/-- R22 to R28: the instructions of OP 0x53. -/
def dec53 (sel : BitVec 2) (d : Reg) (f : BitVec 6) (b a : Reg) : Option Instr :=
  if sel = 0 ∧ f = 0 then some (.jdec d a b)
  else none

/-- R22 to R28: the instructions of OP 0x54. -/
def dec54 (sel : BitVec 2) (d : Reg) : Option Instr :=
  if sel = 0 ∧ d = 0 then some (.tend)
  else if sel = 0 ∧ d = 1 then some (.yield)
  else none

/-- R22 to R28: the instructions of OP 0x55. -/
def dec55 (sel : BitVec 2) (d : Reg) (f : BitVec 6) (b a : Reg) : Option Instr :=
  if msb sel = false ∧ f = 0 then some (.semadd (lsb sel) d a b)
  else if msb sel = false ∧ f = 1 then some (.semwait (lsb sel) d a b)
  else if msb sel = false ∧ f = 2 then some (.semtry (lsb sel) d a b)
  else if msb sel = false ∧ f = 3 then some (.semrd (lsb sel) d a b)
  else none

/-- R22 to R28: the instructions of OP 0x56. -/
def dec56 (sel : BitVec 2) (d : Reg) (imm : BitVec 11) (a : Reg) : Option Instr :=
  if sel = 0 ∧ a = 0 ∧ hi7 imm = 0 then some (.arrive d (lo4 imm))
  else if sel = 1 ∧ a = 0 ∧ hi7 imm = 0 then some (.waitb d (lo4 imm))
  else if sel = 2 ∧ hi7 imm = 0 then some (.bmiss d a (lo4 imm))
  else if sel = 3 ∧ hi7 imm = 0 then some (.bmemb d a (lo4 imm))
  else none

/-- R22 to R28: the instructions of OP 0x57. -/
def dec57 (sel : BitVec 2) (d : Reg) (md : BitVec 11) (f : BitVec 6) (c b a : Reg) : Option Instr :=
  if sel = 0 ∧ f = 0 ∧ hi5 md = 0 ∧ scopeOk (sc3 md) c then some (.amoAdd d a b (bit0 md) (bit1 md) (bit2 md) (Scope.dec (sc3 md) c))
  else if sel = 0 ∧ f = 1 ∧ hi5 md = 0 ∧ scopeOk (sc3 md) c then some (.amoAnd d a b (bit0 md) (bit1 md) (bit2 md) (Scope.dec (sc3 md) c))
  else if sel = 0 ∧ f = 2 ∧ hi5 md = 0 ∧ scopeOk (sc3 md) c then some (.amoOr d a b (bit0 md) (bit1 md) (bit2 md) (Scope.dec (sc3 md) c))
  else if sel = 0 ∧ f = 3 ∧ hi5 md = 0 ∧ scopeOk (sc3 md) c then some (.amoXor d a b (bit0 md) (bit1 md) (bit2 md) (Scope.dec (sc3 md) c))
  else if sel = 0 ∧ f = 4 ∧ hi5 md = 0 ∧ scopeOk (sc3 md) c then some (.amoMin d a b (bit0 md) (bit1 md) (bit2 md) (Scope.dec (sc3 md) c))
  else if sel = 0 ∧ f = 5 ∧ hi5 md = 0 ∧ scopeOk (sc3 md) c then some (.amoMax d a b (bit0 md) (bit1 md) (bit2 md) (Scope.dec (sc3 md) c))
  else if sel = 0 ∧ f = 6 ∧ hi5 md = 0 ∧ scopeOk (sc3 md) c then some (.amoMinZ d a b (bit0 md) (bit1 md) (bit2 md) (Scope.dec (sc3 md) c))
  else if sel = 0 ∧ f = 7 ∧ hi5 md = 0 ∧ scopeOk (sc3 md) c then some (.amoMaxZ d a b (bit0 md) (bit1 md) (bit2 md) (Scope.dec (sc3 md) c))
  else if sel = 0 ∧ f = 8 ∧ hi5 md = 0 ∧ scopeOk (sc3 md) c then some (.amoSwap d a b (bit0 md) (bit1 md) (bit2 md) (Scope.dec (sc3 md) c))
  else none

/-- R22 to R28: the instructions of OP 0x58. -/
def dec58 (sel : BitVec 2) (d : Reg) (md : BitVec 11) (f : BitVec 6) (c b a : Reg) : Option Instr :=
  if sel = 0 ∧ f = 0 ∧ hi5 md = 0 ∧ scopeOk (sc3 md) c then some (.cas d a b (bit0 md) (bit1 md) (bit2 md) (Scope.dec (sc3 md) c))
  else if sel = 0 ∧ f = 1 ∧ hi5 md = 0 ∧ bit0 md = true ∧ scopeOk (sc3 md) c then some (.cas16 d a b (bit1 md) (bit2 md) (Scope.dec (sc3 md) c))
  else none

/-- R22 to R28: the instructions of OP 0x59. -/
def dec59 (sel : BitVec 2) (d : Reg) (md : BitVec 11) (f : BitVec 6) (c b a : Reg) : Option Instr :=
  if sel = 0 ∧ d = 0 ∧ f = 0 ∧ hi5 md = 0 ∧ bit1 md = false ∧ scopeOk (sc3 md) c then some (.redAdd a b (bit0 md) (bit2 md) (Scope.dec (sc3 md) c))
  else if sel = 0 ∧ d = 0 ∧ f = 1 ∧ hi5 md = 0 ∧ bit1 md = false ∧ scopeOk (sc3 md) c then some (.redAnd a b (bit0 md) (bit2 md) (Scope.dec (sc3 md) c))
  else if sel = 0 ∧ d = 0 ∧ f = 2 ∧ hi5 md = 0 ∧ bit1 md = false ∧ scopeOk (sc3 md) c then some (.redOr a b (bit0 md) (bit2 md) (Scope.dec (sc3 md) c))
  else if sel = 0 ∧ d = 0 ∧ f = 3 ∧ hi5 md = 0 ∧ bit1 md = false ∧ scopeOk (sc3 md) c then some (.redXor a b (bit0 md) (bit2 md) (Scope.dec (sc3 md) c))
  else if sel = 0 ∧ d = 0 ∧ f = 4 ∧ hi5 md = 0 ∧ bit1 md = false ∧ scopeOk (sc3 md) c then some (.redMin a b (bit0 md) (bit2 md) (Scope.dec (sc3 md) c))
  else if sel = 0 ∧ d = 0 ∧ f = 5 ∧ hi5 md = 0 ∧ bit1 md = false ∧ scopeOk (sc3 md) c then some (.redMax a b (bit0 md) (bit2 md) (Scope.dec (sc3 md) c))
  else if sel = 0 ∧ d = 0 ∧ f = 6 ∧ hi5 md = 0 ∧ bit1 md = false ∧ scopeOk (sc3 md) c then some (.redMinZ a b (bit0 md) (bit2 md) (Scope.dec (sc3 md) c))
  else if sel = 0 ∧ d = 0 ∧ f = 7 ∧ hi5 md = 0 ∧ bit1 md = false ∧ scopeOk (sc3 md) c then some (.redMaxZ a b (bit0 md) (bit2 md) (Scope.dec (sc3 md) c))
  else none

/-- R22 to R28: the instructions of OP 0x5A. -/
def dec5A (sel : BitVec 2) (d : Reg) (imm : BitVec 11) (a : Reg) : Option Instr :=
  if sel = 0 ∧ d = 0 ∧ hi5 imm = 0 ∧ scopeOk (lo3m imm) a then some (.fence (Scope.dec (lo3m imm) a) (bit3 imm) (bit4 imm) (bit5 imm))
  else none

/-- R22 to R28: the instructions of OP 0x60. -/
def dec60 (sel : BitVec 2) (d : Reg) (imm : BitVec 11) (a : Reg) : Option Instr :=
  if sel = 0 ∧ d = 0 ∧ a = 0 then some (.trap imm)
  else none

/-- R22 to R28: the instructions of OP 0x61. -/
def dec61 (sel : BitVec 2) (d : Reg) : Option Instr :=
  if sel = 0 ∧ d = 0 then some (.kret)
  else if sel = 0 ∧ d = 1 then some (.fret)
  else if sel = 0 ∧ d = 2 then some (.wfi)
  else none

/-- R22 to R28: the instructions of OP 0x62. -/
def dec62 (sel : BitVec 2) (d : Reg) (imm : BitVec 27) (a : Reg) : Option Instr :=
  if sel = 0 ∧ a = 0 ∧ hi15 imm = 0 then some (.crrd d (lo12 imm))
  else if sel = 1 ∧ d = 0 ∧ hi15 imm = 0 then some (.crwr a (lo12 imm))
  else none

/-- R22 to R28: the instructions of OP 0x63. -/
def dec63 (sel : BitVec 2) (d : Reg) (f : BitVec 6) (b a : Reg) : Option Instr :=
  if sel = 0 ∧ d = 0 ∧ f = 0 then some (.tlbinv a b)
  else none

/-- R22 to R28: the instructions of OP 0x64. -/
def dec64 (sel : BitVec 2) (d : Reg) (f : BitVec 6) (b a : Reg) : Option Instr :=
  if sel = 0 ∧ d = 0 ∧ f = 0 then some (.icinv a b)
  else none

/-- R22 to R28: the instructions of OP 0x66. -/
def dec66 (sel : BitVec 2) (d : Reg) (f : BitVec 6) (b a : Reg) : Option Instr :=
  if sel = 0 ∧ d = 0 ∧ f = 0 then some (.prset a b)
  else none

/-- R22 to R28: the instructions of OP 0x67. -/
def dec67 (sel : BitVec 2) (d : Reg) (f : BitVec 6) (b a : Reg) : Option Instr :=
  if sel = 0 ∧ d = 0 ∧ f = 0 then some (.ptload a b)
  else none

/-- R22 to R28: the instructions of OP 0x68. -/
def dec68 (sel : BitVec 2) (d : Reg) (f : BitVec 6) (b a : Reg) : Option Instr :=
  if sel = 0 ∧ d = 0 ∧ f = 0 then some (.pdrain a b)
  else none

/-- R22 to R28: the instructions of OP 0x65. -/
def dec65 (sel : BitVec 2) (d : Reg) (f : BitVec 6) (b a : Reg) : Option Instr :=
  if sel = 0 ∧ d = 0 ∧ f = 0 ∧ b = 0 then some (.ctxsw a)
  else if sel = 0 ∧ d = 0 ∧ f = 1 ∧ b = 0 then some (.ctxflush a)
  else none

/-- The instruction of an OP and its fields; `none` is an illegal encoding (step 4 of R29). -/
def decodeFields (op : Nat) (sel : BitVec 2) (d : Reg) (t : Tail) : Option Instr :=
  match op, t with
  | 0x01, .none => dec01 sel d
  | 0x02, .br dl ix b a => dec02 sel d dl ix b a
  | 0x03, .br dl ix b a => dec03 sel d dl ix b a
  | 0x04, .i imm a => dec04 sel d imm a
  | 0x05, .br dl ix b a => dec05 sel d dl ix b a
  | 0x06, .br dl ix b a => dec06 sel d dl ix b a
  | 0x08, .i48 imm f a => dec08 sel d imm f a
  | 0x09, .i imm a => dec09 sel d imm a
  | 0x0a, .i imm a => dec0A sel d imm a
  | 0x0b, .i27 imm a => dec0B sel d imm a
  | 0x0c, .i27 imm a => dec0C sel d imm a
  | 0x0d, .i imm a => dec0D sel d imm a
  | 0x10, .r f b a => dec10 sel d f b a
  | 0x11, .r f b a => dec11 sel d f b a
  | 0x12, .x md f c b a => dec12 sel d md f c b a
  | 0x13, .r f b a => dec13 sel d f b a
  | 0x14, .x md f c b a => dec14 sel d md f c b a
  | 0x18, .i imm a => dec18 sel d imm a
  | 0x19, .i imm a => dec19 sel d imm a
  | 0x1a, .i imm a => dec1A sel d imm a
  | 0x1b, .x md f c b a => dec1B sel d md f c b a
  | 0x1c, .x md f c b a => dec1C sel d md f c b a
  | 0x1d, .x md f c b a => dec1D sel d md f c b a
  | 0x1e, .i imm a => dec1E sel d imm a
  | 0x20, .i imm a => dec20 sel d imm a
  | 0x21, .x md f c b a => dec21 sel d md f c b a
  | 0x22, .x md f c b a => dec22 sel d md f c b a
  | 0x23, .x md f c b a => dec23 sel d md f c b a
  | 0x24, .x md f c b a => dec24 sel d md f c b a
  | 0x25, .x md f c b a => dec25 sel d md f c b a
  | 0x26, .x md f c b a => dec26 sel d md f c b a
  | 0x27, .x md f c b a => dec27 sel d md f c b a
  | 0x28, .x md f c b a => dec28 sel d md f c b a
  | 0x29, .x md f c b a => dec29 sel d md f c b a
  | 0x2a, .x md f c b a => dec2A sel d md f c b a
  | 0x2b, .x md f c b a => dec2B sel d md f c b a
  | 0x2c, .r f b a => dec2C sel d f b a
  | 0x2d, .r f b a => dec2D sel d f b a
  | 0x40, .e inc ss imm mode ws c b a => dec40 sel d inc ss imm mode ws c b a
  | 0x41, .e inc ss imm mode ws c b a => dec41 sel d inc ss imm mode ws c b a
  | 0x42, .e inc ss imm mode ws c b a => dec42 sel d inc ss imm mode ws c b a
  | 0x43, .e inc ss imm mode ws c b a => dec43 sel d inc ss imm mode ws c b a
  | 0x44, .e inc ss imm mode ws c b a => dec44 sel d inc ss imm mode ws c b a
  | 0x46, .e inc ss imm mode ws c b a => dec46 sel d inc ss imm mode ws c b a
  | 0x47, .e inc ss imm mode ws c b a => dec47 sel d inc ss imm mode ws c b a
  | 0x48, .e inc ss imm mode ws c b a => dec48 sel d inc ss imm mode ws c b a
  | 0x49, .e inc ss imm mode ws c b a => dec49 sel d inc ss imm mode ws c b a
  | 0x45, .e inc ss imm mode ws c b a => dec45 sel d inc ss imm mode ws c b a
  | 0x4a, .r f b a => dec4A sel d f b a
  | 0x4b, .r f b a => dec4B sel d f b a
  | 0x4c, .i imm a => dec4C sel d imm a
  | 0x50, .r f b a => dec50 sel d f b a
  | 0x51, .i imm a => dec51 sel d imm a
  | 0x52, .r f b a => dec52 sel d f b a
  | 0x53, .r f b a => dec53 sel d f b a
  | 0x54, .none => dec54 sel d
  | 0x55, .r f b a => dec55 sel d f b a
  | 0x56, .i imm a => dec56 sel d imm a
  | 0x57, .x md f c b a => dec57 sel d md f c b a
  | 0x58, .x md f c b a => dec58 sel d md f c b a
  | 0x59, .x md f c b a => dec59 sel d md f c b a
  | 0x5a, .i imm a => dec5A sel d imm a
  | 0x60, .i imm a => dec60 sel d imm a
  | 0x61, .none => dec61 sel d
  | 0x62, .i27 imm a => dec62 sel d imm a
  | 0x63, .r f b a => dec63 sel d f b a
  | 0x64, .r f b a => dec64 sel d f b a
  | 0x66, .r f b a => dec66 sel d f b a
  | 0x67, .r f b a => dec67 sel d f b a
  | 0x68, .r f b a => dec68 sel d f b a
  | 0x65, .r f b a => dec65 sel d f b a
  | _, _ => none

/-- The OP, the head fields and the tail fields of an instruction, from the same tables (R22 to R28);
`none` for the events, which have no encoding. -/
def encodeFields : Instr → Option (HeadF × Tail)
  | .nop => some (⟨0x01, 0, 0⟩, .none)
  | .beq a b t => some (⟨0x02, 0, 0⟩, .br t.delta t.idx b a)
  | .bne a b t => some (⟨0x02, 0, 1⟩, .br t.delta t.idx b a)
  | .blt a b t => some (⟨0x02, 0, 2⟩, .br t.delta t.idx b a)
  | .bge a b t => some (⟨0x02, 0, 3⟩, .br t.delta t.idx b a)
  | .bltZ a b t => some (⟨0x02, 0, 4⟩, .br t.delta t.idx b a)
  | .bgeZ a b t => some (⟨0x02, 0, 5⟩, .br t.delta t.idx b a)
  | .br t => some (⟨0x02, 0, 6⟩, .br t.delta t.idx 0 0)
  | .jal d t => some (⟨0x03, 0, d⟩, .br t.delta t.idx 0 0)
  | .jalr d a imm => some (⟨0x04, 0, d⟩, .i imm a)
  | .loop a t => some (⟨0x05, 0, 0⟩, .br t.delta t.idx 0 a)
  | .bsdone v t => some (⟨0x06, 0, 0⟩, .br t.delta t.idx 0 (vreg v))
  | .bsmore v t => some (⟨0x06, 0, 1⟩, .br t.delta t.idx 0 (vreg v))
  | .li d imm => some (⟨0x08, 0, d⟩, .i48 imm 0 0)
  | .liZ d imm => some (⟨0x08, 0, d⟩, .i48 imm 1 0)
  | .lihi d imm => some (⟨0x08, 0, d⟩, .i48 imm 2 0)
  | .addi d a imm => some (⟨0x09, 0, d⟩, .i imm a)
  | .andi d a imm => some (⟨0x09, 1, d⟩, .i imm a)
  | .ori d a imm => some (⟨0x09, 2, d⟩, .i imm a)
  | .xori d a imm => some (⟨0x09, 3, d⟩, .i imm a)
  | .slli d a sh => some (⟨0x0a, 0, d⟩, .i (mk56 0 sh) a)
  | .srli d a sh => some (⟨0x0a, 1, d⟩, .i (mk56 0 sh) a)
  | .srai d a sh => some (⟨0x0a, 2, d⟩, .i (mk56 0 sh) a)
  | .rori d a sh => some (⟨0x0a, 3, d⟩, .i (mk56 0 sh) a)
  | .addil d a imm => some (⟨0x0b, 0, d⟩, .i27 imm a)
  | .adr d imm => some (⟨0x0c, 0, d⟩, .i27 imm 0)
  | .slti d a imm => some (⟨0x0d, 0, d⟩, .i imm a)
  | .sltiZ d a imm => some (⟨0x0d, 1, d⟩, .i imm a)
  | .seqi d a imm => some (⟨0x0d, 2, d⟩, .i imm a)
  | .add d a b => some (⟨0x10, 0, d⟩, .r 0 b a)
  | .sub d a b => some (⟨0x10, 0, d⟩, .r 1 b a)
  | .and d a b => some (⟨0x10, 0, d⟩, .r 2 b a)
  | .or d a b => some (⟨0x10, 0, d⟩, .r 3 b a)
  | .xor d a b => some (⟨0x10, 0, d⟩, .r 4 b a)
  | .andn d a b => some (⟨0x10, 0, d⟩, .r 5 b a)
  | .orn d a b => some (⟨0x10, 0, d⟩, .r 6 b a)
  | .xnor d a b => some (⟨0x10, 0, d⟩, .r 7 b a)
  | .sll d a b => some (⟨0x10, 0, d⟩, .r 8 b a)
  | .srl d a b => some (⟨0x10, 0, d⟩, .r 9 b a)
  | .sra d a b => some (⟨0x10, 0, d⟩, .r 10 b a)
  | .rol d a b => some (⟨0x10, 0, d⟩, .r 11 b a)
  | .ror d a b => some (⟨0x10, 0, d⟩, .r 12 b a)
  | .slt d a b => some (⟨0x10, 0, d⟩, .r 13 b a)
  | .sltZ d a b => some (⟨0x10, 0, d⟩, .r 14 b a)
  | .seq d a b => some (⟨0x10, 0, d⟩, .r 15 b a)
  | .mul d a b => some (⟨0x11, 0, d⟩, .r 0 b a)
  | .mulh d a b => some (⟨0x11, 0, d⟩, .r 1 b a)
  | .mulhZ d a b => some (⟨0x11, 0, d⟩, .r 2 b a)
  | .div d a b => some (⟨0x11, 0, d⟩, .r 3 b a)
  | .divZ d a b => some (⟨0x11, 0, d⟩, .r 4 b a)
  | .rem d a b => some (⟨0x11, 0, d⟩, .r 5 b a)
  | .remZ d a b => some (⟨0x11, 0, d⟩, .r 6 b a)
  | .ext d a p w => some (⟨0x12, 0, d⟩, .x (mk416 0 (hi1 w) p) 0 (lo5 w) 0 a)
  | .extZ d a p w => some (⟨0x12, 0, d⟩, .x (mk416 0 (hi1 w) p) 1 (lo5 w) 0 a)
  | .ins d a b p w => some (⟨0x12, 0, d⟩, .x (mk416 0 (hi1 w) p) 2 (lo5 w) b a)
  | .clz d a => some (⟨0x13, 0, d⟩, .r 0 0 a)
  | .ctz d a => some (⟨0x13, 0, d⟩, .r 1 0 a)
  | .popc d a => some (⟨0x13, 0, d⟩, .r 2 0 a)
  | .brev d a => some (⟨0x13, 0, d⟩, .r 3 0 a)
  | .bswap d a => some (⟨0x13, 0, d⟩, .r 4 0 a)
  | .sext8 d a => some (⟨0x13, 0, d⟩, .r 5 0 a)
  | .sext16 d a => some (⟨0x13, 0, d⟩, .r 6 0 a)
  | .sext32 d a => some (⟨0x13, 0, d⟩, .r 7 0 a)
  | .zext8 d a => some (⟨0x13, 0, d⟩, .r 8 0 a)
  | .zext16 d a => some (⟨0x13, 0, d⟩, .r 9 0 a)
  | .zext32 d a => some (⟨0x13, 0, d⟩, .r 10 0 a)
  | .selNz d a b c => some (⟨0x14, 0, d⟩, .x 0 0 c b a)
  | .selZ d a b c => some (⟨0x14, 0, d⟩, .x 0 1 c b a)
  | .min d a b => some (⟨0x14, 0, d⟩, .x 0 2 0 b a)
  | .max d a b => some (⟨0x14, 0, d⟩, .x 0 3 0 b a)
  | .minZ d a b => some (⟨0x14, 0, d⟩, .x 0 4 0 b a)
  | .maxZ d a b => some (⟨0x14, 0, d⟩, .x 0 5 0 b a)
  | .ldS8 d a imm => some (⟨0x18, 0, d⟩, .i imm a)
  | .ldS16 d a imm => some (⟨0x18, 1, d⟩, .i imm a)
  | .ldS32 d a imm => some (⟨0x18, 2, d⟩, .i imm a)
  | .ldS64 d a imm => some (⟨0x18, 3, d⟩, .i imm a)
  | .ldZ8 d a imm => some (⟨0x19, 0, d⟩, .i imm a)
  | .ldZ16 d a imm => some (⟨0x19, 1, d⟩, .i imm a)
  | .ldZ32 d a imm => some (⟨0x19, 2, d⟩, .i imm a)
  | .ldZ64 d a imm => some (⟨0x19, 3, d⟩, .i imm a)
  | .stS8 d a imm => some (⟨0x1a, 0, d⟩, .i imm a)
  | .stS16 d a imm => some (⟨0x1a, 1, d⟩, .i imm a)
  | .stS32 d a imm => some (⟨0x1a, 2, d⟩, .i imm a)
  | .stS64 d a imm => some (⟨0x1a, 3, d⟩, .i imm a)
  | .ldx d a b k t => some (⟨0x1b, 0, d⟩, .x (mk92 0 k) (mk33 0 t.enc) 0 b a)
  | .stx c a b k t => some (⟨0x1b, 0, 0⟩, .x (mk92 0 k) (mk33 1 t.enc) c b a)
  | .ldAcq d a t sc => some (⟨0x1c, 0, d⟩, .x (mk83 0 sc.enc) (mk33 0 t.enc) sc.reg 0 a)
  | .stRel b a t sc => some (⟨0x1c, 0, 0⟩, .x (mk83 0 sc.enc) (mk33 1 t.enc) sc.reg b a)
  | .ldff d a disp => some (⟨0x1d, 0, d⟩, .x disp 0 0 0 a)
  | .ldfe d a disp => some (⟨0x1d, 0, d⟩, .x disp 1 0 0 a)
  | .ferd d a disp => some (⟨0x1d, 0, d⟩, .x disp 5 0 0 a)
  | .stef b a disp => some (⟨0x1d, 0, 0⟩, .x disp 2 0 b a)
  | .stsf b a disp => some (⟨0x1d, 0, 0⟩, .x disp 3 0 b a)
  | .stse b a disp => some (⟨0x1d, 0, 0⟩, .x disp 4 0 b a)
  | .pref a imm => some (⟨0x1e, 0, 0⟩, .i imm a)
  | .prefW a imm => some (⟨0x1e, 1, 0⟩, .i imm a)
  | .wb a imm => some (⟨0x1e, 2, 0⟩, .i imm a)
  | .drop a imm => some (⟨0x1e, 3, 0⟩, .i imm a)
  | .vld d a imm => some (⟨0x20, 0, d⟩, .i imm a)
  | .vst d a imm => some (⟨0x20, 1, d⟩, .i imm a)
  | .vgath d a b t m => some (⟨0x21, 0, d⟩, .x (modTM t m) 0 0 b a)
  | .vscat d a b t m => some (⟨0x21, 0, d⟩, .x (modTM t m) 1 0 b a)
  | .vadd d a b t m => some (⟨0x22, 0, d⟩, .x (modTM t m) 0 0 b a)
  | .vsub d a b t m => some (⟨0x22, 0, d⟩, .x (modTM t m) 1 0 b a)
  | .vmul d a b t m => some (⟨0x22, 0, d⟩, .x (modTM t m) 2 0 b a)
  | .vmulh d a b t m => some (⟨0x22, 0, d⟩, .x (modTM t m) 3 0 b a)
  | .vmin d a b t m => some (⟨0x22, 0, d⟩, .x (modTM t m) 4 0 b a)
  | .vmax d a b t m => some (⟨0x22, 0, d⟩, .x (modTM t m) 5 0 b a)
  | .vand d a b t m => some (⟨0x22, 0, d⟩, .x (modTM t m) 6 0 b a)
  | .vor d a b t m => some (⟨0x22, 0, d⟩, .x (modTM t m) 7 0 b a)
  | .vxor d a b t m => some (⟨0x22, 0, d⟩, .x (modTM t m) 8 0 b a)
  | .vandn d a b t m => some (⟨0x22, 0, d⟩, .x (modTM t m) 9 0 b a)
  | .vsll d a b t m => some (⟨0x22, 0, d⟩, .x (modTM t m) 10 0 b a)
  | .vsrl d a b t m => some (⟨0x22, 0, d⟩, .x (modTM t m) 11 0 b a)
  | .vsra d a b t m => some (⟨0x22, 0, d⟩, .x (modTM t m) 12 0 b a)
  | .vabs d a t m => some (⟨0x22, 0, d⟩, .x (modTM t m) 13 0 0 a)
  | .vneg d a t m => some (⟨0x22, 0, d⟩, .x (modTM t m) 14 0 0 a)
  | .vadds d a b t m => some (⟨0x22, 0, d⟩, .x (modTM t m) 15 0 b a)
  | .vsubs d a b t m => some (⟨0x22, 0, d⟩, .x (modTM t m) 16 0 b a)
  | .vavg d a b t m => some (⟨0x22, 0, d⟩, .x (modTM t m) 17 0 b a)
  | .vmac d a b t m => some (⟨0x22, 0, d⟩, .x (modTM t m) 18 0 b a)
  | .vfadd d a b t m => some (⟨0x23, 0, d⟩, .x (modTM t m) 0 0 b a)
  | .vfsub d a b t m => some (⟨0x23, 0, d⟩, .x (modTM t m) 1 0 b a)
  | .vfmul d a b t m => some (⟨0x23, 0, d⟩, .x (modTM t m) 2 0 b a)
  | .vfdiv d a b t m => some (⟨0x23, 0, d⟩, .x (modTM t m) 3 0 b a)
  | .vfma d a b c t m => some (⟨0x23, 0, d⟩, .x (modTM t m) 4 c b a)
  | .vfms d a b c t m => some (⟨0x23, 0, d⟩, .x (modTM t m) 5 c b a)
  | .vfnma d a b c t m => some (⟨0x23, 0, d⟩, .x (modTM t m) 6 c b a)
  | .vfmin d a b t m => some (⟨0x23, 0, d⟩, .x (modTM t m) 7 0 b a)
  | .vfmax d a b t m => some (⟨0x23, 0, d⟩, .x (modTM t m) 8 0 b a)
  | .vfabs d a t m => some (⟨0x23, 0, d⟩, .x (modTM t m) 9 0 0 a)
  | .vfneg d a t m => some (⟨0x23, 0, d⟩, .x (modTM t m) 10 0 0 a)
  | .vfsqrt d a t m => some (⟨0x23, 0, d⟩, .x (modTM t m) 11 0 0 a)
  | .vcmpEq d a b t m => some (⟨0x24, 0, (mreg d)⟩, .x (modTM t m) 0 0 b a)
  | .vcmpNe d a b t m => some (⟨0x24, 0, (mreg d)⟩, .x (modTM t m) 1 0 b a)
  | .vcmpLt d a b t m => some (⟨0x24, 0, (mreg d)⟩, .x (modTM t m) 2 0 b a)
  | .vcmpLe d a b t m => some (⟨0x24, 0, (mreg d)⟩, .x (modTM t m) 3 0 b a)
  | .vcmpGt d a b t m => some (⟨0x24, 0, (mreg d)⟩, .x (modTM t m) 4 0 b a)
  | .vcmpGe d a b t m => some (⟨0x24, 0, (mreg d)⟩, .x (modTM t m) 5 0 b a)
  | .vcmpUnord d a b t m => some (⟨0x24, 0, (mreg d)⟩, .x (modTM t m) 6 0 b a)
  | .vcvt d a s t m => some (⟨0x25, 0, d⟩, .x (modTM t m) 0 s.reg 0 a)
  | .vcvtSat d a s t m => some (⟨0x25, 0, d⟩, .x (modTM t m) 1 s.reg 0 a)
  | .vmxpack d a s t => some (⟨0x25, 0, d⟩, .x (modTM t none) 2 s.reg 0 a)
  | .vmxunpk d a s t => some (⟨0x25, 0, d⟩, .x (modTM t none) 3 s.reg 0 a)
  | .vcvtsr d a b s t m => some (⟨0x26, 0, d⟩, .x (modTM t m) 0 s.reg b a)
  | .vcvtsrSat d a b s t m => some (⟨0x26, 0, d⟩, .x (modTM t m) 1 s.reg b a)
  | .vdot d a b t m => some (⟨0x27, 0, d⟩, .x (modTM t m) 0 0 b a)
  | .vdotf d a b t m => some (⟨0x27, 0, d⟩, .x (modTM t m) 1 0 b a)
  | .vdotf8 d a b t m => some (⟨0x27, 0, d⟩, .x (modTM t m) 2 0 b a)
  | .vrsum d a t m => some (⟨0x28, 0, d⟩, .x (modTM t (m.map (fun r => (r, false)))) 0 0 0 a)
  | .vrmin d a t m => some (⟨0x28, 0, d⟩, .x (modTM t (m.map (fun r => (r, false)))) 1 0 0 a)
  | .vrmax d a t m => some (⟨0x28, 0, d⟩, .x (modTM t (m.map (fun r => (r, false)))) 2 0 0 a)
  | .vrfsum d a t m => some (⟨0x28, 0, d⟩, .x (modTM t (m.map (fun r => (r, false)))) 3 0 0 a)
  | .vrfmin d a t m => some (⟨0x28, 0, d⟩, .x (modTM t (m.map (fun r => (r, false)))) 4 0 0 a)
  | .vrfmax d a t m => some (⟨0x28, 0, d⟩, .x (modTM t (m.map (fun r => (r, false)))) 5 0 0 a)
  | .vmov d a b t m => some (⟨0x29, 0, d⟩, .x (modTM t m) 0 0 b a)
  | .vperm d a b t m => some (⟨0x29, 0, d⟩, .x (modTM t m) 1 0 b a)
  | .vbcast d a t m => some (⟨0x29, 0, d⟩, .x (modTM t m) 2 0 0 a)
  | .vins d a b t => some (⟨0x29, 0, d⟩, .x (modTM t none) 3 0 b a)
  | .vext d a b t => some (⟨0x29, 0, d⟩, .x (modTM t none) 4 0 b a)
  | .vslide d a b t m => some (⟨0x29, 0, d⟩, .x (modTM t m) 5 0 b a)
  | .vzip d a b t m => some (⟨0x29, 0, d⟩, .x (modTM t m) 6 0 b a)
  | .vunzip d a b t m => some (⟨0x29, 0, d⟩, .x (modTM t m) 7 0 b a)
  | .vexp2 d a t m => some (⟨0x2a, 0, d⟩, .x (modTM t m) 0 0 0 a)
  | .vlog2 d a t m => some (⟨0x2a, 0, d⟩, .x (modTM t m) 1 0 0 a)
  | .vrcp d a t m => some (⟨0x2a, 0, d⟩, .x (modTM t m) 2 0 0 a)
  | .vrsqrt d a t m => some (⟨0x2a, 0, d⟩, .x (modTM t m) 3 0 0 a)
  | .vsin d a t m => some (⟨0x2a, 0, d⟩, .x (modTM t m) 4 0 0 a)
  | .vcos d a t m => some (⟨0x2a, 0, d⟩, .x (modTM t m) 5 0 0 a)
  | .vtanh d a t m => some (⟨0x2a, 0, d⟩, .x (modTM t m) 6 0 0 a)
  | .vsigm d a t m => some (⟨0x2a, 0, d⟩, .x (modTM t m) 7 0 0 a)
  | .vard d a b acc => some (⟨0x2b, 0, d⟩, .x (mk101 acc) 0 0 b a)
  | .vawr d a b acc => some (⟨0x2b, 0, d⟩, .x (mk101 acc) 1 0 b a)
  | .mand d a b => some (⟨0x2c, 0, (mreg d)⟩, .r 0 (mreg b) (mreg a))
  | .mor d a b => some (⟨0x2c, 0, (mreg d)⟩, .r 1 (mreg b) (mreg a))
  | .mxor d a b => some (⟨0x2c, 0, (mreg d)⟩, .r 2 (mreg b) (mreg a))
  | .mnot d a => some (⟨0x2c, 0, (mreg d)⟩, .r 3 0 (mreg a))
  | .mandn d a b => some (⟨0x2c, 0, (mreg d)⟩, .r 4 (mreg b) (mreg a))
  | .mpopc d a => some (⟨0x2c, 0, d⟩, .r 5 0 (mreg a))
  | .mfirst d a => some (⟨0x2c, 0, d⟩, .r 6 0 (mreg a))
  | .mset d a => some (⟨0x2c, 0, (mreg d)⟩, .r 7 0 a)
  | .mget d a => some (⟨0x2c, 0, d⟩, .r 8 0 (mreg a))
  | .sbind v a => some (⟨0x2d, 0, (vreg v)⟩, .r 0 0 a)
  | .sunbind v a => some (⟨0x2d, 0, (vreg v)⟩, .r 1 0 a)
  | .mma acc w d a wt sg => some (⟨0x40, (mk11 w acc), d⟩, .e (sigInc sg) (sigSem sg) wt.imm wt.mode wt.sem wt.reg 0 a)
  | .amzero acc a wt sg => some (⟨0x41, (mk11 false acc), 0⟩, .e (sigInc sg) (sigSem sg) wt.imm wt.mode wt.sem wt.reg 0 a)
  | .amin acc d a wt sg => some (⟨0x42, (mk11 false acc), d⟩, .e (sigInc sg) (sigSem sg) wt.imm wt.mode wt.sem wt.reg 0 a)
  | .amout acc d a wt sg => some (⟨0x43, (mk11 false acc), d⟩, .e (sigInc sg) (sigSem sg) wt.imm wt.mode wt.sem wt.reg 0 a)
  | .amoutClr acc d a wt sg => some (⟨0x43, (mk11 true acc), d⟩, .e (sigInc sg) (sigSem sg) wt.imm wt.mode wt.sem wt.reg 0 a)
  | .tcopy d a b wt sg => some (⟨0x44, 0, d⟩, .e (sigInc sg) (sigSem sg) wt.imm wt.mode wt.sem wt.reg b a)
  | .tgath d a b wt sg => some (⟨0x46, 0, d⟩, .e (sigInc sg) (sigSem sg) wt.imm wt.mode wt.sem wt.reg b a)
  | .tfill d a b wt sg => some (⟨0x47, 0, d⟩, .e (sigInc sg) (sigSem sg) wt.imm wt.mode wt.sem wt.reg b a)
  | .cred d a b wt sg => some (⟨0x48, 0, d⟩, .e (sigInc sg) (sigSem sg) wt.imm wt.mode wt.sem wt.reg b a)
  | .cmcast d a b wt sg => some (⟨0x49, 0, d⟩, .e (sigInc sg) (sigSem sg) wt.imm wt.mode wt.sem wt.reg b a)
  | .tcopyw w d a b wt sg => some (⟨0x45, (mk11 false w), d⟩, .e (sigInc sg) (sigSem sg) wt.imm wt.mode wt.sem wt.reg b a)
  | .estat d a b => some (⟨0x4a, 0, d⟩, .r 0 b a)
  | .ecancel a b => some (⟨0x4b, 0, 0⟩, .r 0 b a)
  | .eresume n => some (⟨0x4c, 0, 0⟩, .i (mk83 0 n) 0)
  | .spawn d a b => some (⟨0x50, 0, d⟩, .r 0 b a)
  | .spawna d a b => some (⟨0x50, 0, d⟩, .r 1 b a)
  | .send d a b => some (⟨0x50, 0, d⟩, .r 2 b a)
  | .recv d a => some (⟨0x51, 0, d⟩, .i 0 a)
  | .recvTry d a => some (⟨0x51, 0, d⟩, .i 1 a)
  | .lqpush d a b => some (⟨0x52, 0, d⟩, .r 0 b a)
  | .jdec d a b => some (⟨0x53, 0, d⟩, .r 0 b a)
  | .tend => some (⟨0x54, 0, 0⟩, .none)
  | .yield => some (⟨0x54, 0, 1⟩, .none)
  | .semadd cube d a b => some (⟨0x55, (mk11 false cube), d⟩, .r 0 b a)
  | .semwait cube d a b => some (⟨0x55, (mk11 false cube), d⟩, .r 1 b a)
  | .semtry cube d a b => some (⟨0x55, (mk11 false cube), d⟩, .r 2 b a)
  | .semrd cube d a b => some (⟨0x55, (mk11 false cube), d⟩, .r 3 b a)
  | .arrive d g => some (⟨0x56, 0, d⟩, .i (mk74 0 g) 0)
  | .waitb d g => some (⟨0x56, 1, d⟩, .i (mk74 0 g) 0)
  | .bmiss d a g => some (⟨0x56, 2, d⟩, .i (mk74 0 g) a)
  | .bmemb d a g => some (⟨0x56, 3, d⟩, .i (mk74 0 g) a)
  | .amoAdd d a b w acq rel sc => some (⟨0x57, 0, d⟩, .x (mkAmo sc.enc rel acq w) 0 sc.reg b a)
  | .amoAnd d a b w acq rel sc => some (⟨0x57, 0, d⟩, .x (mkAmo sc.enc rel acq w) 1 sc.reg b a)
  | .amoOr d a b w acq rel sc => some (⟨0x57, 0, d⟩, .x (mkAmo sc.enc rel acq w) 2 sc.reg b a)
  | .amoXor d a b w acq rel sc => some (⟨0x57, 0, d⟩, .x (mkAmo sc.enc rel acq w) 3 sc.reg b a)
  | .amoMin d a b w acq rel sc => some (⟨0x57, 0, d⟩, .x (mkAmo sc.enc rel acq w) 4 sc.reg b a)
  | .amoMax d a b w acq rel sc => some (⟨0x57, 0, d⟩, .x (mkAmo sc.enc rel acq w) 5 sc.reg b a)
  | .amoMinZ d a b w acq rel sc => some (⟨0x57, 0, d⟩, .x (mkAmo sc.enc rel acq w) 6 sc.reg b a)
  | .amoMaxZ d a b w acq rel sc => some (⟨0x57, 0, d⟩, .x (mkAmo sc.enc rel acq w) 7 sc.reg b a)
  | .amoSwap d a b w acq rel sc => some (⟨0x57, 0, d⟩, .x (mkAmo sc.enc rel acq w) 8 sc.reg b a)
  | .cas d a b w acq rel sc => some (⟨0x58, 0, d⟩, .x (mkAmo sc.enc rel acq w) 0 sc.reg b a)
  | .cas16 d a b acq rel sc => some (⟨0x58, 0, d⟩, .x (mkAmo sc.enc rel acq true) 1 sc.reg b a)
  | .redAdd a b w rel sc => some (⟨0x59, 0, 0⟩, .x (mkAmo sc.enc rel false w) 0 sc.reg b a)
  | .redAnd a b w rel sc => some (⟨0x59, 0, 0⟩, .x (mkAmo sc.enc rel false w) 1 sc.reg b a)
  | .redOr a b w rel sc => some (⟨0x59, 0, 0⟩, .x (mkAmo sc.enc rel false w) 2 sc.reg b a)
  | .redXor a b w rel sc => some (⟨0x59, 0, 0⟩, .x (mkAmo sc.enc rel false w) 3 sc.reg b a)
  | .redMin a b w rel sc => some (⟨0x59, 0, 0⟩, .x (mkAmo sc.enc rel false w) 4 sc.reg b a)
  | .redMax a b w rel sc => some (⟨0x59, 0, 0⟩, .x (mkAmo sc.enc rel false w) 5 sc.reg b a)
  | .redMinZ a b w rel sc => some (⟨0x59, 0, 0⟩, .x (mkAmo sc.enc rel false w) 6 sc.reg b a)
  | .redMaxZ a b w rel sc => some (⟨0x59, 0, 0⟩, .x (mkAmo sc.enc rel false w) 7 sc.reg b a)
  | .fence sc ld st eng => some (⟨0x5a, 0, 0⟩, .i (mkFence eng st ld sc.enc) sc.reg)
  | .trap imm => some (⟨0x60, 0, 0⟩, .i imm 0)
  | .kret => some (⟨0x61, 0, 0⟩, .none)
  | .fret => some (⟨0x61, 0, 1⟩, .none)
  | .wfi => some (⟨0x61, 0, 2⟩, .none)
  | .crrd d n => some (⟨0x62, 0, d⟩, .i27 (mk1512 0 n) 0)
  | .crwr a n => some (⟨0x62, 1, 0⟩, .i27 (mk1512 0 n) a)
  | .tlbinv a b => some (⟨0x63, 0, 0⟩, .r 0 b a)
  | .icinv a b => some (⟨0x64, 0, 0⟩, .r 0 b a)
  | .prset a b => some (⟨0x66, 0, 0⟩, .r 0 b a)
  | .ptload a b => some (⟨0x67, 0, 0⟩, .r 0 b a)
  | .pdrain a b => some (⟨0x68, 0, 0⟩, .r 0 b a)
  | .ctxsw a => some (⟨0x65, 0, 0⟩, .r 0 0 a)
  | .ctxflush a => some (⟨0x65, 0, 0⟩, .r 1 0 a)
  | _ => none

/-! ## Bits of heads and tails -/

/-- R12: the fields of the tail bits of a format. -/
def Tail.unpack (fm : Format) (v : BitVec 48) : Tail :=
  match fm with
  | .none => .none
  | .r => .r (v.extractLsb' 10 6) (v.extractLsb' 5 5) (v.extractLsb' 0 5)
  | .i => .i (v.extractLsb' 5 11) (v.extractLsb' 0 5)
  | .x => .x (v.extractLsb' 21 11) (v.extractLsb' 15 6) (v.extractLsb' 10 5) (v.extractLsb' 5 5)
      (v.extractLsb' 0 5)
  | .i27 => .i27 (v.extractLsb' 5 27) (v.extractLsb' 0 5)
  | .br => .br (v.extractLsb' 15 17) (v.extractLsb' 10 5) (v.extractLsb' 5 5) (v.extractLsb' 0 5)
  | .i48 => .i48 (v.extractLsb' 16 32) (v.extractLsb' 5 11) (v.extractLsb' 0 5)
  | .e => .e (v.extractLsb' 44 4) (v.extractLsb' 36 8) (v.extractLsb' 25 11) (v.extractLsb' 23 2)
      (v.extractLsb' 15 8) (v.extractLsb' 10 5) (v.extractLsb' 5 5) (v.extractLsb' 0 5)

/-- The format a tail's fields belong to. -/
def Tail.format : Tail → Format
  | .none => .none
  | .r .. => .r
  | .i .. => .i
  | .x .. => .x
  | .i27 .. => .i27
  | .br .. => .br
  | .i48 .. => .i48
  | .e .. => .e

/-- R12: the bits of a tail, zero-extended to 48. -/
def Tail.pack : Tail → BitVec 48
  | .none => 0
  | .r f b a => 0#32 ++ f ++ b ++ a
  | .i imm a => 0#32 ++ imm ++ a
  | .x md f c b a => 0#16 ++ md ++ f ++ c ++ b ++ a
  | .i27 imm a => 0#16 ++ imm ++ a
  | .br dl ix b a => 0#16 ++ dl ++ ix ++ b ++ a
  | .i48 imm f a => imm ++ f ++ a
  | .e inc ss imm mode ws c b a => inc ++ ss ++ imm ++ mode ++ ws ++ c ++ b ++ a

/-- R11: the bits of a head. -/
def packHead (tl : Nat) (h : HeadF) : BitVec 16 :=
  BitVec.ofNat 2 tl ++ BitVec.ofNat 7 h.op ++ h.sel ++ h.d

def headTL (h : BitVec 16) : Nat := (h.extractLsb' 14 2).toNat
def headOP (h : BitVec 16) : Nat := (h.extractLsb' 7 7).toNat
def headSel (h : BitVec 16) : BitVec 2 := h.extractLsb' 5 2
def headD (h : BitVec 16) : Reg := h.extractLsb' 0 5

/-- What decoding a head with its tail answers: the instruction, or the step of R29 that rejects it. -/
inductive Decoded where
  | ok (i : Instr)
  /-- step 3: OP is undefined in R22, cause 0x01 -/
  | undefinedOp
  /-- step 4: TL, a selector or a constrained field is wrong, cause 0x02 -/
  | badEncoding
  deriving DecidableEq, Repr

/-- Steps 3 and 4 of R29 on a head and its tail (the tail's halfwords zero-extended to 48 bits). -/
def decode (head : BitVec 16) (tail : BitVec 48) : Decoded :=
  match opFormat (headOP head) with
  | none => .undefinedOp
  | some fm =>
    if headTL head ≠ fm.tl then .badEncoding
    else
      match decodeFields (headOP head) (headSel head) (headD head) (Tail.unpack fm tail) with
      | some i => if i.wellFormed then .ok i else .badEncoding
      | none => .badEncoding

/-- The head and the tail bits of an instruction; `none` for an event, which has no encoding. -/
def encode (i : Instr) : Option (BitVec 16 × BitVec 48) :=
  match encodeFields i with
  | some (h, t) => some (packHead t.format.tl h, t.pack)
  | none => none

/-- R29: the "encoding" of the KTVAL column, head in [15:0] and tail in [63:16]. -/
def encodingWord (head : BitVec 16) (tail : BitVec 48) : Word := tail ++ head

/-- R29: the encoding of an instruction as KTVAL holds it. -/
def Instr.tval (i : Instr) : Word :=
  match encode i with
  | some (h, t) => encodingWord h t
  | none => 0

/-- The instruction that the decoder reads from bits numbered as spec/opcode_table.json numbers them:
the head in bits 15 to 0, the tail above it. -/
def decodeTableWord (_nbits w : Nat) : Option Instr :=
  match decode (BitVec.ofNat 16 w) (BitVec.ofNat 48 (w / 65536)) with
  | .ok i => some i
  | _ => none

/-! ## Lines (R7 to R9) -/

/-- The halfwords of a line, h0 first, from its 64 bytes (each little-endian, R7). -/
def halfwords : List Byte → List (BitVec 16)
  | lo :: hi :: rest => (hi ++ lo) :: halfwords rest
  | _ => []

/-- Halfword `i` of a line. -/
def hw (h : List (BitVec 16)) (i : Nat) : BitVec 16 := h.getD i 0

/-- R8: S(i), the sum of TL_1 to TL_i. -/
def tailSum (h : List (BitVec 16)) : Nat → Nat
  | 0 => 0
  | i + 1 => tailSum h i + headTL (hw h (i + 1))

/-- R7: the header's head count H. -/
def lineH (h : List (BitVec 16)) : Nat := ((hw h 0).extractLsb' 0 5).toNat

/-- R9: the line is well formed. -/
def lineOk (h : List (BitVec 16)) : Bool :=
  let n := lineH h
  let s := tailSum h n
  (hw h 0).extractLsb' 5 11 = 0#11 && 1 ≤ n && 1 + n + s ≤ 32 &&
    (List.range 32).all (fun j => !(n < j && j + s ≤ 31) || hw h j = 0)

/-- R8: the tail bits of head `i`, zero-extended to 48. -/
def lineTail (h : List (BitVec 16)) (i : Nat) : BitVec 48 :=
  let base := 32 - tailSum h i
  match headTL (hw h i) with
  | 0 => 0
  | 1 => 0#32 ++ hw h base
  | 2 => 0#16 ++ hw h (base + 1) ++ hw h base
  | _ => hw h (base + 2) ++ hw h (base + 1) ++ hw h base

/-- The bytes of a line that holds the one head `h` with its tail, for `State.withFetchWord`. -/
def oneHeadLine (head : BitVec 16) (tail : BitVec 48) : List Byte :=
  let tl := headTL head
  let t := fun (k : Nat) => [BitVec.ofNat 8 (tail.toNat >>> (16 * k)), BitVec.ofNat 8 (tail.toNat >>> (16 * k + 8))]
  [1#8, 0#8, head.setWidth 8, (head >>> 8).setWidth 8] ++ List.replicate (60 - 2 * tl) 0#8 ++
    (match tl with
     | 0 => []
     | 1 => t 0
     | 2 => t 0 ++ t 1
     | _ => t 0 ++ t 1 ++ t 2)

end Sys2Proof
end

