-- ==== Sys2Proof/Machine/State.lean ====
section
/-! DEFINITION. The state of one cube as plain data, the reasons a step can stop, and the state right
after cube reset. INVENTORY.md lists every piece with the rule that names it. -/

namespace Sys2Proof.Machine

/-! ## Contexts -/

/-- The states of a context (R186); `free` is an id that no live context has. -/
inductive CState where
  | free | running | blocked | parked | readyParked | stopped
  deriving DecidableEq, Repr

/-- What a waiting head waits for. The first nine are the KINDs 1 to 9 of R214. -/
inductive WKind where
  | clusterSem | cubeSem | barrier | recv | fullEmpty | send | engineQueue | bounceSlot | launchQueue
  /-- an access whose response has not come (R318) -/
  | response
  /-- a refused request that will be sent again (R229) -/
  | backoff
  /-- FENCE with eng (R167) -/
  | fence
  /-- WFI (R170) -/
  | wfi
  /-- PRSET phases 2 and 3 (R176) -/
  | prset
  /-- PDRAIN waiting for handlers in progress (R334); TLBINV and ICINV waiting for accesses under way (R172, R173) -/
  | drain
  /-- a scalar bank or vector bank that cannot be evicted (R191) -/
  | bank
  /-- a register that a waiting head of the same context will write (R318) -/
  | operand
  /-- TLBINV and ICINV waiting for other cubes (R172, R173, R326) -/
  | far
  /-- earlier accesses of the same thread that an interrupt has left under way (R74, R86, R168) -/
  | own
  deriving DecidableEq, Repr

/-- How the response of a waiting head is used (R318): `memo` means that the head is issued again and
finds the response, which is how heads with several accesses go on. -/
inductive RKind where
  | load (t : MTy)
  | atomic (w64 : Bool)
  | cas16
  | flag
  | plain
  /-- a store: a failure is recorded (R72) -/
  | store
  | memo
  deriving DecidableEq, Repr

/-- A cached translation (R325). -/
structure TlbEntry where
  asid : Nat
  page : Nat
  lvl : Nat
  pte : Word
  deriving DecidableEq, Repr

/-- Where a global physical address lies (R221): the cube and the address there, and the mirror if there is one. -/
structure Home where
  cube : Nat
  mirror : Option Nat
  la : Nat
  deriving DecidableEq, Repr

/-- The outcome of one memory access: the bytes read (or the old value of an atomic) as a number, or the
cause of its failure at steps 4 and 5 of R71; `refused` is a NACK (R246), `waiting` the answer WAITING of
R284; `place` is a finished translation among the results of a head, with the home to which the access is resolved
(R223) and the entry that gave it (R172; the model's own). -/
inductive AccRes where
  | data (v : Nat)
  | fail (cause : Nat)
  | refused
  | waiting
  | place (gpa type : Nat) (home : Option Home) (via : TlbEntry)
  /-- the home to which a table read has been resolved (R223) -/
  | home (h : Option Home)
  deriving DecidableEq, Repr

/-- A registered wait of a context (R188, R318). -/
structure Wait where
  kind : WKind
  /-- what CTXWAIT shows as WHAT (R214) -/
  what : Nat := 0
  /-- the threshold of a SEMWAIT, or the address of an access -/
  thr : Nat := 0
  /-- the destination register -/
  d : Reg := 0
  /-- the waiting head and the head after it (R15) -/
  pc : Word := 0
  next : Word := 0
  /-- the first issue of the head (R80, R188) -/
  since : Nat := 0
  /-- WAITLIM as it stood at the first issue (R80) -/
  limit : Nat := 0
  refusals : Nat := 0
  rk : RKind := .plain
  /-- number of the access that is waited for (the model's own) -/
  tag : Nat := 0
  /-- the level at which the head was issued -/
  level : Nat := 0
  /-- the translation that the access under way uses (R172) -/
  via : Option TlbEntry := none
  /-- the result, once it has come while a handler runs on the context (R81, R318) -/
  got : Option AccRes := none
  deriving DecidableEq, Repr

/-- The results of the accesses that one agent's step has made so far, in order; the step finds them when
it is taken up again after a response (the model's own). `resume` is what is taken up when it is no head and waits
for access `tag`. -/
structure Memo where
  owner : Src
  results : List AccRes
  resume : Option (Instr × EvArg)
  tag : Nat := 0
  /-- a walk under way: the ASID and the address (R172) -/
  walk : Option (Nat × Word) := none
  /-- how often an access has been refused (R229) -/
  tries : Nat := 0
  deriving DecidableEq, Repr

/-- A bound stream (R104, R106): the descriptor copy with its position. -/
structure StreamB where
  base : Word
  write : Bool
  esz : Nat
  stride : List Int
  count : List Nat
  pos : Nat
  deriving DecidableEq, Repr

/-- The copy of the line that a context is executing (R10, R173). -/
structure LineCopy where
  addr : Word
  bytes : List Byte
  deriving DecidableEq, Repr

/-- Where a register bank of a context is (R187, R190). -/
inductive Bank where
  | unclaimed
  | resident
  /-- in the carve-out, from granule `g` -/
  | carve (g : Nat)
  | overflow
  deriving DecidableEq, Repr

/-- R86, R333: a store of a vector operation in flight that is still to be performed: one unit of R237, its checks
passed; `home` is `none` where its destination is refused. -/
structure RestStore where
  va : Word
  gpa : Nat
  type : Nat
  home : Option Home
  bytes : List Byte
  deriving DecidableEq, Repr

/-- A context (R185, R187). -/
structure Ctx where
  st : CState := .free
  /-- x1 to x31 by number; 0 where unlisted -/
  x : SMap Word := []
  /-- v0 to v31 by number; 0 where unlisted -/
  v : SMap VReg := []
  /-- m0 to m7 by number; 0 where unlisted -/
  m : SMap (BitVec 32) := []
  fpctl : Word := 0
  fpstat : Word := 0
  asid : Nat := 0
  ptbase : Word := 0
  fptbase : Word := 0
  pc : Word := 0
  streams : List (Nat × StreamB) := []
  /-- R72: address and cause of the earliest failed store -/
  storeFail : Option (Word × Nat) := none
  /-- R86, R48: flags of the vector operation in flight -/
  inflight : Option Nat := none
  /-- R333: the pending-operation block is saved -/
  pob : Bool := false
  /-- R86, R333: the stores of the vector operation in flight that are still to be performed, in order -/
  rest : List RestStore := []
  /-- R344: registers with failed parity, as kind and number -/
  bad : List (Nat × Nat) := []
  /-- the scalar bank and the vector banks 0 to 3 -/
  sbank : Bank := .unclaimed
  vbank : List Bank := [.unclaimed, .unclaimed, .unclaimed, .unclaimed]
  prio : Nat := 0
  kernel : Bool := false
  /-- the level at which a context without a slot goes on -/
  lvl : Nat := 0
  /-- launch queue and serial number of the launch (R202) -/
  launch : Option (Nat × Nat) := none
  spill : Nat := 0
  wait : Option Wait := none
  /-- waits of R318 that an interrupt did not withdraw, while a handler runs on the context -/
  hung : List Wait := []
  parkedAt : Nat := 0
  readyAt : Nat := 0
  /-- order among those that became ready at one time (R159, R194) -/
  readyOrd : Nat := 0
  /-- R191: the write of a bank of this parked context has been refused: its banks stay resident -/
  imageRefused : Bool := false
  /-- R81, R175: a result has come for the context whose image in the overflow area it is yet to reach -/
  imageStale : Bool := false
  line : Option LineCopy := none
  /-- serial number that tells one use of an id from the next (the model's own) -/
  uid : Nat := 0
  deriving DecidableEq, Repr

/-! ## Request numbers -/

/-- R283: the 20-bit request numbers of an agent: the next one, how often the numbers have run out, and the numbers used
with their times, newest first. -/
structure Seq20 where
  next : Nat := 0
  laps : Nat := 0
  used : List (Nat × Nat) := []
  deriving DecidableEq, Repr

/-! ## Slots and cores -/

/-- The trap registers of one level (R308). -/
structure TrapRegs where
  status : Word := 0
  epc : Word := 0
  cause : Word := 0
  tval : Word := 0
  scratch : List Word := [0, 0, 0, 0]
  deriving DecidableEq, Repr

/-- A thread slot (R186, R306). -/
structure Slot where
  ctx : Option Nat := none
  level : Nat := 0
  k : TrapRegs := {}
  f : TrapRegs := {}
  stopped : Bool := false
  /-- R309, R331: the context named by CTXSW since entry: its id, its serial number, and the resume PC of the
  outgoing context -/
  csw : Option (Nat × Nat × Word) := none
  /-- R334: the context is to be terminated at its next return to user level -/
  doomed : Bool := false
  /-- traps entered and not yet returned from since the context came into the slot (R330) -/
  depth : Nat := 0
  deriving DecidableEq, Repr

/-- A task packet in an inbox with the time of its arrival at its present priority (R193). -/
structure Entry where
  p : Packet
  prio : Nat
  at_ : Nat
  /-- entry order, for the front of a priority -/
  ord : Nat
  deriving DecidableEq, Repr

/-- A message of the message queue (R149). -/
structure Message where
  words : List Word
  asid : Nat
  sender : Nat
  completion : Bool
  /-- level of the sender of a SEND, and w1 of its image (R384) -/
  level : Nat := 0
  pay1 : Word := 0
  /-- the context that issued the command of a completion message, with its serial number (R178) -/
  ctx : Nat := 0
  uid : Nat := 0
  deriving DecidableEq, Repr

/-- A bounce slot (R145): the packet is away, or it has come back and waits for dispatch. -/
structure Bounce where
  p : Packet
  back : Bool
  ord : Nat
  /-- the context that sent it, with its serial number -/
  ctx : Nat
  uid : Nat
  /-- R334: that context has been terminated by a drain: a packet that returns is discarded -/
  dead : Bool
  deriving DecidableEq, Repr

/-- An event of the core's event queue (R314, R315). -/
structure CoreEvent where
  source : Nat
  sub : Nat
  tval : Word
  /-- source 0: the slot that the record names -/
  slot : Nat
  /-- source 0: the number of the record's command, plus 1 (the model's own) -/
  mark : Nat := 0
  deriving DecidableEq, Repr

/-- A barrier group of a core (R160). -/
structure Barrier where
  m : Word
  ar : Bool
  ph : Bool
  j : Bool
  deriving DecidableEq, Repr

/-- A core coordinate. -/
structure CoreSt where
  kvbase : Word := 0
  fvbase : Word := 0
  ktimer : Word := 0
  ftimer : Word := 0
  spillptr : Word := 0
  fspillptr : Word := 0
  waitlim : Word := 0x3D0900
  spawnSeq : Nat := 0
  /-- spawn numbers used in the last 600 µs, with the time (R283) -/
  seqLog : List (Nat × Nat) := []
  /-- requests to other cubes that wait for a number (R283) -/
  farHeld : List NetPkt := []
  inbox : List Entry := []
  messages : List Message := []
  bounce : List Bounce := []
  events : List CoreEvent := []
  /-- events that the raising agents hold while the queue is full (R315) -/
  eventsHeld : List CoreEvent := []
  barriers : List (Nat × Barrier) := []
  lastSlot : Nat := 3
  icache : List (Nat × List Byte) := []
  /-- the L1 data cache: GPA lines with their bytes, newest first (R2, R226) -/
  l1 : List (Nat × List Byte) := []
  tlb : List TlbEntry := []
  carve : Nat := 0
  /-- R337, R345: an error of the core is being tested -/
  testing : Bool := false
  /-- R339: probes that the fenced core has missed -/
  missed : Nat := 0
  /-- R337: packets of fenced cores waiting for a bounce slot of this core -/
  returnHeld : List Packet := []
  deriving DecidableEq, Repr

/-! ## Engines -/

/-- A weight array (R112). Elements by 128 × row + column; scales by 128 × block + column. -/
structure WArr where
  ty : ETy := .s8
  mx : Bool := false
  elems : SMap Nat := []
  scales : SMap Nat := []
  /-- rows with uncorrectable data (R342) -/
  badRows : List Nat := []
  deriving DecidableEq, Repr

/-- An accumulator (R112): words by 128 × row + column. -/
structure Acc where
  words : SMap (BitVec 32) := []
  /-- 64-bit words with uncorrectable data (R342), by 64 × row + column / 2 -/
  bad : List Nat := []
  deriving DecidableEq, Repr

/-- The states of a command that the cluster still holds (R114); the final states are not held. -/
inductive CmdSt where
  | queued | running | faulted
  /-- final, but its message waits for room (R121); the status of the message -/
  | posting (status : Nat)
  deriving DecidableEq, Repr

/-- An engine command with its captured values (R113 to R121). -/
structure Cmd where
  num : Nat
  op : Nat
  head : BitVec 16
  tail : BitVec 48
  vd : Word
  va : Word
  vb : Word
  vc : Word
  /-- accumulator and weight array: A[5] and A[6] -/
  sel0 : Bool
  sel1 : Bool
  /-- semaphore and threshold of the wait -/
  wait : Option (Nat × Nat)
  sig : ESignal
  core : Nat
  slot : Nat
  ctx : Nat
  uid : Nat
  asid : Nat
  level : Nat
  st : CmdSt := .queued
  /-- the wait has been satisfied once, or the command was resumed (R137) -/
  passed : Bool := false
  cursor : Nat := 0
  done : Nat := 0
  /-- collective commands: which use of the group (R132), packets delivered, first refused delivery -/
  use : Nat := 0
  delivered : List Nat := []
  refused : Option EFault := none
  /-- TGATH: the list entry of the row in progress at the start of the chunk, as far as it has been read -/
  carry : List Byte := []
  /-- CRED: the translations that the member port holds (R134) -/
  hold : List TlbEntry := []
  /-- R178: a drained command that stops at its next boundary -/
  stopping : Bool := false
  /-- R337: the core that issued it has been fenced: its message is discarded -/
  orphan : Bool := false
  /-- a fault that waits for a record slot (R136) -/
  fault : Option EFault := none
  deriving DecidableEq, Repr

/-- A cluster. -/
structure Cluster where
  sems : SMap Word := []
  /-- waiters of semaphores in arrival order: semaphore, core, context -/
  waiters : List (Nat × Nat × Nat) := []
  semerr : Word := 0
  w0 : WArr := {}
  w1 : WArr := {}
  acc0 : Acc := {}
  acc1 : Acc := {}
  cmds : List Cmd := []
  /-- EFREC0 to EFREC7: slot, words w0 to w7, the command -/
  efrec : List (Nat × List Word × Cmd) := []
  accNum : Nat := 0
  /-- completion messages with the core they go to -/
  pending : List (Nat × Message) := []
  /-- spare rows used of w0, w1, acc0, acc1 -/
  sparesUsed : List Nat := [0, 0, 0, 0]
  matrixOff : Bool := false
  /-- the cluster TLB, newest first (R325) -/
  tlb : List TlbEntry := []
  /-- R227: a launch has joined the L1 data caches of the cluster -/
  fused : Bool := false
  /-- the request numbers of the copy engine and of the collective port, next first (R283) -/
  copySeq : Seq20 := {}
  collSeq : Seq20 := {}
  deriving DecidableEq, Repr

/-! ## Coherence -/

/-- R222, R356: a change of a line that its mirror has not confirmed: the number of the update, and what is sent when it
has: the responses, and whether SEMF adds (R248). -/
structure MirWait where
  seq : Nat
  owed : List (Ev × Msg)
  semf : Bool
  deriving DecidableEq, Repr

/-- One line at its home (R247): table state, OWNER, SHARERS, answers still to come, stalled events. -/
structure DirLine where
  /-- the GPA under which the line is in use; 0 in state 0 (the model's own) -/
  gpa : Nat := 0
  st : Nat := 0
  owner : Option Nat := none
  sharers : List Nat := []
  count : Nat := 0
  pend : List (Ev × Msg) := []
  /-- UPD: how many UPDs the last UPDSH sent -/
  updCount : Nat := 0
  /-- the line buffer (R243.8) -/
  buf : Option (List Byte) := none
  /-- updates that the mirror has not confirmed (R222) -/
  mirrors : List MirWait := []
  /-- the oldest event that waits is to be presented once the bus goes on (R363) -/
  due : Bool := false
  deriving DecidableEq, Repr

/-- A local access in progress at an agent (R243): its event, the request sent for it, its message, the ACKHs of a UPD
store that have come and that are to come, and whether the fill installs nothing (R243.3). -/
structure LocReq where
  loc : Ev
  req : Ev
  m : Msg
  acksGot : Nat := 0
  acksWant : Option Nat := none
  noInstall : Bool := false
  /-- R243.3: the loads that waited for the fill when it was found stale; it completes them too -/
  also : List Src := []
  deriving DecidableEq, Repr

/-- One line at an agent (R243): table state, copy, victim, the accesses in progress, waiting events. -/
structure AgentLine where
  st : Nat := 0
  data : Option (List Byte) := none
  victim : Option (List Byte) := none
  cur : List LocReq := []
  missq : List (Ev × Msg) := []
  held : List (Ev × Msg) := []
  slot : Nat := 0
  protid : Nat := 0
  /-- the copy is uncorrectable: the way that it lies in (R342) -/
  bad : Option Nat := none
  /-- the clusters of the tile whose L1s may hold the line, bit by bit (R226) -/
  mask : Nat := 0
  /-- where the line is homed (R221) -/
  home : Nat := 0
  mirror : Option Nat := none
  la : Nat := 0
  /-- the copy differs from memory (R342) -/
  dirty : Bool := false
  /-- the line lies in the firmware region of its home (R381) -/
  fw : Bool := false
  deriving DecidableEq, Repr

/-- A range-table entry (R240). -/
structure RangeEntry where
  slot : Nat
  base : Nat
  k : Nat
  deriving DecidableEq, Repr

/-- A waiting full-empty access (R79, R229). -/
structure FeWait where
  la : Nat
  msg : Msg
  /-- its turn has come: it stands before what waits for its line (R79) -/
  up : Bool := false
  deriving DecidableEq, Repr

/-- A journal entry (R286). -/
structure JEntry where
  n : Nat
  gpa : Nat
  /-- bits of the word -/
  width : Nat
  v : Nat
  /-- what each constituent is answered, in list order -/
  cons : List (Constituent × Nat)
  deriving DecidableEq, Repr

/-- A request-filter entry (R285): the request's source and the kept response. -/
structure FEntry where
  n : Nat
  src : Src
  ev : Ev
  msg : Msg
  deriving DecidableEq, Repr

/-- A cached pointer entry of a page table: the ASID, where the entry lies, and the entry (R325). -/
structure WalkEntry where
  asid : Nat
  gpa : Nat
  pte : Nat
  deriving DecidableEq, Repr

/-- What a tile holds beside its home lines. -/
structure Tile where
  ranges : List (Nat × RangeEntry) := []
  fe : List FeWait := []
  journal : List JEntry := []
  filter : List FEntry := []
  /-- the request numbers of the vault controller (R283) -/
  reqSeq : Seq20 := {}
  /-- packets received, for duplicates: number, source (R285) -/
  received : List (Nat × Src) := []
  /-- ASID bindings, oldest first: ASID and root, `none` for an invalid binding (R324) -/
  asids : List (Nat × Option Nat) := []
  serial : Nat := 0
  waysOff : List Nat := []
  /-- the walk cache, newest first (R325) -/
  walks : List WalkEntry := []
  /-- the request numbers of the L2 slice (R283, log entry 24) -/
  sliceSeq : Seq20 := {}
  /-- continuations that the home still offers (R152) -/
  conts : List Packet := []
  deriving DecidableEq, Repr

/-- A decombining record (R288). -/
structure CombRec where
  n : Nat
  id : Src
  gpa : Nat
  w64 : Bool
  s1 : Nat
  part1 : Src
  ret1 : Nat
  reply1 : Bool
  part2 : Src
  ret2 : Nat
  reply2 : Bool
  deriving DecidableEq, Repr

/-- A router: the tile routers 0 to 63 and Chervil, 64. -/
structure Router where
  recs : List CombRec := []
  /-- requests queued or held for a partner, with their number (R287, R291) -/
  queue : List (Nat × NetPkt) := []
  serial : Nat := 0
  /-- records created since ARM was set (R264) -/
  injCount : Nat := 0
  deriving DecidableEq, Repr

/-- A port of Chervil beside its registers (R268, R269). -/
structure Port where
  /-- packets queued at the port, with number and time of arrival -/
  queue : List (Nat × Nat × NetPkt) := []
  serial : Nat := 0
  txSeq : Nat := 0
  rxSeq : Nat := 0
  unacked : List (Nat × List NetPkt) := []
  /-- flits in the far side's buffers, by virtual channel (R276, R278) -/
  credits : SMap Nat := []
  /-- failures in a row of the group that is expected -/
  replays : Nat := 0
  /-- a replay from the group that is expected has been asked for (R268) -/
  asked : Bool := false
  /-- groups sent again at the far side's request (R268; the model's own count) -/
  again : Nat := 0
  /-- heartbeats missed in a row, and whether anything has come since the last heartbeat -/
  missRow : Nat := 0
  heard : Bool := false
  deriving DecidableEq, Repr

/-- A request of this cube that has not been answered (R284). -/
structure Outst where
  id : Nat
  pkt : NetPkt
  /-- where the answer goes: core and context, or cluster and command number -/
  core : Nat
  ctx : Nat
  /-- 0 memory, 1 spawn, 2 SEND, 3 engine or host -/
  kind : Nat
  resends : Nat
  /-- R284: WAITING has been answered -/
  waiting : Bool
  /-- it has been answered WAITING at some time -/
  waited : Bool := false
  stamp : Nat
  /-- its timer runs -/
  timed : Bool
  deriving DecidableEq, Repr

/-- Packets of a CRED that have reached this cube (R298). -/
structure CollPart where
  group : Nat
  use : Nat
  index : Nat
  inputs : List CPkt
  deriving DecidableEq, Repr

/-- Counts of a collective group at this cube (R132, R296). -/
structure CollGroup where
  uses : Nat := 0
  /-- results passed on: use and packet -/
  passed : List (Nat × Nat) := []
  deriving DecidableEq, Repr

/-! ## Launches -/

/-- A pushed descriptor (R151, R179, R184). -/
structure LDesc where
  words : List Word
  id : Nat
  asid : Nat
  ptbase : Word
  level : Nat
  core : Nat
  /-- serial number, which names the launch in its packets and contexts (the model's own) -/
  uid : Nat
  deriving DecidableEq, Repr

/-- A started launch (R199, R202). -/
structure LRun where
  desc : LDesc
  total : Nat
  done : Nat
  failed : Bool
  completing : Bool
  /-- the cores to which no task packet has been sent yet: the launch is starting while there are any (R199) -/
  left : List Nat
  deriving DecidableEq, Repr

/-- A launch queue (R204 to R209). -/
structure LQueue where
  descs : List LDesc := []
  runs : List LRun := []
  pushes : Nat := 0
  stopped : Bool := false
  /-- ELAPSED in cycles at `since`, counting from there while it runs -/
  elapsed : Nat := 0
  since : Nat := 0
  stamp : Nat := 0
  /-- launches forgotten by a reset whose tasks may still run, with whether they fuse (R201, R209) -/
  forgotten : List (Nat × Bool) := []
  deriving DecidableEq, Repr

/-! ## PRSET, errors, boot -/

/-- A PRSET in progress (R176, R259). -/
structure PrsetRun where
  id : Nat
  core : Nat
  ctx : Nat
  base : Nat
  k : Nat
  slot : Nat
  /-- phase 1 is over at every cube -/
  going : Bool := true
  /-- the request of another cube that is answered when the switch is over, and the number of its run there -/
  far : Option Src := none
  run : Nat := 0
  deriving DecidableEq, Repr

/-- A TLBINV, ICINV or PRSET of a context that waits for other cubes (R172, R173, R176, R326). -/
structure FarRun where
  id : Nat
  core : Nat
  ctx : Nat
  uid : Nat
  asid : Nat
  level : Nat
  op : FarOp
  /-- the cubes that take part, and those that have not answered -/
  cubes : List Nat
  left : List Nat
  /-- some home lacks entries (R176) -/
  lacks : Bool := false
  /-- a cube that gave no answer (R326) -/
  dead : Option Nat := none
  deriving DecidableEq, Repr

/-- A self-test in progress (R345): place, severity of the error, n of R346. -/
structure TestRun where
  place : Place
  sev : Nat
  count : Nat
  /-- a logic error of the core has been met (R353) -/
  logic : Bool
  deriving DecidableEq, Repr

/-- What the cube as a whole does (R354, R374, R377). -/
inductive Mode where
  | inReset | recovery | running | down
  deriving DecidableEq, Repr

/-- An SPDM connection of one transport (R385). -/
structure Spdm where
  stage : Nat := 0
  busy : Bool := false
  /-- the messages that a signature covers -/
  transcript : List Byte := []
  deriving DecidableEq, Repr

/-- One entry of the agenda: an event with its operands, or a head to issue on a core. -/
inductive Item where
  | event (i : Instr) (a : EvArg)
  | issue (core : Nat)
  deriving DecidableEq, Repr

/-- The core, slot and context that the head being executed belongs to. -/
structure Cur where
  core : Nat := 0
  slot : Nat := 0
  ctx : Nat := 0
  deriving DecidableEq, Repr

/-- A firmware update in progress (R378): its transport; the phases that are done, 0 while the image is still to come; and the
image. -/
structure UpdateRun where
  transport : Nat
  phase : Nat := 0
  image : List Byte := []
  deriving DecidableEq, Repr

/-- The state of the cube. -/
structure State where
  mode : Mode
  /-- cycles since cube reset (R21, CYCLE) -/
  now : Nat
  /-- counter of free values (the model's own) -/
  free : Nat
  agenda : List Item
  /-- events that are part of the step being taken (R303; the model's own) -/
  acts : List (Instr × EvArg)
  /-- how often each possible step has been passed over (R196, log entry 5) -/
  passed : List (Item × Nat)
  /-- due time and event -/
  timers : List (Nat × Instr × EvArg)
  cur : Cur
  arg : EvArg
  /-- the access being made and its outcome (the model's own) -/
  latch : Option Src
  resp : Option AccRes
  /-- accesses that the head being executed has made (the model's own) -/
  accs : Nat
  memos : List Memo
  serial : Nat
  /-- contexts by 256 × core + id -/
  ctxs : SMap Ctx
  /-- slots by 4 × core + slot -/
  slots : SMap Slot
  cores : SMap CoreSt
  clusters : SMap Cluster
  tiles : SMap Tile
  /-- home lines by cube-local line -/
  dirs : SMap DirLine
  /-- agent lines by tile × 2^50 + GPA line -/
  agents : SMap AgentLine
  /-- protocol images of slots 0 to 7, 4,224 bytes each -/
  images : SMap (List Byte)
  /-- DRAM by cube-local address, zero where unlisted -/
  dram : List Host.Cell
  /-- full-empty bits by word of cube-local address; full where unlisted -/
  fe : SMap Bool
  /-- poisoned lines -/
  poison : SMap Bool
  /-- local memories by cluster × 2^19 + window offset, zero where unlisted -/
  lmem : List Host.Cell
  /-- local-memory words with bad parity, by the same address / 4; true: stuck (R335) -/
  lmemBad : List (Nat × Bool)
  /-- whether LMINJ is bound to the physical core that serves its coordinate now (R336) -/
  lmInjLive : Bool
  flash : List Host.Cell
  /-- the cube control space by offset, `csrReset` where unlisted -/
  csr : SMap Word
  cubeSems : SMap Word
  cubeWaiters : List (Nat × Nat × Nat)
  lqs : SMap LQueue
  /-- start buffer: core, queue, launch id, packet (R201) -/
  startBuf : List (Nat × Nat × Nat × Packet)
  /-- queue last served at each priority (R206) -/
  lastServed : List Nat
  routers : SMap Router
  ports : SMap Port
  outst : List Outst
  colls : List CollPart
  groups : SMap CollGroup
  prsets : List PrsetRun
  /-- PTLOADs whose image is being read: slot, core, context, its serial number (R260) -/
  ptloads : List (Nat × Nat × Nat × Nat)
  /-- what waits for other cubes (R172, R173, R176) -/
  farRuns : List FarRun
  /-- accesses held by paused or switching homes, and collective packets without a buffer -/
  held : List Item
  tests : List TestRun
  /-- cycles of powered time before this cube reset (R346) -/
  powered : Nat
  /-- error counts of 24 hours: place and powered time (R346) -/
  errors : List (Place × Nat)
  /-- lifetime counters by number (R361) -/
  lifetime : SMap Nat
  /-- L2 ways, DRAM spare rows, lanes and wires repaired (R348) -/
  repairs : List Place
  svnFloor : Nat
  /-- MEAS0 to MEAS15 (R376), 64 bytes each -/
  meas : SMap (List Byte)
  /-- an update in progress (R377, R378) -/
  update : Option UpdateRun
  i3cStatic : Nat
  i3cDynamic : Option Nat
  spdm : SMap Spdm
  /-- bytes sent to requesters and hosts, newest first: transport and bytes -/
  sent : List (Nat × List Byte)
  deriving DecidableEq, Repr

/-- Why the machine stops for good. -/
inductive Fault where
  /-- step: the cube stays in reset, because no core of column 127 passed its self-test (R374 step 1), and
  the agenda holds nothing else. Safe: nothing of the cube runs then. -/
  | heldInReset
  deriving DecidableEq, Repr

/-- Why a step gives no meaning. -/
inductive Refusal where
  /-- an instruction without a meaning in this model (none). Safe. -/
  | notModelled (mnemonic : String)
  deriving DecidableEq, Repr

/-- The machine right after cube reset: nothing has run, and the ROM's work (CUBE_RESET, R374) stands on
the agenda. -/
def State.reset : State where
  mode := .inReset
  now := 0
  free := 0
  agenda := [.event .cubeReset {}]
  acts := []
  passed := []
  timers := []
  cur := {}
  arg := {}
  latch := none
  resp := none
  accs := 0
  memos := []
  serial := 0
  ctxs := []
  slots := []
  cores := []
  clusters := []
  tiles := []
  dirs := []
  agents := []
  images := []
  dram := []
  fe := []
  poison := []
  lmem := []
  lmemBad := []
  lmInjLive := false
  flash := []
  csr := []
  cubeSems := []
  cubeWaiters := []
  lqs := []
  startBuf := []
  lastServed := [63, 63, 63, 63]
  routers := []
  ports := []
  outst := []
  colls := []
  groups := []
  prsets := []
  ptloads := []
  farRuns := []
  held := []
  tests := []
  powered := 0
  errors := []
  lifetime := []
  repairs := []
  svnFloor := 0
  meas := []
  update := none
  i3cStatic := Config.i3cFuse
  i3cDynamic := none
  spdm := []
  sent := []

end Sys2Proof.Machine
end

