-- ==== Sys2Proof/Machine/Maps.lean ====
section
/-! DEFINITION. Sparse maps and memories in canonical form: keys strictly rising, no entry equal to what
an unlisted key reads as. -/

namespace Sys2Proof.Machine

/-- The value at a key; `d` where the key is not listed. -/
def mget {α : Type} (d : α) : SMap α → Nat → α
  | [], _ => d
  | (a, v) :: r, k => if a = k then v else mget d r k

/-- Sorted insertion. -/
def minsert {α : Type} (k : Nat) (v : α) : SMap α → SMap α
  | [] => [(k, v)]
  | (a, b) :: r =>
    if k < a then (k, v) :: (a, b) :: r
    else if k = a then (k, v) :: r
    else (a, b) :: minsert k v r

/-- The map with the value at `k` replaced; a value equal to the default removes the entry. -/
def mset {α : Type} [DecidableEq α] (d : α) (m : SMap α) (k : Nat) (v : α) : SMap α :=
  if v = d then m.filter (fun e => e.1 != k) else minsert k v (m.filter (fun e => e.1 != k))

/-- The map with `f` applied at `k`. -/
def mupd {α : Type} [DecidableEq α] (d : α) (m : SMap α) (k : Nat) (f : α → α) : SMap α :=
  mset d m k (f (mget d m k))

/-- The keys rise strictly from above `lo`. -/
def risingFrom {α : Type} : Nat → SMap α → Bool
  | _, [] => true
  | lo, (a, _) :: r => decide (lo < a + 1) && risingFrom (a + 1) r

/-- The canonical form. -/
def mwf {α : Type} [DecidableEq α] (d : α) (m : SMap α) : Bool :=
  risingFrom 0 m && m.all (fun e => decide (e.2 ≠ d))

/-- `Memory.wf`: the canonical form of a memory whose unlisted bytes read as `d`. -/
def Memory.wf (d : Byte) (m : List Host.Cell) : Bool := mwf d m

/-- `n` bytes from address `a`. -/
def readBytes (d : Byte) (m : List Host.Cell) (a n : Nat) : List Byte :=
  (List.range n).map (fun i => mget d m (a + i))

/-- The bytes stored from address `a` on. -/
def writeBytes (d : Byte) (m : List Host.Cell) (a : Nat) : List Byte → List Host.Cell
  | [] => m
  | b :: r => writeBytes d (mset d m a b) (a + 1) r

/-- The little-endian number of some bytes (R6). -/
def leNat : List Byte → Nat
  | [] => 0
  | b :: r => b.toNat + 256 * leNat r

/-- `n` bytes of a number, little-endian. -/
def leBytes : Nat → Nat → List Byte
  | 0, _ => []
  | n + 1, v => BitVec.ofNat 8 v :: leBytes n (v / 256)

/-- Word `i` of an image of 64-bit words. -/
def wordAt (bs : List Byte) (i : Nat) : Word := BitVec.ofNat 64 (leNat ((bs.drop (8 * i)).take 8))

/-- The eight words of a 64-byte image. -/
def words8 (bs : List Byte) : List Word := (List.range 8).map (wordAt bs)

/-- The bytes of some words. -/
def wordBytes (ws : List Word) : List Byte := ws.flatMap (fun w => leBytes 8 w.toNat)

/-- Element `i` of a list of words; 0 beyond its end. -/
def wd (ws : List Word) (i : Nat) : Word := ws.getD i 0

/-- Bytes patched at an offset. -/
def patch (bs : List Byte) (off : Nat) (new : List Byte) : List Byte :=
  bs.take off ++ new ++ bs.drop (off + new.length)

/-- Bytes patched one by one: offsets and values. -/
def patchMany (bs : List Byte) (l : List (Nat × Byte)) : List Byte :=
  l.foldl (fun acc e => acc.set e.1 e.2) bs

end Sys2Proof.Machine
end

