-- ==== Sys2Proof/Machine/Csr.lean ====
section
/-! DEFINITION. The registers of the cube control space as plain words: their reset values and fields, the
numbering of cores, clusters and tiles, and partition membership. -/

namespace Sys2Proof.Machine

/-! ## Numbers (R3) -/

def coreRow (n : Nat) : Nat := n / 128
def coreCol (n : Nat) : Nat := n % 128
def mkCore (row col : Nat) : Nat := row * 128 + col
def clusterOf (n : Nat) : Nat := (coreRow n / 4) * 32 + coreCol n / 4
def tileOf (n : Nat) : Nat := (coreRow n / 16) * 8 + coreCol n / 16
/-- R218: the position of a core in its cluster. -/
def posOf (n : Nat) : Nat := 4 * (coreRow n % 4) + coreCol n % 4
/-- The core at position `q` of a cluster. -/
def coreAt (cl q : Nat) : Nat := mkCore (cl / 32 * 4 + q / 4) (cl % 32 * 4 + q % 4)
/-- The first core of a tile. -/
def tileCore (t : Nat) : Nat := mkCore (t / 8 * 16) (t % 8 * 16)
/-- The tile that holds a cluster. -/
def tileOfCluster (cl : Nat) : Nat := tileOf (coreAt cl 0)

/-! ## Reset values -/

/-- The reset value of the register at an offset of the control space. -/
def csrReset (off : Nat) : Word :=
  if 0x1000 ≤ off ∧ off < 0x2000 then
    (if off % 64 = 0 then 0x2000000000000000#64 else 0)                     -- R210 CEILING 10
  else if 0x2000 ≤ off ∧ off < 0x2400 then
    (if off % 16 = 0 then 0x00203F0000000000#64 else 0)                     -- R204 PRIO 10, DEPTH 0x3F
  else if 0x4020000 ≤ off ∧ off < 0x4020820 then
    (if off % 32 = 0 then 0x8000000000000000#64 else 0)                     -- R263 EN 1
  else if 0x4050000 ≤ off ∧ off < 0x4050300 then
    (if off % 64 = 0 then 0x3C00000000000000#64                              -- R269 DIR 0xF
     else if off % 64 = 8 then 0x00007C0000000000#64 else 0)                -- R269 SPARE 0x1F
  else if 0x4080000 ≤ off ∧ off < 0x4090000 then
    (if off % 0x200 = 8 then 7 else 0)                                      -- R362 BEATS 7
  else if off = 0x40B0000 then 0x7F                                         -- R380 COL 0x7F
  else if off = 0x40C0000 then 0x7D0                                        -- R391 PLIM
  else 0

/-- The stored register at an offset. -/
def State.csrAt (s : State) (off : Nat) : Word := mget 0 s.csr off ^^^ csrReset off

/-- The state with the register replaced. -/
def State.setCsr (s : State) (off : Nat) (v : Word) : State :=
  { s with csr := mset 0 s.csr off (v ^^^ csrReset off) }

/-- A field of a register. -/
def State.csrField (s : State) (off hi lo : Nat) : Nat := wbits (s.csrAt off) hi lo

/-- The state with one field of a register replaced. -/
def State.setCsrField (s : State) (off hi lo v : Nat) : State :=
  s.setCsr off (setBits (s.csrAt off) hi lo v)

/-- The state with a counter field raised by one, stopping at its maximum. -/
def State.bumpCsr (s : State) (off hi lo : Nat) : State :=
  let v := s.csrField off hi lo
  if v + 1 < 2 ^ (hi + 1 - lo) then s.setCsrField off hi lo (v + 1) else s

/-! ## Identity (R3, R393) -/

/-- R393: this cube's id, ROUTECTL.SELF. -/
def State.self (s : State) : Nat := s.csrField 0x4050300 61 48
def State.gcid (s : State) (core : Nat) : Nat := s.self * 16384 + core
def gcidCube (g : Nat) : Nat := g / 16384 % 16384
def gcidCore (g : Nat) : Nat := g % 16384

/-! ## Rectangles (R181, R182) -/

def rectKind (w : Word) : Nat := wbits w 35 34
def rectCube (w : Word) : Nat := wbits w 33 20
def rectLH (w : Word) : Nat := wbits w 19 17
def rectLW (w : Word) : Nat := wbits w 16 14
def rectRow (w : Word) : Nat := wbits w 13 7
def rectCol (w : Word) : Nat := wbits w 6 0

/-- R182: a legal rectangle word. -/
def rectLegal (w : Word) : Bool :=
  match rectKind w with
  | 0 => rectCol w % 2 ^ rectLW w = 0 && rectRow w % 2 ^ rectLH w = 0
  | 1 => true
  | 2 => true
  | _ => false

/-- Whether a core number lies in the rectangle, its cube left aside. -/
def rectHas (w : Word) (n : Nat) : Bool :=
  match rectKind w with
  | 0 => rectCol w ≤ coreCol n && coreCol n < rectCol w + 2 ^ rectLW w &&
      rectRow w ≤ coreRow n && coreRow n < rectRow w + 2 ^ rectLH w
  | 1 => true
  | 2 => true
  | _ => false

/-- The core numbers of a rectangle. -/
def rectCores (w : Word) : List Nat :=
  match rectKind w with
  | 0 => (List.range (2 ^ rectLH w)).flatMap (fun r =>
      (List.range (2 ^ rectLW w)).map (fun c => mkCore (rectRow w + r) (rectCol w + c)))
  | 3 => []
  | _ => List.range 16384

/-- R202: how many cores it has. -/
def rectSize (w : Word) : Nat :=
  match rectKind w with
  | 0 => 2 ^ rectLH w * 2 ^ rectLW w
  | _ => 16384

/-- R182: the rank of a core in it. -/
def rectRank (w : Word) (n : Nat) : Nat :=
  match rectKind w with
  | 0 => (coreRow n - rectRow w) * 2 ^ rectLW w + (coreCol n - rectCol w)
  | _ => n

/-- R160: the kind-0 rectangle of one core, CUBE 0. -/
def oneCoreRect (n : Nat) : Word := BitVec.ofNat 64 (coreRow n * 128 + coreCol n)

/-- Whether the rectangle `a` lies within the rectangle `b` (each of this cube). -/
def rectWithin (a b : Word) : Bool :=
  match rectKind b with
  | 1 => true
  | 0 => rectKind a = 0 && rectCol b ≤ rectCol a && rectCol a + 2 ^ rectLW a ≤ rectCol b + 2 ^ rectLW b &&
      rectRow b ≤ rectRow a && rectRow a + 2 ^ rectLH a ≤ rectRow b + 2 ^ rectLH b
  | _ => false

/-! ## Partitions (R210 to R212) -/

def partOff (p w : Nat) : Nat := 0x1000 + 64 * p + 8 * w
def State.partWord (s : State) (p w : Nat) : Word := s.csrAt (partOff p w)
def State.partValid (s : State) (p : Nat) : Bool := wbit (s.partWord p 0) 63
def State.partDrained (s : State) (p : Nat) : Bool := wbit (s.partWord p 0) 62
def State.partCeiling (s : State) (p : Nat) : Nat := wbits (s.partWord p 0) 61 60
def State.partKcore (s : State) (p : Nat) : Nat := wbits (s.partWord p 0) 45 32
def State.partRects (s : State) (p : Nat) : List Word :=
  ([1, 2, 3, 4].map (s.partWord p)).filter (fun w => wbit w 63)

/-- R211: the lowest-numbered valid partition whose ASID range holds an ASID. -/
def State.partOfAsid (s : State) (a : Nat) : Option Nat :=
  (List.range 64).find? (fun p =>
    s.partValid p && wbits (s.partWord p 0) 15 0 ≤ a && a ≤ wbits (s.partWord p 0) 31 16)

/-- Whether a partition's semaphore range holds a number, with wrap (R211). -/
def State.partHasSem (s : State) (p n : Nat) : Bool :=
  s.partValid p && (n + 256 - wbits (s.partWord p 7) 7 0) % 256 < wbits (s.partWord p 7) 16 8

/-- R211: the partition that owns a cube semaphore. -/
def State.partOfSem (s : State) (n : Nat) : Option Nat :=
  (List.range 64).find? (fun p => s.partHasSem p n)

/-- R212: membership of a core in a partition. -/
def State.partMember (s : State) (p n : Nat) : Bool :=
  s.partValid p && ((s.partRects p).any (fun r => rectHas r n) || s.partKcore p = n)

/-- R394: the core at which an event of a partition is raised. -/
def State.kcoreOf (s : State) (p : Option Nat) : Option Nat :=
  match p with
  | some q =>
    if s.partValid q then some (s.partKcore q)
    else if s.partValid 0 then some (s.partKcore 0) else none
  | none => if s.partValid 0 then some (s.partKcore 0) else none

/-- The valid partitions. -/
def State.validParts (s : State) : List Nat := (List.range 64).filter s.partValid

/-! ## Other fields -/

def State.lqCtl (s : State) (q : Nat) : Word := s.csrAt (0x2000 + 16 * q)
def State.lqEnabled (s : State) (q : Nat) : Bool := wbit (s.lqCtl q) 63
def State.lqPart (s : State) (q : Nat) : Nat := wbits (s.lqCtl q) 59 54
def State.lqPrio (s : State) (q : Nat) : Nat := wbits (s.lqCtl q) 53 52
def State.lqDepth (s : State) (q : Nat) : Nat := wbits (s.lqCtl q) 45 40

/-- SPAREMAP (R338). -/
def State.sparemap (s : State) (cl : Nat) : Word := s.csrAt (0x4070000 + 8 * cl)

/-- R337, R338: the physical core of a coordinate is fenced and no spare serves the coordinate. -/
def State.fenced (s : State) (n : Nat) : Bool :=
  let m := s.sparemap (clusterOf n)
  let spare := wbit m 63 && wbits m 59 56 = posOf n
  if spare then wbit m 62 else wbit m (posOf n)

/-- R380, R381: the firmware column. -/
def State.fwCol (s : State) : Nat := s.csrField 0x40B0000 6 0
def State.inColumn (s : State) (n : Nat) : Bool := coreCol n = s.fwCol
def State.sendOk (s : State) : Bool := wbit (s.csrAt 0x40B0000) 9
/-- R381: an address of the firmware region. -/
def State.inFwRegion (s : State) (la : Nat) : Bool :=
  let b := s.csrField 0x40B0008 37 0
  b ≤ la && la < b + s.csrField 0x40B0010 37 0

/-- A word of a cube-list entry: 16 bits, four to a register (R220). -/
def State.cubeEntry (s : State) (n : Nat) : Nat :=
  let off := 0x8000 + 2 * (n % 65536)
  wbits (s.csrAt (off / 8 * 8)) (8 * (off % 8) + 15) (8 * (off % 8))

/-- The peer word of a cube (R281). -/
def State.peer (s : State) (c : Nat) : Word := s.csrAt (0x4100000 + 8 * c)

end Sys2Proof.Machine
end

