-- ==== Sys2Proof/Machine/Ops.lean ====
section
/-! DEFINITION. The named operations over contexts, registers and slots; the agenda; raising an event at a
core; taking a trap (R307, R308) and returning from one (R309). -/

namespace Sys2Proof.Machine

/-- What a meaning answers. -/
abbrev Out := Host.Outcome State Fault Refusal

/-- A computation that may end the head being executed: it goes on with a value, or the head has trapped or
waits, and the state is final. -/
inductive MRes (α : Type) where
  | ok (a : α) (s : State)
  | stop (s : State)

/-- Go on with the value. -/
def MRes.bind {α β : Type} (m : MRes α) (k : α → State → MRes β) : MRes β :=
  match m with
  | .ok a s => k a s
  | .stop s => .stop s

/-- Go on to a final state. -/
def MRes.fin {α : Type} (m : MRes α) (k : α → State → State) : State :=
  match m with
  | .ok a s => k a s
  | .stop s => s

/-- What a stop leaves, changed. -/
def MRes.stops {α : Type} (m : MRes α) (f : State → State) : MRes α :=
  match m with
  | .ok a s => .ok a s
  | .stop s => .stop (f s)

/-! ## The agenda and the timers -/

/-- Put an event at the end of the agenda. -/
def State.post (s : State) (i : Instr) (a : EvArg) : State :=
  { s with agenda := s.agenda ++ [.event i a] }

/-- Let an event happen `d` cycles from now. -/
def State.after (s : State) (d : Nat) (i : Instr) (a : EvArg) : State :=
  { s with timers := s.timers ++ [(s.now + d, i, a)] }

/-- R6: core cycles in a microsecond and in a nanosecond. -/
def cyclesPerUs : Nat := 4000
def cyclesPerNs : Nat := 4

/-- A fresh number. -/
def State.fresh (s : State) : Nat × State := (s.serial, { s with serial := s.serial + 1 })

/-- The state after a free value has been used. -/
def State.useFree (s : State) : State := { s with free := s.free + 1 }

/-! ## Parts of the state by number -/

def ctxKey (core id : Nat) : Nat := 256 * core + id
def slotKey (core slot : Nat) : Nat := 4 * core + slot

def State.ctx (s : State) (core id : Nat) : Ctx := mget {} s.ctxs (ctxKey core id)
def State.setCtx (s : State) (core id : Nat) (c : Ctx) : State :=
  { s with ctxs := mset {} s.ctxs (ctxKey core id) c }
def State.updCtx (s : State) (core id : Nat) (f : Ctx → Ctx) : State :=
  s.setCtx core id (f (s.ctx core id))

def State.slot (s : State) (core k : Nat) : Slot := mget {} s.slots (slotKey core k)
def State.setSlot (s : State) (core k : Nat) (t : Slot) : State :=
  { s with slots := mset {} s.slots (slotKey core k) t }
def State.updSlot (s : State) (core k : Nat) (f : Slot → Slot) : State :=
  s.setSlot core k (f (s.slot core k))

def State.core (s : State) (n : Nat) : CoreSt := mget {} s.cores n
def State.updCore (s : State) (n : Nat) (f : CoreSt → CoreSt) : State :=
  { s with cores := mupd {} s.cores n f }

def State.cluster (s : State) (n : Nat) : Cluster := mget {} s.clusters n
def State.updCluster (s : State) (n : Nat) (f : Cluster → Cluster) : State :=
  { s with clusters := mupd {} s.clusters n f }

def State.tile (s : State) (n : Nat) : Tile := mget {} s.tiles n
def State.updTile (s : State) (n : Nat) (f : Tile → Tile) : State :=
  { s with tiles := mupd {} s.tiles n f }

def State.dir (s : State) (line : Nat) : DirLine := mget {} s.dirs line
def State.setDir (s : State) (line : Nat) (d : DirLine) : State :=
  { s with dirs := mset {} s.dirs line d }

def agentKey (tile gline : Nat) : Nat := tile * 2 ^ 50 + gline
def State.agent (s : State) (tile gline : Nat) : AgentLine := mget {} s.agents (agentKey tile gline)
def State.setAgent (s : State) (tile gline : Nat) (a : AgentLine) : State :=
  { s with agents := mset {} s.agents (agentKey tile gline) a }

def State.router (s : State) (r : Nat) : Router := mget {} s.routers r
def State.updRouter (s : State) (r : Nat) (f : Router → Router) : State :=
  { s with routers := mupd {} s.routers r f }

def State.port (s : State) (p : Nat) : Port := mget {} s.ports p
def State.updPort (s : State) (p : Nat) (f : Port → Port) : State :=
  { s with ports := mupd {} s.ports p f }

def State.lq (s : State) (q : Nat) : LQueue := mget {} s.lqs q
def State.updLq (s : State) (q : Nat) (f : LQueue → LQueue) : State :=
  { s with lqs := mupd {} s.lqs q f }

def State.group (s : State) (g : Nat) : CollGroup := mget {} s.groups g
def State.updGroup (s : State) (g : Nat) (f : CollGroup → CollGroup) : State :=
  { s with groups := mupd {} s.groups g f }

/-- A barrier group of a core; its reset value is R160's. -/
def State.barrier (s : State) (core g : Nat) : Barrier :=
  match (s.core core).barriers.lookup g with
  | some b => b
  | none => { m := oneCoreRect core, ar := false, ph := false, j := false }

def State.setBarrier (s : State) (core g : Nat) (b : Barrier) : State :=
  s.updCore core (fun c =>
    { c with barriers := if b = { m := oneCoreRect core, ar := false, ph := false, j := false }
        then c.barriers.filter (fun e => e.1 != g)
        else minsert g b (c.barriers.filter (fun e => e.1 != g)) })

/-! ## The context that the head being executed belongs to -/

def State.c (s : State) : Ctx := s.ctx s.cur.core s.cur.ctx
def State.updC (s : State) (f : Ctx → Ctx) : State := s.updCtx s.cur.core s.cur.ctx f
def State.sl (s : State) : Slot := s.slot s.cur.core s.cur.slot
def State.updSl (s : State) (f : Slot → Slot) : State := s.updSlot s.cur.core s.cur.slot f
/-- R306: the privilege level of the slot. -/
def State.level (s : State) : Nat := s.sl.level
def State.clu (s : State) : Nat := clusterOf s.cur.core

/-- The owner under which accesses of the head being executed are known. -/
def headOwner (core ctx : Nat) : Src := { gcid := core, agent := 0, seq := ctx }

/-- Forget the access results that an owner holds. -/
def State.dropMemo (s : State) (o : Src) : State :=
  { s with memos := s.memos.filter (fun m => m.owner != o) }

/-! ## Registers -/

/-- R18: x0 reads zero. -/
def Ctx.getX (c : Ctx) (r : Reg) : Word := if r = 0 then 0 else mget 0 c.x r.toNat
/-- R18: writes to x0 are discarded; a written register has good parity (R344). -/
def Ctx.setX (c : Ctx) (r : Reg) (v : Word) : Ctx :=
  if r = 0 then c
  else { c with x := mset 0 c.x r.toNat v, bad := c.bad.filter (fun b => b != (1, r.toNat)) }

def Ctx.getV (c : Ctx) (r : Reg) : VReg := mget 0 c.v r.toNat
def Ctx.setV (c : Ctx) (r : Reg) (v : VReg) : Ctx :=
  { c with v := mset 0 c.v r.toNat v, bad := c.bad.filter (fun b => b != (2, r.toNat)) }

def Ctx.getM (c : Ctx) (r : BitVec 3) : BitVec 32 := mget 0 c.m r.toNat
def Ctx.setM (c : Ctx) (r : BitVec 3) (v : BitVec 32) : Ctx :=
  { c with m := mset 0 c.m r.toNat v, bad := c.bad.filter (fun b => b != (3, r.toNat)) }

def State.getX (s : State) (r : Reg) : Word := s.c.getX r
def State.setX (s : State) (r : Reg) (v : Word) : State := s.updC (fun c => c.setX r v)
def State.getM (s : State) (r : BitVec 3) : BitVec 32 := s.c.getM r
def State.setM (s : State) (r : BitVec 3) (v : BitVec 32) : State := s.updC (fun c => c.setM r v)

/-! ## The program counter (R14 to R16) -/

/-- H of the line that the context is executing, from its copy of the line (R10). -/
def Ctx.lineH (c : Ctx) : Nat :=
  match c.line with
  | some l => (l.bytes.headD 0).toNat % 32
  | none => 31

/-- The address of the line of a PC. -/
def lineAddr (pc : Word) : Word := pc &&& ~~~0x3F#64

/-- R15: the next PC when a head completes without transferring control. -/
def Ctx.nextPc (c : Ctx) : Word :=
  if wbits c.pc 5 1 < c.lineH then c.pc + 2 else lineAddr c.pc + 0x42

/-- R16: the target of a T32.B tail. -/
def Ctx.target (c : Ctx) (t : BTarget) : Word :=
  lineAddr c.pc + 64 * sx t.delta + 2 * zx t.idx

/-- The head is complete: its wait and the results of its accesses are forgotten. -/
def State.headDone (s : State) : State :=
  { (s.updC (fun c => { c with wait := none, st := .running })).dropMemo (headOwner s.cur.core s.cur.ctx) with
    accs := 0 }

/-- The head completes and the PC moves on under R15. A new line is fetched afresh. -/
def State.advance (s : State) : State :=
  (s.updC (fun c => { c with pc := c.nextPc })).headDone

/-- The head completes and control is transferred; the next head is fetched afresh (R173). -/
def State.jump (s : State) (pc : Word) : State :=
  (s.updC (fun c => { c with pc := pc, line := none })).headDone

/-! ## Trap entry and return (R306 to R312) -/

/-- The KSTATUS or FSTATUS after a trap from level `lvl` (R308); PL is one bit wide in KSTATUS and two in
FSTATUS (R310). -/
def statusOnTrap (p : Nat) (lvl : Nat) (st : Word) : Word :=
  let st1 := setBits st 1 1 (wbits st 0 0)
  let st2 := if p = 2 then setBits st1 3 2 lvl else setBits st1 2 2 lvl
  setBits st2 0 0 0

/-- R311: the cause word. -/
def causeWord (async dbl : Bool) (sub code : Nat) : Word :=
  BitVec.ofNat 64 ((if async then 2 ^ 63 else 0) + (if dbl then 2 ^ 62 else 0) + sub % 256 * 256 + code % 256)

/-- R308: the entry of a trap at level `p` (1 kernel, 2 firmware), in slot `k` of a core. -/
def State.enterTrap (s : State) (core k p : Nat) (async dbl : Bool) (sub code : Nat) (epc tval : Word) : State :=
  let t := s.slot core k
  let save := fun (r : TrapRegs) =>
    { r with epc := epc, cause := causeWord async dbl sub code, tval := tval,
             status := statusOnTrap p t.level r.status }
  let base := if p = 2 then (s.core core).fvbase else (s.core core).kvbase
  let t1 := { t with depth := t.depth + 1 }
  let t' := if p = 2 then { t1 with f := save t.f, level := 2 } else { t1 with k := save t.k, level := 1, csw := none }
  let s1 := s.setSlot core k t'
  match t.ctx with
  | some id => s1.updCtx core id (fun c =>
      { c with pc := base + BitVec.ofNat 64 (64 * code + 2), line := none, wait := none, st := .running })
  | none => s1

/-- R307: the level at which a synchronous trap is taken: 1, 2, or 0 when the slot stops. -/
def trapLevel (t : Slot) : Nat :=
  if t.level = 0 then 1
  else if t.level = 1 then (if wbit t.k.status 0 then 1 else 2)
  else if wbit t.f.status 0 then 2 else 0

/-- R260: a context is no longer reading a protocol image. -/
def State.loadOver (s : State) (core id : Nat) : State :=
  { s with ptloads := s.ptloads.filter (fun e => !(e.2.1 = core && e.2.2.1 = id)) }

/-- A synchronous trap of the head being executed (R307, R308, R319). -/
def State.trapFull (s : State) (sub code : Nat) (epc tval : Word) : State :=
  let t := s.sl
  let s0 := { (s.dropMemo (headOwner s.cur.core s.cur.ctx)).loadOver s.cur.core s.cur.ctx with accs := 0 }
  match trapLevel t with
  | 0 =>
    (s0.updSl (fun t => { t with stopped := true })).updC (fun c => { c with st := .stopped, wait := none })
  | p => s0.enterTrap s.cur.core s.cur.slot p false (p = 2 && t.level = 1) sub code epc tval

/-- A synchronous trap with KEPC the PC of the head (R319). -/
def State.trap (s : State) (code : Nat) (tval : Word) : State := s.trapFull 0 code s.c.pc tval

/-! ## Events at cores (R314, R315) -/

/-- R314: the cause code of a source. -/
def sourceCause (src : Nat) : Nat :=
  match src with
  | 0 => 0x11 | 1 => 0x20 | 2 => 0x21 | 3 => 0x22 | _ => 0x23

/-- R315: an event enters the core's event queue of 32 entries, or is held by the agent that raises it and
offered again. -/
def State.raise (s : State) (core : Nat) (e : CoreEvent) : State :=
  if (s.core core).events.length < 32 then
    s.updCore core (fun c => { c with events := c.events ++ [e] })
  else
    (s.updCore core (fun c => { c with eventsHeld := c.eventsHeld ++ [e] })).post .eventReoffer { x := core }

/-- R394: an event raised at the kernel core of a partition; discarded when entry 0 is not valid either. -/
def State.raiseAt (s : State) (p : Option Nat) (e : CoreEvent) : State :=
  match s.kcoreOf p with
  | some n => s.raise n e
  | none => s

/-- An event of source 4, cause 0x23 (R311). -/
def event23 (sub : Nat) (tval : Word) : CoreEvent := { source := 4, sub := sub, tval := tval, slot := 0 }

/-- R349: an event of SUB 5: the kind in KTVAL[63:56]. -/
def event5 (kind low : Nat) : CoreEvent := event23 5 (BitVec.ofNat 64 (kind * 2 ^ 56 + low))

/-! ## Waiting heads -/

/-- The waits that R188 lists, which show as blocked. -/
def WKind.blocks : WKind → Bool
  | .clusterSem | .cubeSem | .barrier | .recv | .fullEmpty | .send | .engineQueue | .bounceSlot
  | .launchQueue => true
  | _ => false

/-- The head being executed waits: it stays at its PC. A head that is issued again keeps the time of its first
issue and the number of its refusals (R80, R188). -/
def State.stall (s : State) (w : Wait) : State :=
  let c := s.c
  let w0 := { w with pc := c.pc, next := c.nextPc, since := s.now,
                     limit := (s.core s.cur.core).waitlim.toNat, level := s.level }
  let w1 := match c.wait with
    | some o => { w0 with since := o.since, limit := o.limit, refusals := o.refusals }
    | none => w0
  let st1 := if w.kind.blocks then CState.blocked else CState.running
  { (s.updC (fun c => { c with wait := some w1, st := st1 })) with accs := 0 }

/-- A slot holds the context. -/
def State.holds (s : State) (core id : Nat) : Bool := (List.range 4).any (fun k => (s.slot core k).ctx = some id)

/-- R186, R194: a context without a slot becomes ready, after those that have become ready before it. -/
def State.becomeReady (s : State) (core id : Nat) : State :=
  ({ s with serial := s.serial + 1 } : State).updCtx core id (fun c =>
    { c with st := .readyParked, readyAt := s.now, readyOrd := s.serial })

/-- R81, R175: a result has come for a context whose scalar image lies in the overflow area. -/
def Ctx.late (c : Ctx) : Ctx := if c.sbank = .overflow then { c with imageStale := true } else c

/-- The head of a context that is not being executed completes: its wait ends, the PC is the next one, and a
context without a slot becomes ready (R186). A context in a handler takes the result up when it returns. -/
def State.wake (s : State) (core id : Nat) (f : Ctx → Ctx) : State :=
  match (s.ctx core id).wait with
  | some w =>
    let s1 := s.updCtx core id (fun c => { (f { c with pc := w.next, wait := none }).late with st := .running })
    if s.holds core id then s1 else s1.becomeReady core id
  | none => s

/-- The head of a context that is not being executed is to be issued again. -/
def State.reissue (s : State) (core id : Nat) : State :=
  if s.holds core id then s.updCtx core id (fun c => { c with st := .running }) else s.becomeReady core id

/-! ## Reading operands (R344, R318) -/

/-- The kinds of register of R344. -/
inductive RRef where
  | x (r : Reg)
  | v (r : Reg)
  | m (r : BitVec 3)
  deriving DecidableEq, Repr

def RRef.code : RRef → Nat × Nat
  | .x r => (1, r.toNat)
  | .v r => (2, r.toNat)
  | .m r => (3, r.toNat)

/-- R344: the KTVAL of a register whose parity fails. -/
def parityTval (kind num : Nat) : Word := BitVec.ofNat 64 (0xE000000000000000 + kind * 256 + num)

/-- R344: the first of the registers read whose parity fails. x0 is no storage. -/
def Ctx.badAmong (c : Ctx) (rs : List RRef) : Option (Nat × Nat) :=
  (rs.map RRef.code).find? (fun k => k != (1, 0) && c.bad.contains k)

/-- R318: a register that a waiting head of the same context will still write. -/
def Ctx.hungOn (c : Ctx) (rs : List RRef) : Bool :=
  c.hung.any (fun w => w.got = none &&
    ((w.d != 0 && rs.contains (.x w.d)) || (w.rk = .cas16 && rs.contains (.x (w.d + 1)))))

/-- R345, R347: the head being executed met an error of core `owner` at `pl`. The core is tested, and the
outcome of the access, a trap with cause 0x12, comes after the test, when the head next issues. -/
def State.coreError (s : State) (owner : Nat) (pl : Place) (tval : Word) : State :=
  let s1 := (s.updCore owner (fun c => { c with testing := true })).post .errorDetected
    { x := 1, body := .place pl }
  s1.stall { kind := .response, what := owner, thr := tval.toNat, got := some (.fail 0x12) }

/-- The place of a register whose parity fails. -/
def regPlace (core ctx kind num : Nat) : Place :=
  match kind with
  | 1 => .scalarReg core ctx num
  | 2 => .vectorReg core ctx num
  | 3 => .maskReg core ctx num
  | _ => .pobBlock core ctx

/-- The head reads the registers `src` and writes `dst`: a failed parity traps with cause 0x12 (R344) once
the core has been tested (R347), and a register that an unanswered access will write makes the head wait (R318). -/
def State.withRegs (s : State) (src dst : List RRef) (k : State → State) : State :=
  if s.c.hungOn (src ++ dst) then s.stall { kind := .operand }
  else
    match s.c.badAmong src with
    | some (kind, num) =>
      s.coreError s.cur.core (regPlace s.cur.core s.cur.ctx kind num) (parityTval kind num)
    | none => k s

/-- R74, R86, R318: accesses of the thread's earlier heads that an interrupt has left under way: a response that has not come,
or stores of a vector operation that can still be performed. -/
def Ctx.ownPending (c : Ctx) : Bool :=
  (!c.rest.isEmpty && !c.bad.contains (4, 0)) ||
    c.hung.any (fun h => (h.kind = .response || h.kind = .backoff) && h.got = none)

/-- R74, R86, R168, R230: the head goes on once the thread's earlier accesses have been performed: every access of memory and
every release in a handler comes after those that its interrupt left under way. -/
def State.afterOwn (s : State) (k : State → State) : State :=
  if s.c.ownPending then s.stall { kind := .own } else k s

/-- R29 step 5: a head below its instruction's level traps with cause 0x03. -/
def State.withLevel (s : State) (i : Instr) (k : State → State) : State :=
  if s.level < i.level then s.trap 0x03 i.tval else k s

end Sys2Proof.Machine
end

