-- ==== Sys2Proof/Machine/Memory.lean ====
section
/-! DEFINITION. Addresses (R217 to R224): canonical form, the local window, the stripe map, the vault
interleave; raw DRAM and local memory; peer checks (R272, R282). -/

namespace Sys2Proof.Machine

/-! ## Virtual addresses (R217, R218) -/

/-- R217: bits [63:57] all equal bit 56. -/
def canonical (va : Word) : Bool := (va.extractLsb' 0 57).signExtend 64 = va

def winBase : Nat := 0x7F0000000000
/-- R218: an address of the local window. -/
def inWindow (va : Word) : Bool := winBase ≤ va.toNat && va.toNat < winBase + 0x80000
/-- R218: the window offset. -/
def winOff (va : Word) : Nat := va.toNat - winBase

/-- The key of a local-memory byte: the cluster and the window offset. -/
def lmemKey (cl off : Nat) : Nat := cl * 0x80000 + off
/-- R218: the core whose local memory holds a window offset. -/
def lmemCore (cl off : Nat) : Nat := coreAt cl (off / 0x8000)

/-! ## The vault interleave (R224) -/

/-- R224: the home tile of a cube-local address. -/
def homeTile (la : Nat) : Nat :=
  bitsOf la 18 13 ^^^ bitsOf la 24 19 ^^^ bitsOf la 30 25 ^^^ bitsOf la 36 31 ^^^ bitsOf la 37 37
/-- R224: the vault offset. -/
def vaultOff (la : Nat) : Nat := bitsOf la 37 19 * 2 ^ 13 + bitsOf la 12 0
/-- R224: the bus that serves an address: 0 A, 1 B. -/
def busOf (la : Nat) : Nat := bitsOf (vaultOff la) 31 31

/-- R224, R365: the half-vault of an address is retired. -/
def State.retired (s : State) (la : Nat) : Bool :=
  wbit (s.csrAt (if busOf la = 0 then 0x4090000 else 0x4090008)) (homeTile la)

/-- The offset of the register block of a bus (R362). -/
def vbOff (v b : Nat) : Nat := 0x4080000 + 0x200 * (2 * v + b)
/-- R345: a wire of a bus is being tested. -/
def State.wireTesting (s : State) (v b : Nat) : Bool :=
  s.tests.any (fun t => match t.place with
    | .wire w c _ => w = v && c = b
    | _ => false)

/-- R363, R345: the bus of an address is paused. -/
def State.paused (s : State) (la : Nat) : Bool :=
  wbit (s.csrAt (vbOff (homeTile la) (busOf la))) 61 || s.wireTesting (homeTile la) (busOf la)

/-- R144: the core that owns the data of a cube-local address. -/
def ownerCore (la : Nat) : Nat :=
  let c := bitsOf la 20 13 ^^^ bitsOf la 28 21
  let t := homeTile la
  mkCore (16 * (t / 8) + c / 16) (16 * (t % 8) + c % 16)

/-! ## Cubes (R272, R282) -/

/-- R272: whether a cube id is valid. -/
def State.validCube (s : State) (c : Nat) : Bool :=
  let r := s.csrAt 0x4050300
  match wbits r 63 62 with
  | 1 => bitsOf c 4 0 ≤ wbits r 47 43 && bitsOf c 9 5 ≤ wbits r 42 38 && bitsOf c 13 10 ≤ wbits r 37 34
  | 2 =>
    let g := bitsOf c 13 3
    g = bitsOf s.self 13 3 ||
      (g ≤ 40 && wbit (s.csrAt (0x4050308 + 8 * (g / 16))) (4 * (g % 16) + 3))
  | _ => c = s.self

/-- R282: whether a packet of a partition may leave for a cube; firmware level skips the peer word. -/
def State.peerAllows (s : State) (c : Nat) (part : Option Nat) (level : Nat) : Bool :=
  c = s.self ||
    (s.validCube c && (level = 2 || (match part with
      | some p => wbit (s.peer c) p
      | none => false)))

/-! ## The stripe map (R219 to R222) -/

def regionOff (r w : Nat) : Nat := 0x3000 + 16 * r + 8 * w

/-- R219: GSH of a region entry. R219 prints [50:46] beside a range of 12 to 32, and R383 writes 32, so that
the field is read as the six bits [51:46] (DEDUCED, log entry 10). -/
def regionGsh (w0 : Word) : Nat := wbits w0 51 46

/-- R219, R176: the entry is valid and does not act as invalid. -/
def State.regionOk (s : State) (r : Nat) : Bool :=
  let w0 := s.csrAt (regionOff r 0)
  wbit w0 63 && 12 ≤ regionGsh w0 && regionGsh w0 ≤ 32 && r != 0xFF

def State.regionPart (s : State) (r : Nat) : Nat := wbits (s.csrAt (regionOff r 0)) 61 56

/-- R221: the stripe unit, but for the partition check. `none` is a refusal. -/
def State.stripe (s : State) (gpa : Nat) : Option Home :=
  let r := bitsOf gpa 55 48
  let w0 := s.csrAt (regionOff r 0)
  let w1 := s.csrAt (regionOff r 1)
  let o := bitsOf gpa 47 0
  if !s.regionOk r then none
  else
    let gsh := regionGsh w0
    let chunk := o / 2 ^ gsh
    let n := wbits w0 45 32 + 1
    let sl := chunk % n
    let row := chunk / n
    if wbits w0 31 0 ≤ row then none
    else
      let list := wbits w1 15 0
      let mir := wbit w0 62
      let pe := s.cubeEntry (if mir then list + 2 * sl else list + sl)
      let me := s.cubeEntry (list + 2 * sl + 1)
      let la := wbits w1 53 16 + row * 2 ^ gsh + o % 2 ^ gsh
      if 2 ^ 38 ≤ la then none
      else
        let pdown := bitsOf pe 15 15 = 1
        let mok := mir && bitsOf me 15 15 = 0
        if !pdown then
          some { cube := bitsOf pe 13 0, mirror := if mok then some (bitsOf me 13 0) else none, la := la }
        else if mok then some { cube := bitsOf me 13 0, mirror := none, la := la }
        else none

/-- R221 with the partition check: the access of an ASID at a level. -/
def State.stripeFor (s : State) (gpa asid level : Nat) : Option Home :=
  match s.stripe gpa with
  | none => none
  | some h =>
    let part := s.partOfAsid asid
    if level < 2 && part != some (s.regionPart (bitsOf gpa 55 48)) then none
    else if s.peerAllows h.cube part level then some h
    else none

/-! ## DRAM -/

def State.dramRead (s : State) (la n : Nat) : List Byte := readBytes 0 s.dram la n
def State.dramWrite (s : State) (la : Nat) (bs : List Byte) : State :=
  { s with dram := writeBytes 0 s.dram la bs }
def State.feBit (s : State) (la : Nat) : Bool := mget true s.fe (la / 8)
def State.setFe (s : State) (la : Nat) (b : Bool) : State :=
  { s with fe := mset true s.fe (la / 8) b }
def State.poisoned (s : State) (la : Nat) : Bool := mget false s.poison (la / 64)
def State.setPoison (s : State) (la : Nat) (b : Bool) : State :=
  { s with poison := mset false s.poison (la / 64) b }

/-! ## Local memory (R218, R336, R344) -/

def State.lmemBytes (s : State) (cl off n : Nat) : List Byte := readBytes 0 s.lmem (lmemKey cl off) n

/-- The words of 32 bits that `n` bytes at an offset touch, as keys. -/
def lmemWords (cl off n : Nat) : List Nat :=
  (List.range ((off + n + 3) / 4 - off / 4)).map (fun i => lmemKey cl off / 4 + i)

/-- The key of the word that LMINJ names (R335). -/
def State.injKey (s : State) : Nat :=
  let r := s.csrAt 0x4072000
  let core := wbits r 45 32
  (lmemKey (clusterOf core) (posOf core * 0x8000)) / 4 + wbits r 12 0

def State.injArmed (s : State) : Bool := wbit (s.csrAt 0x4072000) 63 && s.lmInjLive

/-- R336: an armed read fires: ARM is cleared and FIRED set; with STUCK the word stays bad. -/
def State.injFire (s : State) : State :=
  let r := s.csrAt 0x4072000
  let s1 := s.setCsr 0x4072000 (setBits (setBits r 63 63 0) 62 62 1)
  if wbit r 61 then { s1 with lmemBad := (s.injKey, true) :: s1.lmemBad.filter (fun e => e.1 != s.injKey) }
  else s1

/-- A read of local memory: the bytes, or `none` and the core and word whose data is uncorrectable. -/
def State.lmemRead (s : State) (cl off n : Nat) : Option (List Byte) × Nat × State :=
  let ws := lmemWords cl off n
  if s.injArmed && ws.contains s.injKey then (none, s.injKey, s.injFire)
  else
    match ws.find? (fun w => (s.lmemBad.lookup w).isSome) with
    | some w => (none, w, s)
    | none => (some (s.lmemBytes cl off n), 0, s)

/-- A store to local memory; a whole word written gets good parity unless it is stuck (R335). -/
def State.lmemWrite (s : State) (cl off : Nat) (bs : List Byte) : State :=
  let k := lmemKey cl off
  { s with lmem := writeBytes 0 s.lmem k bs,
           lmemBad := s.lmemBad.filter (fun e => e.2 || !(k ≤ 4 * e.1 && 4 * e.1 + 4 ≤ k + bs.length)) }

/-- The place of a local-memory word by its key. -/
def lmemPlace (w : Nat) : Place :=
  .localWord (lmemCore (w / 0x20000) (w % 0x20000 * 4)) (w % 0x2000)

/-- R381: an access below firmware level to the local memory of a column core. -/
def State.fwBlocks (s : State) (cl off level : Nat) : Bool :=
  level < 2 && s.inColumn (lmemCore cl off)

/-- R189: an access at user level to the carve-out of a core of the cluster. -/
def State.carveBlocks (s : State) (cl off n level : Nat) : Bool :=
  level = 0 && (List.range 16).any (fun q =>
    let c := s.core (coreAt cl q)
    let base := c.spillptr.toNat - winBase
    c.carve != 0 && inWindow c.spillptr && off < base + 256 * c.carve && base < off + n)

/-! ## The control space (R303) -/

/-- R303: a GPA of the control space of a cube: the cube and the offset. -/
def ctlOf (gpa : Nat) : Option (Nat × Nat) :=
  if bitsOf gpa 55 48 = 0xFF && bitsOf gpa 47 41 = 0 then some (bitsOf gpa 40 27, bitsOf gpa 26 0) else none

end Sys2Proof.Machine
end

