-- ==== Sys2Proof/Machine/Sems.lean ====
section
/-! DEFINITION. Semaphores of clusters and of the cube (R155 to R159): value, addition with saturation, and
release of waiters. -/

namespace Sys2Proof.Machine

/-- A semaphore space: a cluster's, or the cube's. -/
inductive Space where
  | cluster (cl : Nat)
  | cube
  deriving DecidableEq, Repr

def State.sem (s : State) (sp : Space) (n : Nat) : Word :=
  match sp with
  | .cluster cl => mget 0 (s.cluster cl).sems n
  | .cube => mget 0 s.cubeSems n

def State.setSem (s : State) (sp : Space) (n : Nat) (v : Word) : State :=
  match sp with
  | .cluster cl => s.updCluster cl (fun c => { c with sems := mset 0 c.sems n v })
  | .cube => { s with cubeSems := mset 0 s.cubeSems n v }

/-- The waiters of a space in arrival order: semaphore, core, context. -/
def State.semWaiters (s : State) (sp : Space) : List (Nat × Nat × Nat) :=
  match sp with
  | .cluster cl => (s.cluster cl).waiters
  | .cube => s.cubeWaiters

def State.setSemWaiters (s : State) (sp : Space) (l : List (Nat × Nat × Nat)) : State :=
  match sp with
  | .cluster cl => s.updCluster cl (fun c => { c with waiters := l })
  | .cube => { s with cubeWaiters := l }

/-- The waiting threshold and destination of a context. -/
def State.waitThr (s : State) (core id : Nat) : Option (Nat × Reg) :=
  (s.ctx core id).wait.map (fun w => (w.thr, w.d))

/-- R157, R159: every waiter whose threshold is reached is released in arrival order and receives S. -/
def State.semRelease (s : State) (sp : Space) (n : Nat) : State :=
  let v := s.sem sp n
  let hit := fun (e : Nat × Nat × Nat) =>
    e.1 = n && (match s.waitThr e.2.1 e.2.2 with
      | some (thr, _) => thr ≤ v.toNat
      | none => true)
  let l := s.semWaiters sp
  let s1 := s.setSemWaiters sp (l.filter (fun e => !hit e))
  (l.filter hit).foldl (fun t e =>
    match s.waitThr e.2.1 e.2.2 with
    | some (_, d) => t.wake e.2.1 e.2.2 (fun c => c.setX d v)
    | none => t) s1

/-- R158: the code of a space in KTVAL. -/
def Space.code : Space → Nat
  | .cluster _ => 0
  | .cube => 1

/-- R158: a saturation is recorded in SEMERR and raises cause 0x23 at `core`. -/
def State.semSaturated (s : State) (sp : Space) (n core : Nat) : State :=
  let cl := match sp with
    | .cluster c => c
    | .cube => clusterOf core
  let mark := fun (w : Word) => match sp with
    | .cluster _ => setBits (setBits w 24 24 1) 15 8 n
    | .cube => setBits (setBits w 25 25 1) 23 16 n
  (s.updCluster cl (fun c => { c with semerr := mark c.semerr })).raise core
    (event23 1 (BitVec.ofNat 64 (0x4000000000000000 + sp.code * 256 + n)))

/-- R157: the addition of a value that is not negative; `core` is where a saturation is raised. -/
def State.semAdd (s : State) (sp : Space) (n v core : Nat) : State :=
  let old := (s.sem sp n).toNat
  if 2 ^ 64 - 1 < old + v then
    ((s.setSem sp n (BitVec.allOnes 64)).semSaturated sp n core).semRelease sp n
  else (s.setSem sp n (BitVec.ofNat 64 (old + v))).semRelease sp n

/-- R158: an addition by a delivery or a launch: raised at the kernel core of the partition that owns the
semaphore, and discarded with it when there is none (R394). -/
def State.semAddOwned (s : State) (n v : Nat) : State :=
  let old := (s.sem .cube n).toNat
  match s.kcoreOf (s.partOfSem n) with
  | some k => s.semAdd .cube n v k
  | none =>
    (s.setSem .cube n (if 2 ^ 64 - 1 < old + v then BitVec.allOnes 64 else BitVec.ofNat 64 (old + v))).semRelease
      .cube n

end Sys2Proof.Machine
end

