-- ==== Sys2Proof/Machine/Protocol.lean ====
section
/-! DEFINITION. The Lovage engine (R240 to R262): range tables, protocol images, the home table, the agent
table, and what hardware does around them. Messages travel as events on the agenda. -/

namespace Sys2Proof

/-- R242: event codes. -/
def Ev.code : Ev → Nat
  | .ld => 0 | .st => 1 | .evict => 2 | .pfw => 3 | .wbl => 4 | .dropl => 5 | .amol => 6 | .putn => 7
  | .gets => 8 | .getx => 9 | .putr => 0xA | .wbr => 0xB | .uread => 0xC | .uwrite => 0xD | .amor => 0xE
  | .dropr => 0xF | .recall => 0x10
  | .inv => 0x14 | .rcls => 0x15 | .rcli => 0x16 | .upd => 0x17 | .putg => 0x18 | .disc => 0x19
  | .dats => 0x1A | .datx => 0x1B | .datu => 0x1C | .ack => 0x1D | .dath => 0x1E | .ackh => 0x1F
  | .nack => 0x11 | .flt => 0x12

/-- The row of the step table that an event is. LOC events are no rows; they happen inside others. -/
def Ev.instr : Ev → Instr
  | .gets => .gets | .getx => .getx | .putr => .putr | .wbr => .wbr | .uread => .uread | .uwrite => .uwrite
  | .amor => .amor | .dropr => .dropr | .recall => .recall | .inv => .inv | .rcls => .rcls | .rcli => .rcli
  | .upd => .upd | .putg => .putg | .disc => .disc | .dats => .dats | .datx => .datx | .datu => .datu
  | .ack => .ack | .dath => .dath | .ackh => .ackh | .putn => .putn | .nack => .nack | .flt => .flt
  | _ => .nop

/-- The event that a row of the step table is. -/
def evOf : Instr → Option Ev
  | .gets => some .gets | .getx => some .getx | .putr => some .putr | .wbr => some .wbr
  | .uread => some .uread | .uwrite => some .uwrite | .amor => some .amor | .dropr => some .dropr
  | .recall => some .recall | .inv => some .inv | .rcls => some .rcls | .rcli => some .rcli
  | .upd => some .upd | .putg => some .putg | .disc => some .disc | .dats => some .dats
  | .datx => some .datx | .datu => some .datu | .ack => some .ack | .dath => some .dath
  | .ackh => some .ackh | .putn => some .putn | .nack => some .nack | .flt => some .flt
  | _ => none

/-- The events that bring response data, which FILL installs (R249); with any other it installs nothing. -/
def Ev.brings (ev : Ev) : Bool := ev = .dats || ev = .datx || ev = .datu

def EvBody.theMsg : EvBody → Msg
  | .msg m => m
  | _ => {}

/-- R274: the class of an event's message: 0 REQ, 1 FWD, 2 RSP. -/
def Ev.cls (e : Ev) : Nat :=
  if e.code = 0x07 || 0x1A ≤ e.code then 2
  else if 0x14 ≤ e.code then 1
  else if e = .nack || e = .flt then 2 else 0

/-- The signed or unsigned value of a load of a type (R73). -/
def MTy.size : MTy → Nat
  | .s8 | .z8 => 1 | .s16 | .z16 => 2 | .s32 | .z32 => 4 | .s64 | .z64 => 8

def MTy.conv (t : MTy) (v : Nat) : Word :=
  match t with
  | .s8 => sx (BitVec.ofNat 8 v) | .s16 => sx (BitVec.ofNat 16 v) | .s32 => sx (BitVec.ofNat 32 v)
  | .s64 => BitVec.ofNat 64 v
  | .z8 => zx (BitVec.ofNat 8 v) | .z16 => zx (BitVec.ofNat 16 v) | .z32 => zx (BitVec.ofNat 32 v)
  | .z64 => BitVec.ofNat 64 v

/-- R163: the new word of an AMO on words of `w` bits. -/
def AOp.apply (op : AOp) (w : Nat) (m y : Nat) : Nat :=
  let sm := (BitVec.ofNat w m).toInt
  let sy := (BitVec.ofNat w y).toInt
  let ym := y % 2 ^ w
  match op with
  | .add => (m + y) % 2 ^ w
  | .and => m &&& ym
  | .or => m ||| ym
  | .xor => m ^^^ ym
  | .min => if sm ≤ sy then m else ym
  | .max => if sm < sy then ym else m
  | .minZ => if m ≤ ym then m else ym
  | .maxZ => if m < ym then ym else m
  | .swap => ym

def AtomOp.len : AtomOp → Nat
  | .amo _ w _ => if w then 8 else 4
  | .cas w _ _ => if w then 8 else 4
  | .cas16 _ _ => 16
  | .fe _ _ => 8
  | .jdec _ _ => 64

/-- The new value of an atomic on the word's old value; `none` leaves memory alone. -/
def AtomOp.new (op : AtomOp) (old : Nat) : Option Nat :=
  match op with
  | .amo o w y => some (o.apply (if w then 64 else 32) old y)
  | .cas w cmp new => if old = cmp % 2 ^ (if w then 64 else 32) then some (new % 2 ^ (if w then 64 else 32)) else none
  | .cas16 cmp new => if old = cmp then some new else none
  | .fe f y => match f with
    | .stef | .stsf | .stse => some y
    | _ => none
  | .jdec _ _ => none

/-- R77: the bit that the form waits for, and the bit it leaves (none: unchanged). -/
def FeOp.needs : FeOp → Option Bool
  | .ldff | .ldfe => some true
  | .stef => some false
  | _ => none
def FeOp.leaves : FeOp → Option Bool
  | .ldfe | .stse => some false
  | .stef | .stsf => some true
  | _ => none

/-- R286: the operand of an atomic; a CAS holds its new value above its compare value. -/
def AtomOp.operand : AtomOp → Nat
  | .amo _ _ y => y
  | .cas w cmp new => cmp + new * 2 ^ (if w then 64 else 32)
  | .cas16 cmp new => cmp + new * 2 ^ 128
  | .fe _ y => y
  | .jdec n _ => n

/-- R286: the bits of the word that an atomic acts on. -/
def AtomOp.width (op : AtomOp) : Nat :=
  match op with
  | .jdec _ _ => 64
  | o => 8 * o.len

/-- The constituents of an atomic request; an uncombined request is its own only one. -/
def Msg.constituents (m : Msg) : List Constituent :=
  match m.cons with
  | [] => [{ src := m.src, operand := (m.op.map AtomOp.operand).getD 0, reply := true }]
  | l => l

/-- The agent of a request's source, as messages name it. -/
def Src.agentId (x : Src) : Nat := x.gcid / 16384 * 64 + Machine.tileOf (x.gcid % 16384)

/-- R274: requests that keep their order: the accesses of device pages and of a control space. The table names no path for
an update of a mirror; the model sends it as an ordered request (DESIGN CHOICE, log entry 78). -/
def Msg.ordered (m : Msg) : Bool := m.tag = 3 || m.device || bitsOf m.gpa 55 48 = 0xFF

/-- The identity under which a message travels: an update of a mirror is a request of its home (R356). -/
def Msg.sender (m : Msg) : Src := if m.tag = 3 then m.own else m.src

end Sys2Proof

namespace Sys2Proof.Machine

/-! ## Images (R245 to R247) -/

def State.image (s : State) (slot : Nat) : Option (List Byte) :=
  match mget [] s.images slot with
  | [] => none
  | b => some b

def le32 (bs : List Byte) (off : Nat) : Nat := leNat ((bs.drop off).take 4)
def le16 (bs : List Byte) (off : Nat) : Nat := leNat ((bs.drop off).take 2)

/-- R245: an entry and a state attribute of the home or agent table. -/
def imgEntry (img : List Byte) (agent : Bool) (st ev : Nat) : Nat :=
  le32 img ((if agent then 0x880 else 0x80) + 128 * st + 4 * ev)
def imgAttr (img : List Byte) (agent : Bool) (st : Nat) : Nat :=
  le16 img ((if agent then 0x60 else 0x40) + 2 * st)
def imgProtid (img : List Byte) : Nat := le32 img 4

def State.protid (s : State) (slot : Nat) : Nat :=
  match s.image slot with
  | some i => imgProtid i
  | none => 0

/-- R246: the parts of a defined entry. -/
def entNext (e : Nat) : Nat := bitsOf e 3 0
def entActs (e : Nat) : List Nat :=
  [bitsOf e 9 4, bitsOf e 15 10, bitsOf e 21 16, bitsOf e 27 22].filter (fun a => a != 0)
def entDisp (e : Nat) : Nat := bitsOf e 29 28

def attrStable (a : Nat) : Bool := bitsOf a 1 1 = 1
def attrOwnv (a : Nat) : Bool := bitsOf a 6 6 = 1
def attrShv (a : Nat) : Bool := bitsOf a 7 7 = 1
def attrSame (a : Nat) : Bool := bitsOf a 8 8 = 1

/-! ## Ranges (R240) -/

/-- R240: the slot of a line at its home: the entry that covers its GPA, or slot 0. -/
def State.rangeSlot (s : State) (tile gpa : Nat) : Nat :=
  match (s.tile tile).ranges.find? (fun e => e.2.base ≤ gpa && gpa < e.2.base + 2 ^ e.2.k) with
  | some e => e.2.slot
  | none => 0

/-! ## Sending -/

/-- This cube's agent of a tile, as messages name it. -/
def State.agentId (s : State) (tile : Nat) : Nat := s.self * 64 + tile

/-- The packet of a message to a cube and tile: of all messages only requests may be ordered (R274). -/
def cohPacket (cube tile : Nat) (ev : Ev) (m : Msg) : NetPkt :=
  ⟨cube * 16384 + tileCore tile, m.sender, ev.cls, ev.cls = 0 && m.ordered, 0, 0, 0, .coh ev m⟩

/-- A message goes to a cube and tile: on this cube it is the next event there, else it travels by the
routers (R275, R276). -/
def State.sendMsg (s : State) (cube tile : Nat) (ev : Ev) (m : Msg) : State :=
  if cube = s.self then s.post ev.instr { body := .msg m }
  else s.post .packetRoute { x := 64, body := .net (cohPacket cube tile ev m) }

/-! ## Request numbers and the source's list (R283, R284) -/

/-- R283: a request number is not used again within 600 µs. -/
def reuseTime : Nat := 600 * cyclesPerUs

/-- R283: whether the next number of an agent may be used. -/
def Seq20.isFree (q : Seq20) (now : Nat) : Bool :=
  q.laps = 0 || !(q.used.any (fun e => e.1 = q.next && now < e.2 + reuseTime))

/-- R283: the next number is used. -/
def Seq20.take (q : Seq20) (now : Nat) : Seq20 :=
  let kept := if q.next = 0 then q.used.filter (fun e => now < e.2 + reuseTime) else q.used
  { next := (q.next + 1) % 2 ^ 20, laps := if q.next + 1 = 2 ^ 20 then q.laps + 1 else q.laps,
    used := (q.next, now) :: kept }

/-- The agents that number requests (R273, R283): the interface of a core, the copy engine and the collective port of a
cluster, and the L2 slice of a tile, which is named by core 1 of its tile (log entry 24). -/
inductive Numberer where
  | core (n : Nat)
  | copy (cl : Nat)
  | coll (cl : Nat)
  | slice (tile : Nat)
  deriving DecidableEq, Repr

/-- R283: whether the vault controller of a tile may use its next number now. -/
def State.homeFree (s : State) (tile : Nat) : Bool := (s.tile tile).reqSeq.isFree s.now

/-- Who numbers a request: the slice those that it makes for cached lines, else the agent whose access it is. -/
def numbererOf (ev : Ev) (m : Msg) : Numberer :=
  if m.tag != 2 && (ev = .gets || ev = .getx || ev = .putr || ev = .wbr || ev = .dropr) then .slice (m.agent % 64)
  else
    match m.own.agent % 16 with
    | 0 => .core m.own.gcid
    | 1 => .copy m.own.gcid
    | 2 => .coll m.own.gcid
    | 3 => .coll m.own.gcid
    | _ => .slice (m.agent % 64)

/-- R283: whether the agent's next number may be used now. -/
def State.numberFree (s : State) (a : Numberer) : Bool :=
  match a with
  | .core n => !((s.core n).seqLog.any (fun e => e.1 = (s.core n).spawnSeq && s.now < e.2 + reuseTime))
  | .copy cl => (s.cluster cl).copySeq.isFree s.now
  | .coll cl => (s.cluster cl).collSeq.isFree s.now
  | .slice t => (s.tile t).sliceSeq.isFree s.now

/-- R283: the identity of the agent's next request. -/
def State.number (s : State) (a : Numberer) : Src × State :=
  match a with
  | .core n =>
    let q := (s.core n).spawnSeq
    (⟨s.gcid n, 0, q⟩, s.updCore n (fun c =>
      { c with spawnSeq := (q + 1) % 2 ^ 20, seqLog := (q, s.now) :: c.seqLog.filter (fun e => s.now < e.2 + reuseTime) }))
  | .copy cl =>
    (⟨s.gcid (coreAt cl 0), 1, (s.cluster cl).copySeq.next⟩,
      s.updCluster cl (fun c => { c with copySeq := c.copySeq.take s.now }))
  | .coll cl =>
    (⟨s.gcid (coreAt cl 0), 2, (s.cluster cl).collSeq.next⟩,
      s.updCluster cl (fun c => { c with collSeq := c.collSeq.take s.now }))
  | .slice t =>
    (⟨s.gcid (tileCore t + 1), 3, (s.tile t).sliceSeq.next⟩,
      s.updTile t (fun c => { c with sliceSeq := c.sliceSeq.take s.now }))

/-- R284: what an answer that never comes fails: 0 memory, 1 spawn, 2 SEND, 3 an engine's or the home's own request. -/
def NetPkt.requestKind (np : NetPkt) : Nat :=
  match np.body with
  | .coh _ m => if m.own.agent = 0 && m.tag != 3 then 0 else 3
  | .task p =>
    (match p.kind with
      | .send _ _ => 2
      | .spawn | .spawna _ => 1
      | _ => 3)
  | _ => 3

/-- The core and context, or the cluster and number, that a request belongs to. -/
def NetPkt.requester (np : NetPkt) : Nat × Nat :=
  match np.body with
  | .coh _ m => if m.own.agent = 0 && m.tag != 3 then (m.own.gcid, m.own.seq % 256) else (16384 + m.own.gcid, m.own.seq)
  | .task p => (gcidCore p.sender, p.ctx)
  | _ => (16384, 0)

/-- The number of the access of a head that a request is for (0: none). -/
def NetPkt.accessTag (np : NetPkt) : Nat :=
  match np.body with
  | .coh _ m => m.own.seq / 256
  | _ => 0

/-- R284: the source keeps a request until its response comes; its timer starts as time passes. -/
def State.keep (s : State) (np : NetPkt) : State :=
  let o : Outst := { id := s.serial, pkt := np, core := (NetPkt.requester np).1, ctx := (NetPkt.requester np).2,
                     kind := NetPkt.requestKind np, resends := 0, waiting := false, stamp := 0, timed := false }
  { s with serial := s.serial + 1, outst := s.outst ++ [o] }

/-- R284: 50 µs. -/
def retryTime : Nat := 50 * cyclesPerUs

/-- R284: the timers of the requests that have set out. -/
def State.timeRequests (s : State) : State :=
  let l := s.outst.filter (fun o => !o.timed && !o.waiting)
  if l.isEmpty then s
  else
    { s with outst := s.outst.map (fun (o : Outst) => { o with timed := true }),
             timers := s.timers ++ l.map (fun o => (s.now + retryTime, .retryTimeout, { x := o.id, y := o.stamp })) }

/-- The identity of a packet (R283): a continuation is a request of its home's vault controller. -/
def packetSrc (p : Packet) : Src :=
  let seq := wbits (wd p.words 1) 63 44
  match p.kind with
  | .cont tile _ _ => ⟨tile / 64 * 16384 + tileCore (tile % 64), 3, seq⟩
  | .launch _ _ => ⟨p.sender, 3, seq⟩
  | _ => ⟨p.sender, 0, seq⟩

/-- A task packet or message goes to its core: on this cube it arrives next, else it travels by the routers on
the ordered path (R274). -/
def State.sendPacket (s : State) (p : Packet) : State :=
  let i : Instr := match p.kind with
    | .send _ _ => .sendMessageArrive
    | _ => .packetArrive
  if gcidCube p.dest = s.self then s.post i { body := .packet p }
  else
    let np : NetPkt := ⟨p.dest, packetSrc p, 0, true, 0, 0, 0, .task p⟩
    s.post .packetRoute { x := 64, body := .net np }

/-- A message to the agent `m.dst`. -/
def State.toAgent (s : State) (ev : Ev) (m : Msg) : State :=
  s.sendMsg (m.dst / 64) (m.dst % 64) ev m

/-- R289: a response to the requester of `m`, or to the router that holds its decombining record. -/
def State.reply (s : State) (ev : Ev) (m : Msg) : State :=
  let r := { m with dst := m.agent }
  if m.ret % 128 = 127 then s.toAgent ev r
  else if m.ret / 128 % 16384 = s.self then s.post .decombine { x := m.ret % 128, y := ev.code, body := .msg r }
  else
    s.post .packetRoute { x := 64, body := .net ⟨m.ret / 128 % 16384 * 16384, m.src, 2, false, 0, 0, 0, .coh ev r⟩ }

/-- R293, R294: a response that goes to constituents directly. -/
def State.replyEach (s : State) (ev : Ev) (m : Msg) (l : List (Constituent × Nat)) : State :=
  l.foldl (fun t c => t.toAgent ev { m with src := c.1.src, dst := c.1.src.agentId, ret := 127, cons := [], val := c.2,
                                              tag := 0 }) s

/-! ## The outcome of an access at its requester -/

/-- R163: the value of an atomic's old word in X[d]. -/
def atomConv (w64 : Bool) (v : Nat) : Word :=
  if w64 then BitVec.ofNat 64 v else sx (BitVec.ofNat 32 v)

/-- What a response writes into the registers of its head. -/
def RKind.apply (rk : RKind) (d : Reg) (v : Nat) (c : Ctx) : Ctx :=
  match rk with
  | .load t => c.setX d (t.conv v)
  | .atomic w => c.setX d (atomConv w v)
  | .cas16 => (c.setX d (BitVec.ofNat 64 v)).setX (d + 1) (BitVec.ofNat 64 (v / 2 ^ 64))
  | .flag => c.setX d (BitVec.ofNat 64 v)
  | .plain | .store | .memo => c

/-- Keep one more result for an owner. -/
def State.remember (s : State) (o : Src) (r : AccRes) : State :=
  match s.memos.find? (fun m => m.owner = o) with
  | some _ => { s with memos := s.memos.map (fun m =>
      if m.owner = o then { m with results := m.results ++ [r] } else m) }
  | none => { s with memos := s.memos ++ [{ owner := o, results := [r], resume := none }] }

/-- R229: cycles before a refused access is sent again. -/
def backoff (n : Nat) : Nat := 64 * 2 ^ Nat.min n 7

/-- R72: the earliest failure of a store of the context is recorded. -/
def Ctx.recordStore (c : Ctx) (va : Word) (cause : Nat) : Ctx :=
  match c.storeFail with
  | some _ => c
  | none => { c with storeFail := some (va, cause) }

/-- A response for a waiting head that is at its PC (R81): a single access completes its head; a head with
several finds the result when it is issued again, with the time of its first issue (R80); a failure waits for the head's next issue, or is recorded
for a store (R72). -/
def State.waitAnswer (s : State) (core id : Nat) (w : Wait) (r : AccRes) : State :=
  let again := fun (t : State) => ((t.remember (headOwner core id) r).updCtx core id
    (fun c => { c with wait := some { w with kind := .response, got := some .waiting } })).reissue core id
  match r with
  | .data v =>
    if w.rk = .memo then again s
    else (s.wake core id (w.rk.apply w.d v)).dropMemo (headOwner core id)
  | .fail cause =>
    if w.rk = .memo then again s
    else if w.rk = .store then
      (s.wake core id (fun c => c.recordStore (BitVec.ofNat 64 w.thr) cause)).dropMemo (headOwner core id)
    else
      (s.updCtx core id (fun c =>
        { c with wait := some { w with kind := .response, what := core, got := some r } })).reissue core id
  | .refused =>
    (s.updCtx core id (fun c =>
      { c with wait := some { w with kind := .backoff, refusals := w.refusals + 1 }, st := .running })).after
      (backoff w.refusals) .backoffExpire { x := core, y := id, z := w.tag }
  | .waiting =>
    s.updCtx core id (fun c => { c with wait := some { w with kind := .fullEmpty, what := w.thr }, st := .blocked })
  | .place _ _ _ _ => s
  | .home _ => s

/-- A response for a wait that an interrupt left registered (R318). -/
def State.hungAnswer (s : State) (core id : Nat) (w : Wait) (r : AccRes) : State :=
  let put := fun (c : Ctx) (w' : Wait) => { c.late with hung := c.hung.map (fun o => if o.tag = w.tag then w' else o) }
  match r with
  | .data v => s.updCtx core id (fun c => put (w.rk.apply w.d v c) { w with got := some r })
  | .fail cause =>
    if w.rk = .store then
      s.updCtx core id (fun c => put (c.recordStore (BitVec.ofNat 64 w.thr) cause) { w with got := some (.data 0) })
    else s.updCtx core id (fun c => put c { w with kind := .response, got := some r })
  | .refused =>
    (s.updCtx core id (fun c => put c { w with kind := .backoff, refusals := w.refusals + 1 })).after
      (backoff w.refusals) .backoffExpire { x := core, y := id, z := w.tag }
  | .waiting => s.updCtx core id (fun c => put c { w with kind := .fullEmpty, what := w.thr })
  | .place _ _ _ _ => s
  | .home _ => s

/-- A response for a head that is not being executed (R81, R318). -/
def State.headAnswer (s : State) (core id tag : Nat) (r : AccRes) : State :=
  let c := s.ctx core id
  match c.wait with
  | some w =>
    if w.tag = tag && w.got = none then s.waitAnswer core id w r
    else
      match c.hung.find? (fun o => o.tag = tag && o.got = none) with
      | some o => s.hungAnswer core id o r
      | none => s
  | none =>
    match c.hung.find? (fun o => o.tag = tag && o.got = none) with
    | some o => s.hungAnswer core id o r
    | none => s

/-- The end of an access at its requester: the latch of the head or agent being served, or the answer of an
owner that waits. Owners with agent 0 are heads; the others take up the event they named. -/
def State.answer (s : State) (o : Src) (r : AccRes) : State :=
  if s.latch = some o then { s with resp := some r }
  else if o.agent = 0 then s.headAnswer o.gcid (o.seq % 256) (o.seq / 256) r
  else
    let key : Src := { o with agent := o.agent % 16 }
    match s.memos.find? (fun m => m.owner = key && m.resume.isSome && m.tag = o.agent / 16) with
    | some m =>
      let s1 := { s with memos := s.memos.map (fun (k : Memo) => if k.owner = key then { k with resume := none } else k) }
      (match r, m.resume with
        | .waiting, _ => s
        | .refused, some (i, a) =>
          ({ s1 with memos := s1.memos.map (fun (k : Memo) => if k.owner = key then { k with tries := k.tries + 1 } else k) }
            : State).after (backoff m.tries) i a
        | _, some (i, a) => (s1.remember key r).post i a
        | _, none => s)
    | none => s

/-! ## Atomic operations (R163, R165, R77, R152) -/

/-- The bytes of the line at home. -/
def State.homeLine (s : State) (la : Nat) : List Byte := s.dramRead (la / 64 * 64) 64

/-- R286: a journal entry for a performed atomic, kept 500 µs. -/
def State.journal (s : State) (tile : Nat) (m : Msg) (width v : Nat) (cons : List (Constituent × Nat)) : State :=
  let n := (s.tile tile).serial
  (s.updTile tile (fun t => { t with serial := n + 1,
                                     journal := t.journal ++ [{ n := n, gpa := m.gpa, width := width, v := v,
                                                                cons := cons }] })).after
    (500 * cyclesPerUs) .journalEntryExpire { x := tile, y := n }

/-- R289: the values that the constituents of an add receive, in list order. -/
def consValues (w : Nat) : Nat → List Constituent → List (Constituent × Nat)
  | _, [] => []
  | v, c :: r => (c, v) :: consValues w ((v + c.operand) % 2 ^ w) r

/-- R152: the words of a join continuation's packet. -/
def contWords (rec : List Byte) (issuer asid seq : Nat) (recAddr : Nat) : List Word :=
  [BitVec.ofNat 64 (2 * 2 ^ 62 + leNat (rec.drop 8 |>.take 8) % 2 ^ 57),
   BitVec.ofNat 64 (asid % 65536 + issuer % 2 ^ 28 * 2 ^ 16 + seq % 2 ^ 20 * 2 ^ 44),
   wordAt rec 3, wordAt rec 4, wordAt rec 5, wordAt rec 6, wordAt rec 7, BitVec.ofNat 64 recAddr]

/-- R144 step 3, R152: the core at which a home offers a continuation of an ASID first. -/
def State.homeCore (s : State) (la asid : Nat) : Option Nat :=
  let p := s.partOfAsid asid
  let hashed := ownerCore la
  let t := homeTile la
  let idx := (coreRow hashed % 16) * 16 + coreCol hashed % 16
  let cand := (List.range 256).map (fun k =>
    let j := (idx + k) % 256
    mkCore (16 * (t / 8) + j / 16) (16 * (t % 8) + j % 16))
  match p with
  | some q =>
    match cand.find? (fun n => s.partMember q n) with
    | some n => some n
    | none => some (s.partKcore q)
  | none => none

/-- R289: what each constituent of an atomic that found `old` is answered. -/
def atomAnswers (op : AtomOp) (old : Nat) (l : List Constituent) : List (Constituent × Nat) :=
  match op with
  | .amo .add _ _ => consValues op.width old l
  | _ => l.map (fun c => (c, old))

/-- What performing an atomic at its home gives: a value, a failure, or a place in the wait list. -/
inductive AtomRes where
  | value (v : Nat) (s : State)
  | fails (cause : Nat) (s : State)
  | waits (s : State)

/-- R152: the atomic action of JDEC on the record's line. A continuation without a target whose issuer's ASID lies in no valid
partition, so that there is no KCORE, goes to the core that the address hashes to (DESIGN CHOICE, log entry 76). -/
def State.doJdec (s : State) (m : Msg) (n asid : Nat) : AtomRes :=
  let line := s.homeLine m.la
  let cnt := leNat (line.take 8)
  let tile := homeTile m.la
  if s.rangeSlot tile m.gpa ≠ 5 then .fails 0x08 s
  else if cnt < n then .fails 0x14 s
  else
    let s1 := (s.dramWrite (m.la / 64 * 64) (leBytes 8 (cnt - n))).journal tile m 64 cnt
      (m.constituents.map (fun c => (c, cnt - n)))
    if n ≠ 0 ∧ cnt = n then
      let seq := (s1.tile tile).reqSeq.next
      let dest := leNat (line.drop 16 |>.take 8) % 2 ^ 28
      let core := if leNat (line.drop 16 |>.take 8) = 0 then
          (match s1.homeCore m.la asid with
            | some k => s1.gcid k
            | none => s1.gcid (ownerCore m.la))
        else dest
      let p : Packet := { words := contWords line m.src.gcid asid seq m.val, dest := core,
                          sender := m.src.gcid, kind := .cont (s.self * 64 + tile) 0 0, ctx := 4 * (m.la / 64 * 64) + m.level }
      .value (cnt - n) ((s1.updTile tile (fun t =>
        { t with reqSeq := t.reqSeq.take s1.now, conts := t.conts ++ [p] })).sendPacket p)
    else .value (cnt - n) s1

/-- R229: a waiting access leaves the wait list of its home. -/
def State.feRemove (s : State) (tile : Nat) (x : Src) : State :=
  s.updTile tile (fun t => { t with fe := t.fe.filter (fun w => w.msg.src != x) })

/-- R79: an access waits at its home: at the back of the wait list, or, where it is there already, at its place. -/
def State.feWait (s : State) (m : Msg) : AtomRes :=
  let t := s.tile (homeTile m.la)
  if t.fe.any (fun w => w.msg.src = m.src) then
    .waits (s.updTile (homeTile m.la) (fun t => { t with fe := t.fe.map (fun w => if w.msg.src = m.src then { w with up := false } else w) }))
  else if 1024 ≤ t.fe.length then .fails 0 s
  else .waits (s.updTile (homeTile m.la) (fun t => { t with fe := t.fe ++ [{ la := m.la, msg := m }] }))

/-- R77 to R79: a full-empty access at its home. It waits behind those that came before it. -/
def State.doFe (s0 : State) (m : Msg) (f : FeOp) (y : Nat) : AtomRes :=
  let tile := homeTile m.la
  let bit := s0.feBit m.la
  let before := (s0.tile tile).fe.takeWhile (fun w => w.msg.src != m.src)
  let mustWait := match f.needs with
    | some b => b != bit || before.any (fun w => w.la / 8 = m.la / 8)
    | none => false
  if mustWait then s0.feWait m
  else
    let s := s0.feRemove tile m.src
    let old := leNat (s.dramRead m.la 8)
    let v := if f = .ferd then (if bit then 1 else 0) else old
    let s1 := match (AtomOp.fe f y).new old with
      | some n => s.dramWrite m.la (leBytes 8 n)
      | none => s
    let s2 := match f.leaves with
      | some b => s1.setFe m.la b
      | none => s1
    .value v (s2.journal tile m 64 old (m.constituents.map (fun c => (c, v))))

/-- R162: an atomic at its home, with the word in memory current. -/
def State.doAtomic (s : State) (m : Msg) : AtomRes :=
  match m.op with
  | none => .value 0 s
  | some (.jdec n asid) => s.doJdec m n asid
  | some (.fe f y) => s.doFe m f y
  | some op =>
    let old := leNat (s.dramRead m.la op.len)
    let s1 := match op.new old with
      | some n => s.dramWrite m.la (leBytes op.len n)
      | none => s
    .value old (s1.journal (homeTile m.la) m op.width old (atomAnswers op old m.constituents))

/-! ## The mirror of a region (R222, R356) -/

/-- The eight full-empty bits of a line. -/
def State.feByte (s : State) (la : Nat) : Nat :=
  ((List.range 8).map (fun i => if s.feBit (la / 64 * 64 + 8 * i) then 2 ^ i else 0)).sum

/-- The full-empty bits of a line are written. -/
def State.setFeByte (s : State) (la v : Nat) : State :=
  (List.range 8).foldl (fun t i => t.setFe (la / 64 * 64 + 8 * i) (v / 2 ^ i % 2 = 1)) s

/-- R221, R358: the mirror to which the access was resolved, unless it is out of service by this cube's map. -/
def State.mirrorFor (s : State) (m : Msg) : Option Nat :=
  match m.mirror with
  | none => none
  | some mc =>
    let r := bitsOf m.gpa 55 48
    let w0 := s.csrAt (regionOff r 0)
    let sl := bitsOf m.gpa 47 0 / 2 ^ regionGsh w0 % (wbits w0 45 32 + 1)
    let e := s.cubeEntry (wbits (s.csrAt (regionOff r 1)) 15 0 + 2 * sl + 1)
    if mc = s.self || (bitsOf e 13 0 = mc && bitsOf e 15 15 = 1) then none else some mc

/-- R356: the line's new state sets out for the mirror, with the journal entry of an atomic (`val`) or the response that
the request filter keeps (its code in `cause`; 0: none). It is a request of the home's vault controller. -/
def State.mirrorSend (s : State) (m : Msg) (mc : Nat) (resp : Option Ev) (v : Nat) : Nat × State :=
  let tile := homeTile m.la
  let seq := (s.tile tile).reqSeq.next
  let q : Msg := { m with tag := 3, own := ⟨s.gcid (tileCore tile), 3, seq⟩, home := mc, mirror := none,
                          agent := s.agentId tile, dst := m.agent, data := s.homeLine m.la, bytes := [], off := s.feByte m.la,
                          len := if s.poisoned m.la then 1 else 0, val := v,
                          cause := match resp with
                            | some e => e.code
                            | none => 0 }
  let s1 := s.updTile tile (fun t => { t with reqSeq := t.reqSeq.take s.now })
  (seq, (s1.keep (cohPacket mc tile .uwrite q)).sendMsg mc tile .uwrite q)

/-! ## The home (R243, R248) -/

/-- What the actions of one home entry have produced so far. -/
structure HomeAct where
  s : State
  d : DirLine
  /-- the old value of an atomic, once APPLY has run -/
  old : Nat := 0
  /-- APPLY failed or put the access into the wait list: no response of the table is sent -/
  quiet : Bool := false
  /-- memory has been written -/
  wrote : Bool := false
  /-- the responses of the entry, and whether SEMF adds -/
  owed : List (Ev × Msg) := []
  semf : Bool := false

/-- R243.8: FWD messages to agents, whose answers the home counts. -/
def HomeAct.fwd (a : HomeAct) (ev : Ev) (m : Msg) (dsts : List Nat) : HomeAct :=
  let s1 := dsts.foldl (fun t n => t.toAgent ev { m with dst := n, toAgent := false }) a.s
  let s2 := if dsts.isEmpty then s1.post .ackh { body := .msg { m with dst := 0, toAgent := false, tag := 5 } } else s1
  { a with s := s2, d := { a.d with count := dsts.length } }

/-- R248: one home action. `attr` is the attribute of the state in which the event was presented. -/
def HomeAct.step (a : HomeAct) (attr : Nat) (ev : Ev) (m : Msg) (act : Nat) : HomeAct :=
  let line := a.s.homeLine m.la
  let resp := fun (e : Ev) (m' : Msg) => if a.quiet then a else { a with owed := a.owed ++ [(e, m')] }
  match act with
  | 0x01 => resp .dats { m with data := line }
  | 0x02 => resp .datx { m with data := line }
  | 0x03 => resp .datu { m with data := line, val := a.old }
  | 0x04 => resp .ack { m with val := a.d.updCount }
  | 0x05 => a.fwd .inv m (a.d.sharers.filter (fun n => n != m.agent))
  | 0x06 => a.fwd .inv m a.d.sharers
  | 0x07 => a.fwd .rcls m a.d.owner.toList
  | 0x08 => a.fwd .rcli m a.d.owner.toList
  | 0x09 =>
    if a.quiet then a
    else { a with s := a.d.sharers.foldl (fun t n => t.toAgent .upd { m with dst := n, data := line }) a.s,
                  d := { a.d with updCount := a.d.sharers.length } }
  | 0x0A => { a with owed := a.owed ++ [(.putg, m)], d := { a.d with count := 1 } }
  | 0x0B => a.fwd .disc m ((if attrShv attr then a.d.sharers else []) ++
      (if attrOwnv attr then a.d.owner.toList else []))
  | 0x0C =>
    let bs := if ev = .wbr then m.data else a.d.buf.getD line
    { a with s := a.s.dramWrite (m.la / 64 * 64) bs, wrote := true, d := { a.d with buf := none } }
  | 0x0D =>
    let old := if attrShv attr then a.d.sharers else []
    { a with d := { a.d with sharers := if old.contains m.agent then old else old ++ [m.agent] } }
  | 0x0E => { a with d := { a.d with owner := some m.agent } }
  | 0x0F => { a with d := { a.d with sharers := a.d.owner.toList, owner := none } }
  | 0x10 => { a with d := { a.d with sharers := [] } }
  | 0x11 => { a with d := { a.d with owner := none } }
  | 0x12 =>
    if ev = .amor then
      match a.s.doAtomic m with
      | .value v s1 => { a with s := s1, old := v, wrote := true }
      | .waits s1 => { a with s := s1, quiet := true, owed := [(.ack, { m with tag := 6 })] }
      | .fails 0 s1 => { a with s := s1, quiet := true, owed := [(.nack, { m with val := ev.code })] }
      | .fails c s1 => { a with s := s1, quiet := true, owed := [(.flt, { m with cause := c })] }
    else { a with s := a.s.dramWrite (m.la / 64 * 64) (patchMany line m.bytes), wrote := true }
  | 0x13 => { a with semf := true }
  | _ => a

/-- R343: whether an entry's actions need the line's data. -/
def needsData (acts : List Nat) : Bool := acts.any (fun a => a = 1 || a = 2 || a = 3 || a = 0x12)

/-- R79: the oldest waiting access to a word is performed next, before anything that waits for the line, once the word's
bit satisfies it. It keeps its entry until it is performed (R229). -/
def State.feExamine (s : State) (la : Nat) : State :=
  let tile := homeTile la
  match (s.tile tile).fe.find? (fun w => w.la / 8 = la / 8) with
  | none => s
  | some w =>
    let ready := match w.msg.op with
      | some (.fe f _) => (match f.needs with
        | some b => b == s.feBit la
        | none => true)
      | _ => true
    if ready && !w.up then
      let s1 := s.updTile tile (fun t => { t with fe := t.fe.map (fun o => if o = w then { o with up := true } else o) })
      s1.setDir (la / 64) { s1.dir (la / 64) with pend := (.amor, { w.msg with tag := 4 }) :: (s1.dir (la / 64)).pend }
    else s

/-- R285: the write-type requests. -/
def writeType (ev : Ev) : Bool := ev = .getx || ev = .uwrite || ev = .wbr || ev = .putr || ev = .dropr

/-- R356: the mirror has not yet confirmed what a request did: its response is still owed. -/
def State.unconfirmed (s : State) (la : Nat) (x : Src) : Bool :=
  (s.dir (la / 64)).mirrors.any (fun w => w.owed.any (fun e => e.2.constituents.any (fun c => c.src = x)))

/-- R286: the value with which the journal of a tile answers a constituent. -/
def State.journalled (s : State) (tile : Nat) (c : Constituent) : Option Nat :=
  (s.tile tile).journal.findSome? (fun e => (e.cons.find? (fun x => x.1.src = c.src)).map Prod.snd)

/-- The answer of a filter or journal entry goes again (R285, R286). One whose response the mirror still keeps back has it
when the mirror confirms (R356). -/
def State.duplicate (s : State) (ev : Ev) (m : Msg) : Option State :=
  if ev = .amor then
    match m.constituents with
    | [c] =>
      (s.journalled (homeTile m.la) c).map (fun v =>
        if s.unconfirmed m.la c.src then s
        else if m.tag = 9 then s.replyEach .datu { m with data := s.homeLine m.la } [(c, v)]
        else s.reply .datu { m with val := v, data := s.homeLine m.la })
    | _ => none
  else if writeType ev then
    ((s.tile (homeTile m.la)).filter.find? (fun f => f.src = m.sender)).map (fun f =>
      if s.unconfirmed m.la m.sender then s else s.toAgent f.ev f.msg)
  else none

/-- R285: a performed write-type request is kept in the request filter for 500 µs with its response. -/
def State.filterAdd (s : State) (resp : Ev) (m : Msg) (v : Nat) : State :=
  let tile := homeTile m.la
  let n := (s.tile tile).serial
  let e : FEntry := ⟨n, m.sender, resp, { m with dst := m.agent, val := v, data := s.homeLine m.la }⟩
  (s.updTile tile (fun t => { t with serial := n + 1, filter := t.filter ++ [e] })).after
    (500 * cyclesPerUs) .requestFilterExpire { x := tile, y := n }

/-- The response that home actions send to the requester (R248). -/
def keptResponse (acts : List Nat) : Option Ev :=
  acts.findSome? (fun a =>
    if a = 1 then some .dats else if a = 2 then some .datx else if a = 3 then some .datu
    else if a = 4 then some .ack else if a = 0x0A then some .putg else none)

/-- R79, R229: a waiting access leaves its home, wherever its turn has brought it. -/
def State.feDiscard (s : State) (w : FeWait) : State :=
  let s1 := s.feRemove (homeTile w.la) w.msg.src
  let d := s1.dir (w.la / 64)
  s1.setDir (w.la / 64) { d with pend := d.pend.filter (fun e => e.2.src != w.msg.src) }

/-- R343: a line is poisoned; accesses that wait for its words in the wait list fail at once. -/
def State.poisonLine (s : State) (la : Nat) : State :=
  ((s.tile (homeTile la)).fe.filter (fun w => w.la / 64 = la / 64)).foldl (fun u w =>
    (u.feDiscard w).reply .flt { w.msg with cause := 0x12, tag := 4 }) (s.setPoison la true)

/-- What the home keeps once an entry's actions have been performed: a write-type request goes to the request filter
(R285), and the accesses that wait for the word of an atomic are examined (R79). -/
def State.performed (s : State) (ev : Ev) (m : Msg) (acts : List Nat) (v : Nat) : State :=
  if ev = .amor then (if acts.contains 0x12 then s.feExamine m.la else s)
  else if writeType ev then
    let s1 := if ev = .wbr && m.cause = 0x12 then s.poisonLine m.la else s
    match keptResponse acts with
    | some r => s1.filterAdd r m v
    | none => s1
  else s

/-- R79: a waiting access has ended without being performed. -/
def State.feOver (s : State) (m : Msg) : State :=
  if (s.tile (homeTile m.la)).fe.any (fun w => w.msg.src = m.src) then (s.feRemove (homeTile m.la) m.src).feExamine m.la
  else s

/-- R229: a waiting access whose turn had come is refused: it keeps its place until it is sent again. -/
def State.feAgain (s : State) (m : Msg) : State :=
  if (s.tile (homeTile m.la)).fe.any (fun w => w.msg.src = m.src) then
    s.updTile (homeTile m.la) (fun t => { t with fe := t.fe.map (fun w => if w.msg.src = m.src then { w with up := false } else w) })
  else s

/-- R289, R293, R294: a response of the home; a combined request some of whose constituents the journal held has every
constituent answered directly. -/
def State.respond (s0 : State) (ev : Ev) (m : Msg) : State :=
  let s := if ev = .flt then s0.feOver m else if ev = .nack then s0.feAgain m else s0
  if m.tag = 9 then
    (match m.op with
      | some op =>
        if ev = .datu then s.replyEach ev m ((atomAnswers op m.val m.constituents).filter (fun c => c.1.reply))
        else s.replyEach ev m (m.constituents.map (fun c => (c, m.val)))
      | none => s)
  else s.reply ev m

/-- What an entry owes is sent: its responses, and SEMF's addition (R248). -/
def State.payOwed (s : State) (l : List (Ev × Msg)) (semf : Bool) : State :=
  let s1 := l.foldl (fun t e => t.respond e.1 e.2) s
  if semf then s1.semAddOwned (s1.csrField 0x4010008 7 0) 1 else s1

/-- R222, R356: what an entry owes is sent at once, or, where the line has a mirror and the request changes it, once the
mirror has the line's new state. -/
def State.settleEntry (s : State) (m : Msg) (changes : Bool) (resp : Option Ev) (v : Nat) (l : List (Ev × Msg))
    (semf : Bool) : State :=
  match (if changes then s.mirrorFor m else none) with
  | none => s.payOwed l semf
  | some mc =>
    let (seq, s1) := s.mirrorSend m mc resp v
    let d := s1.dir (m.la / 64)
    s1.setDir (m.la / 64) { d with mirrors := d.mirrors ++ [⟨seq, l, semf⟩] }

/-- R243 rules 7, 8 and 10, R262: what the outcome of presenting an event at its home is. -/
inductive Pres where
  | consumed (s : State)
  | kept (s : State)

/-- A write-type request that changes nothing at the home is answered and kept (R243.7, R247 SAME, R285). -/
def State.answerKept (s : State) (resp : Ev) (m : Msg) : State :=
  (s.filterAdd resp m 0).settleEntry m true (some resp) 0 [(resp, { m with val := 0 })] false

/-- R247: a write that brings only the bytes the line already holds. DESIGN CHOICE (log entry 81): one that brings no byte is
no such write, and is presented. -/
def State.sameValue (s : State) (ev : Ev) (m : Msg) (attr : Nat) : Bool :=
  (ev = .getx || ev = .uwrite) && attrSame attr && !m.bytes.isEmpty && !s.poisoned m.la &&
    patchMany (s.homeLine m.la) m.bytes = s.homeLine m.la

/-- R246: one presentation of an event to the home table of an image. In a custom slot, DROP traps (R235). DESIGN CHOICE (log
entry 81): the undefined marker, met by an event, is read as the entry whose bits it is: proceed, no action, next state 0. -/
def State.presentTable (s : State) (img : List Byte) (ev : Ev) (m : Msg) : Pres :=
  let ln := m.la / 64
  let d := s.dir ln
  let attr := imgAttr img false d.st
  let e := imgEntry img false d.st ev.code
  let acts := entActs e
  let full := ev = .uwrite && m.bytes.length = 64
  if ev = .recall && !((attrOwnv attr && d.owner.isSome) || (attrShv attr && !d.sharers.isEmpty)) then .consumed s
  else if ev = .putr && d.owner != some m.agent then .consumed (s.answerKept .putg m)
  else if ev = .wbr && d.owner != some m.agent then .consumed (s.answerKept .ack m)
  else if ev = .dropr && 6 ≤ m.slot then .consumed (s.reply .flt { m with cause := 0x08 })
  else if s.sameValue ev m attr then .consumed (s.answerKept .ack m)
  else
    match entDisp e with
    | 3 =>
      if ev = .recall then .consumed s
      else if ev.cls = 0 then .consumed (s.respond .flt { m with cause := bitsOf e 9 4 })
      else .consumed (s.raiseAt (some (s.regionPart (bitsOf m.gpa 55 48)))
        (event23 4 (BitVec.ofNat 64 (0x2000000000000000 + m.gpa / 64 * 64))))
    | 2 => .consumed (if ev.cls = 0 && ev != .recall then s.respond .nack { m with val := ev.code } else s)
    | disp =>
      if s.poisoned m.la && needsData acts && !full then .consumed (s.respond .flt { m with cause := 0x12 })
      else
        let s0 := if s.poisoned m.la && full && acts.contains 0x12 then
            (s.setPoison m.la false).setFeByte m.la 0xFF
          else s
        let a := acts.foldl (fun a c => a.step attr ev m c) ({ s := s0, d := d } : HomeAct)
        let d1 := { a.d with st := entNext e, gpa := if entNext e = 0 then 0 else m.gpa / 64 * 64,
                             updCount := if disp = 1 then a.d.updCount else 0 }
        let old := a.s.dir ln
        let s1 := a.s.setDir ln { d1 with pend := old.pend, mirrors := old.mirrors }
        if disp = 1 then .kept (s1.settleEntry m a.wrote none 0 a.owed a.semf)
        else
          let kept := if writeType ev then keptResponse acts else none
          .consumed ((s1.performed ev m acts a.d.updCount).settleEntry m (a.wrote || kept.isSome) kept
            (if ev = .amor then a.old else a.d.updCount) a.owed a.semf)

/-- A home without an image in the slot (before boot): every access is one action at the home (DESIGN
CHOICE, log entry 11). -/
def State.presentBare (s : State) (ev : Ev) (m : Msg) : State :=
  let base := m.la / 64 * 64
  let line := s.homeLine m.la
  match ev with
  | .gets | .uread => s.reply .datu { m with data := line }
  | .getx | .uwrite => (s.dramWrite base (patchMany line m.bytes)).answerKept .ack m
  | .amor =>
    (match s.doAtomic m with
      | .value v s1 => (s1.feExamine m.la).settleEntry m true none v [(.datu, { m with data := line, val := v })] false
      | .waits s1 => s1.reply .ack { m with tag := 6 }
      | .fails 0 s1 => s1.reply .nack { m with val := ev.code }
      | .fails c s1 => s1.reply .flt { m with cause := c })
  | .wbr => (s.dramWrite base m.data).answerKept .ack m
  | .dropr => s.answerKept .ack m
  | .putr => s.answerKept .putg m
  | .dath => (s.dramWrite base m.data).settleEntry m true none 0 [] false
  | _ => s

/-- Present an event at its home under the slot of its range. -/
def State.presentHome (s : State) (ev : Ev) (m0 : Msg) : Pres :=
  let slot := s.rangeSlot (homeTile m0.la) m0.gpa
  let m := { m0 with slot := slot, protid := s.protid slot, fw := s.inFwRegion m0.la }
  match s.image slot with
  | some img => s.presentTable img ev m
  | none => .consumed (s.presentBare ev m)

/-- R285, R286, R294: what the filter, the journal and their capacity make of a request: it is answered or refused, or it
goes on, perhaps with fewer constituents. -/
inductive Screen where
  | done (s : State)
  | go (m : Msg) (s : State)

/-- R294: a combined request some of whose constituents the journal already holds: those are answered from the journal,
and the rest goes on without RET. -/
def State.partlyJournalled (s : State) (m : Msg) : Option Screen :=
  let value := s.journalled (homeTile m.la)
  let known := m.constituents.filter (fun c => (value c).isSome)
  let rest := m.constituents.filter (fun c => (value c).isNone)
  if m.constituents.length ≤ 1 || known.isEmpty then none
  else
    let s1 := s.replyEach .datu m ((known.filter (fun c => c.reply && !s.unconfirmed m.la c.src)).map (fun c =>
      (c, (value c).getD 0)))
    match rest, m.op with
    | c :: cs, some (.amo op w64 _) =>
      let y := cs.foldl (fun acc k => op.apply (if w64 then 64 else 32) acc k.operand) c.operand
      some (.go { m with cons := rest, op := some (.amo op w64 y), ret := 127, tag := 9 } s1)
    | _, _ => some (.done s1)

/-- R283: an event for which the home needs the next number of its vault controller, for an update of the mirror or for a
continuation, while that may not be used. -/
def State.homeShort (s : State) (ev : Ev) (m : Msg) : Bool :=
  !s.homeFree (homeTile m.la) && ((s.mirrorFor m).isSome || (ev = .amor && (match m.op with
    | some (.jdec _ _) => true
    | _ => false)))

/-- What waits for a line is looked at again a little later. -/
def State.lineLater (s : State) (m : Msg) : State := s.after 64 .amor { body := .msg { m with tag := 10 } }

/-- R285, R286, R294: duplicates are answered before anything is refused for want of room. -/
def State.screen (s : State) (ev : Ev) (m : Msg) : Screen :=
  match s.duplicate ev m with
  | some s1 => .done s1
  | none =>
    match (if ev = .amor then s.partlyJournalled m else none).getD (.go m s) with
    | .done s1 => .done s1
    | .go m1 s1 =>
      let t := s1.tile (homeTile m1.la)
      if (ev = .amor && 4096 ≤ t.journal.length) || (writeType ev && 8192 ≤ t.filter.length) then
        .done (s1.respond .nack { m1 with val := ev.code })
      else .go m1 s1

/-- R243.9, R222: the oldest event that waits for a line is presented again, as long as events are consumed, the line's
mirror has its state and its bus is not paused (R363). -/
def State.represent : Nat → Nat → State → State
  | 0, _, s => s
  | n + 1, ln, s =>
    match (s.dir ln).mirrors, (s.dir ln).pend with
    | [], (ev, m) :: rest =>
      if s.paused m.la then s.setDir ln { s.dir ln with due := true }
      else if s.homeShort ev m then s.lineLater m
      else
      (match (s.setDir ln { s.dir ln with pend := rest }).screen ev m with
        | .done s1 => State.represent n ln s1
        | .go m1 s1 =>
          match s1.presentHome ev m1 with
          | .consumed s2 => State.represent n ln s2
          | .kept s2 => s2.setDir ln { s2.dir ln with pend := (ev, m1) :: (s2.dir ln).pend })
    | _, _ => s

/-- What waits for a line goes on. -/
def State.lineGoesOn (s : State) (ln : Nat) : State :=
  State.represent ((s.dir ln).pend.length + (s.tile (homeTile (64 * ln))).fe.length) ln
    (s.setDir ln { s.dir ln with due := false })

/-- R363: the lines whose waiting events a paused bus has kept from being presented go on. -/
def State.dueLines (s : State) : State :=
  let l : List (Nat × DirLine) := s.dirs.filter (fun e => e.2.due)
  l.foldl (fun t e => t.lineGoesOn e.1) s

/-- Present an event; a stalled one waits in the line's queue, in arrival order. -/
def State.homeEvent (s : State) (ev : Ev) (m : Msg) : State :=
  let ln := m.la / 64
  if ev.cls = 0 && (!(s.dir ln).pend.isEmpty || !(s.dir ln).mirrors.isEmpty) then
    s.setDir ln { s.dir ln with pend := (s.dir ln).pend ++ [(ev, m)] }
  else if ev.cls = 0 && s.homeShort ev m then (s.setDir ln { s.dir ln with pend := [(ev, m)] }).lineLater m
  else
    match s.presentHome ev m with
    | .consumed s1 => s1.lineGoesOn ln
    | .kept s1 => s1.setDir ln { s1.dir ln with pend := (ev, m) :: (s1.dir ln).pend }

/-- R79, R80, R178: a waiting access has left the list without being performed: what it kept from its turn is
performed. -/
def State.feLeft (s : State) (la : Nat) : State := (s.feExamine la).lineGoesOn (la / 64)

/-- R356: the mirror has a line's new state, or there is no mirror any more: what waited for it is sent. -/
def State.mirrorDone (s : State) (m : Msg) : State :=
  let ln := m.la / 64
  match (s.dir ln).mirrors.find? (fun w => w.seq = m.own.seq) with
  | none => s
  | some w =>
    let d := s.dir ln
    ((s.setDir ln { d with mirrors := d.mirrors.filter (fun o => o.seq != w.seq) }).payOwed w.owed w.semf).lineGoesOn ln

/-- The event of a code that a request filter keeps a response of. -/
def keptEv (code : Nat) : Option Ev :=
  [Ev.dats, .datx, .datu, .ack, .putg].find? (fun e => e.code = code)

/-- R356: a mirror takes the state of a line and the entry of the request that made it, and confirms. -/
def State.mirrorTake (s : State) (m : Msg) : State :=
  let s1 := (((s.dramWrite (m.la / 64 * 64) m.data).setFeByte m.la m.off).setPoison m.la (m.len = 1))
  let q : Msg := { m with tag := 0, agent := m.dst }
  let s2 := match m.op with
    | some op =>
      if m.cause = 0 then s1.journal (homeTile m.la) q op.width m.val (atomAnswers op m.val m.constituents) else s1
    | none =>
      match keptEv m.cause with
      | some e => s1.filterAdd e q m.val
      | none => s1
  (s2.filterAdd .ack m 0).toAgent .ack { m with dst := m.agent }

/-- R285, R286: the mirror's journal and filter have room for what an update brings. -/
def State.mirrorRoom (s : State) (m : Msg) : Bool :=
  let t := s.tile (homeTile m.la)
  if m.op.isSome then (m.cause != 0 || t.journal.length < 4096) && t.filter.length < 8192
  else t.filter.length + (if (keptEv m.cause).isSome then 2 else 1) ≤ 8192

/-- R176, R259: a home that switches a range holds new requests to it. -/
def State.switching (s : State) (gpa : Nat) : Bool :=
  s.prsets.any (fun p => p.going && p.base ≤ gpa && gpa < p.base + 2 ^ p.k)

/-- The events that hold at a home until it may serve them. -/
def State.holdEvent (s : State) (ev : Ev) (m : Msg) : State := { s with held := s.held ++ [.event ev.instr { body := .msg m }] }

/-- R80: the requester of a waiting access, on whatever cube, asks for it back. An access that waits for its line at the
home is withdrawn as one of the wait list is. -/
def State.withdraw (s : State) (m : Msg) : State :=
  let same := fun (x : Msg) => x.own = m.own && x.agent / 64 = m.agent / 64
  let queued := ((s.dir (m.la / 64)).pend.find? (fun e => same e.2)).map (fun e => (⟨e.2.la, e.2, true⟩ : FeWait))
  match ((s.tile (homeTile m.la)).fe.find? (fun w => same w.msg)).or queued with
  | some w => ((s.feDiscard w).reply .flt { m with cause := 0x0C, tag := 4 }).feLeft w.la
  | none => (s.duplicate .amor { m with tag := 4 }).getD s

/-- An answer of an agent at the home (R243.8). Uncorrectable data poisons the line (R343). -/
def State.agentAnswer (s : State) (ev : Ev) (m : Msg) : State :=
  let ln := m.la / 64
  let s0 := if ev = .dath && m.cause = 0x12 then s.poisonLine m.la else s
  let d := s0.dir ln
  let d1 := { d with buf := if ev = .dath then some m.data else d.buf,
                     count := if m.tag = 5 then d.count else d.count - 1 }
  let s1 := s0.setDir ln d1
  if d1.count = 0 then s1.homeEvent ev { m with agent := m.dst } else s1

/-- A home takes an event that is no duplicate: refusals of the half-vault (R365), what a paused bus (R363) or a switching
range (R176) holds, refusals of the firewall (R381), full tables (R285, R286), and then the protocol table. An eviction of
a line of the firmware region is the slice's own (R381). -/
def State.homeTakes (s : State) (ev : Ev) (m : Msg) : State :=
  if s.retired m.la then (if ev.cls = 0 then s.respond .flt { m with cause := 0x09 } else s)
  else if s.paused m.la then s.holdEvent ev m
  else if ev = .uwrite && m.tag = 3 then
    if s.mirrorRoom m then s.mirrorTake m else s.toAgent .nack { m with dst := m.agent, val := ev.code }
  else if ev.cls = 0 && ev != .recall && ev != .putr && m.level < 2 && s.inFwRegion m.la then
    s.respond .flt { m with cause := 0x08 }
  else if ev.cls = 0 && ev != .recall && s.switching m.gpa then s.holdEvent ev m
  else if ev = .recall && ((s.dir (m.la / 64)).owner.isNone && (s.dir (m.la / 64)).sharers.isEmpty) then s
  else if ev = .dath || ev = .ackh then s.agentAnswer ev m
  else if ev.cls = 0 && ev != .recall then
    (match s.screen ev m with
      | .done s1 => s1
      | .go m1 s1 => s1.homeEvent ev m1)
  else s.homeEvent ev m

/-- The cause with which a message refuses the request `x`. -/
def refusalOf (x : Src) (i : Item) : Option Nat :=
  match i with
  | .event .flt a => (match a.body with
    | .msg m => if m.src = x then some m.cause else none
    | _ => none)
  | .event .packetRoute a => (match a.body with
    | .net np => (match np.body with
      | .coh .flt m => if m.src = x then some m.cause else none
      | _ => none)
    | _ => none)
  | _ => none

/-- R134: the cause with which the home would refuse a request as things stand. -/
def State.wouldRefuse (s : State) (ev : Ev) (m : Msg) : Option Nat :=
  ((s.homeTakes ev m).agenda.drop s.agenda.length).findSome? (refusalOf m.src)

/-- R134: a home is asked about a write. -/
def State.probed (s : State) (ev : Ev) (m : Msg) : State :=
  match s.wouldRefuse ev { m with probe := false } with
  | some c => s.reply .flt { m with cause := c }
  | none => s.reply .ack m

/-- The arrival of an event at its home: withdrawals (R80) and duplicates first (R285, R286, R294). -/
def State.homeArrive (s : State) (ev : Ev) (m : Msg) : State :=
  if ev = .amor && m.tag = 7 then s.withdraw m
  else if ev = .amor && m.tag = 10 then s.lineGoesOn (m.la / 64)
  else if m.probe then s.probed ev m
  else if ev.cls != 0 && s.homeShort ev m then s.after 64 ev.instr { body := .msg m }
  else
    match s.duplicate ev m with
    | some s1 => s1
    | none =>
      match (if ev = .amor then s.partlyJournalled m else none).getD (.go m s) with
      | .done s1 => s1
      | .go m1 s1 => s1.homeTakes ev m1

/-! ## The agent (R243, R249) -/

/-- R284, R285: the request that a response belongs to, if its source still awaits it. -/
def State.asked (s : State) (m : Msg) : Option Outst := s.outst.find? (fun o => o.pkt.src = m.sender)

/-- The response with the fields that only the source of its request knows. -/
def Outst.own (o : Outst) (m : Msg) : Msg :=
  match o.pkt.body with
  | .coh _ q => { m with own := q.own, tag := if m.tag = 6 then 6 else if o.waited then 4 else q.tag, op := q.op, off := q.off,
                         len := q.len }
  | _ => m

/-- The request is no longer awaited. -/
def State.notAwaited (s : State) (id : Nat) : State := { s with outst := s.outst.filter (fun e => e.id != id) }

/-- R229, R246, R284: a refused request is sent again after the backoff, under its number, and its timer starts again
then. -/
def State.requestAgain (s : State) (o : Outst) : State :=
  let stamp := o.stamp + 1
  let body := match o.pkt.body with
    | .coh ev q => NBody.coh ev { q with tries := q.tries + 1 }
    | b => b
  let n := match o.pkt.body with
    | .coh _ q => q.tries
    | _ => 0
  let o1 : Outst := { o with stamp := stamp, resends := 0, waiting := false, timed := true,
                             pkt := { o.pkt with body := body } }
  let s1 : State := { s with outst := s.outst.map (fun (e : Outst) => if e.id = o.id then o1 else e) }
  let bump := fun (w : Wait) => if w.tag = NetPkt.accessTag o.pkt then { w with refusals := n + 1 } else w
  (if o.kind = 0 then
      s1.updCtx o.core o.ctx (fun c => { c with wait := c.wait.map bump, hung := c.hung.map bump })
    else s1).after (backoff n) .backoffExpire { x := o.id, y := stamp, flag := true }

/-- The result that a completed local access receives from a line. -/
def locResult (m : Msg) (line : List Byte) : AccRes := .data (leNat ((line.drop m.off).take m.len))

/-! ### L1 data caches (R2, R226, R227) -/

/-- R227: the core in whose L1 data cache a core's line lies. -/
def State.l1Core (s : State) (core g : Nat) : Nat :=
  if (s.cluster (clusterOf core)).fused then coreAt (clusterOf core) (Config.fusedSlice g % 16) else core

/-- The number of a core's cluster within its tile. -/
def clusterBit (core : Nat) : Nat := (coreRow core % 16) / 4 * 4 + (coreCol core % 16) / 4

/-- R2: 16 KiB. -/
def l1Lines : Nat := 256

/-- A list of at most `cap` entries takes one more; a full one gives up an entry that nothing fixes. -/
def State.keepIn {α : Type} (s : State) (cap : Nat) (l : List α) (x : α) : List α × State :=
  if l.length < cap then (x :: l, s) else (x :: l.eraseIdx (Config.victim s.free % cap), s.useFree)

/-- R226: a load brings a line that the slice holds into the L1 of its core. -/
def State.l1Fill (s : State) (core g : Nat) (line : List Byte) : State :=
  let n := s.l1Core core g
  let (l, s1) := s.keepIn l1Lines ((s.core n).l1.filter (fun e => e.1 != g)) (g, line)
  s1.updCore n (fun c => { c with l1 := l })

/-- R226: a line leaves the L1s of the clusters of a mask. -/
def State.l1Drop (s : State) (tile g mask : Nat) : State :=
  if mask = 0 then s
  else
    let l := s.cores.map (fun e =>
      if tileOf e.1 = tile && mask / 2 ^ clusterBit e.1 % 2 = 1 then (e.1, { e.2 with l1 := e.2.l1.filter (fun x => x.1 != g) })
      else e)
    { s with cores := l.filter (fun e => decide (e.2 ≠ {})) }

/-! ### Actions -/

/-- What the actions of one agent entry have produced so far; `acc` is the access that they complete, and `over` says
that it is complete. -/
structure AgAct where
  s : State
  a : AgentLine
  acc : Option LocReq := none
  over_ : Bool := false

/-- R275: the tile routers from one tile to another: along the column of tiles, then along the row (DEDUCED, log entry 72). -/
def tilePath (a b : Nat) : List Nat :=
  let steps := fun (x y : Nat) => (List.range (if x ≤ y then y - x else x - y)).map (fun i => if x ≤ y then x + i + 1 else x - i - 1)
  (a :: (steps (a / 8) (b / 8)).map (fun r => 8 * r + a % 8)) ++ (steps (a % 8) (b % 8)).map (fun c => 8 * (b / 8) + c)

/-- R287, R291: an add stops at a router, for a partner or with one; a reduction of another op stops where one is queued. -/
def State.stopsAt (s : State) (r : Nat) (op : AOp) : Bool :=
  let c := s.csrAt (0x4020000 + 32 * r)
  wbit c 63 && ((op = .add && wbits c 7 0 != 0) || !(s.router r).queue.isEmpty)

/-- R287, R291: a tile router on the way of an atomic's request combines or holds it. Towards another cube the way leads from
the requester's tile router to Chervil. -/
def State.viaRouter (s : State) (ev : Ev) (m : Msg) : Bool :=
  let t := m.agent % 64
  ev = .amor && m.tag != 7 && (match m.op with
    | some (.amo op _ _) => (if m.home = s.self then tilePath t (homeTile m.la) else [t]).any (fun r => s.stopsAt r op)
    | _ => false)

/-- A message to the home to which its access was resolved (R223). -/
def State.sendHome (s : State) (ev : Ev) (m : Msg) : State :=
  if s.viaRouter ev m then
    s.post .packetRoute { x := m.agent % 64, body := .net (cohPacket m.home (homeTile m.la) ev m) }
  else s.sendMsg m.home (homeTile m.la) ev m

/-- R283, R284: a request to a home, under the next number of its agent; the source keeps it. -/
def State.toHome (s : State) (ev : Ev) (m : Msg) : Msg × State :=
  let (src, s1) := s.number (numbererOf ev m)
  let red := m.cons.map (fun (c : Constituent) => { c with src := src })
  let m1 := { m with src := src, cons := red }
  (m1, (s1.keep (cohPacket m.home (homeTile m.la) ev m1)).sendHome ev m1)

/-- R249: one agent action; `me` is the agent, `m` the event's message. -/
def AgAct.step (x : AgAct) (me : Nat) (ev : Ev) (m : Msg) (act : Nat) : AgAct :=
  let tile := me % 64
  let g := m.gpa / 64
  let line := x.a.data.getD (x.a.victim.getD m.data)
  let spoilt := if x.a.bad.isSome then 0x12 else 0
  let req := fun (e : Ev) =>
    let (m1, s1) := x.s.toHome e { m with agent := me, data := if e = .wbr then line else [],
                                          cause := if e = .wbr then spoilt else 0 }
    if ev = .evict then { x with s := s1 }
    else { x with s := s1, a := { x.a with cur := x.a.cur ++ [{ loc := ev, req := e, m := m1 }] } }
  let l1 := fun (y : AgAct) => { y with s := y.s.l1Drop tile g y.a.mask, a := { y.a with mask := 0 } }
  match act with
  | 0x20 => req .gets
  | 0x21 => req .getx
  | 0x22 => req .putr
  | 0x23 =>
    let y := req .wbr
    { y with a := { y.a with dirty := false } }
  | 0x24 => req .amor
  | 0x25 => req .dropr
  | 0x26 =>
    { x with s := x.s.sendHome .dath { m with data := line, agent := me, cause := spoilt }, a := { x.a with dirty := false } }
  | 0x27 =>
    if ev = .upd then { x with s := x.s.toAgent .ackh { m with dst := m.agent, toAgent := true } }
    else { x with s := x.s.sendHome .ackh { m with toAgent := false } }
  | 0x28 => { x with s := x.s.sendHome .putn { m with agent := me } }
  | 0x29 =>
    if ev.brings then
      { x with a := { x.a with data := some m.data, bad := none, home := m.home, mirror := m.mirror, la := m.la, dirty := false,
                               fw := m.fw } }
    else x
  | 0x2A =>
    (match x.acc with
      | some r => if r.loc = .st then l1 { x with a := { x.a with data := some (patchMany line r.m.bytes), dirty := true } } else l1 x
      | none => l1 x)
  | 0x2B => l1 { x with a := { x.a with data := x.a.data.map (fun l => patchMany l m.bytes) } }
  | 0x2C =>
    (match x.acc with
      | some r =>
        let res := if r.loc = .ld && x.a.bad.isSome then .fail 0x12
          else if r.loc = .ld || r.loc = .pfw then locResult r.m (x.a.data.getD m.data)
          else if r.loc = .amol then .data m.val else .data 0
        let y := { x with s := x.s.answer r.m.own res, over_ := true }
        if r.loc = .ld && r.m.tag = 0 && r.m.own.agent = 0 && x.a.data.isSome && x.a.bad = none then
          { y with s := y.s.l1Fill r.m.own.gcid g line,
                   a := { y.a with mask := y.a.mask ||| 2 ^ clusterBit r.m.own.gcid } }
        else y
      | none => x)
  | 0x2D => l1 x
  | 0x2E => l1 { x with a := { x.a with data := none, bad := none, dirty := false } }
  | 0x2F => { x with a := { x.a with victim := x.a.data, data := none } }
  | 0x30 => { x with a := { x.a with victim := none, bad := none } }
  | _ => x

/-- The answer that an FWD finds at an agent without the line's image (R262): as from state I. -/
def State.fwdAsI (s : State) (ev : Ev) (m : Msg) : State :=
  match ev with
  | .putg => s.sendHome .putn m
  | .upd => s.toAgent .ackh { m with dst := m.agent, toAgent := true }
  | _ => s.sendHome .ackh { m with toAgent := false }

/-! ### Local events -/

/-- A GETS or GETX of the line is pending (R243.3, R243.4). -/
def AgentLine.pends (a : AgentLine) (e : Ev) : Bool := a.cur.any (fun r => r.req = e)

/-- The outcome of presenting a local event: it is kept, for the miss queue, or not. -/
abbrev LocOut := Bool × State

/-- R243.1: a local access to a line that the agent does not hold. While a fill is on its way, one that needs a fill
waits for it. -/
def State.locMiss (s : State) (tile : Nat) (ev : Ev) (m : Msg) : LocOut :=
  let g := m.gpa / 64
  let a := s.agent tile g
  let go := fun (e : Ev) (m0 : Msg) =>
    let (m1, s1) := s.toHome e { m0 with agent := s.agentId tile }
    (false, s1.setAgent tile g { a with cur := a.cur ++ [{ loc := if ev = .pfw then .ld else ev, req := e, m := m1 }] })
  match ev with
  | .wbl => (false, s.answer m.own (.data 0))
  | .ld | .pfw | .st =>
    if a.pends .gets || a.pends .getx then (true, s)
    else if ev = .st then go .getx m
    else go .gets (if ev = .pfw then { m with tag := 1 } else m)
  | .amol => go .amor m
  | .dropl => go .dropr m
  | _ => (false, s)

/-- The end of a local event that is no eviction: an eviction has no access. -/
def State.locEnd (s : State) (ev : Ev) (m : Msg) (r : AccRes) : State := if ev = .evict then s else s.answer m.own r

/-- A local event in a state other than 0 (R246, R249). A fault entry ends the access; a refusal presents it again after
the backoff; a stall performs the entry's actions, enters its state and keeps the event. In a custom slot, DROP traps
(R235). -/
def State.locHit (s : State) (tile : Nat) (img : List Byte) (ev : Ev) (m : Msg) : LocOut :=
  let g := m.gpa / 64
  let a := s.agent tile g
  let e := imgEntry img true a.st ev.code
  if ev = .dropl && 6 ≤ a.slot then (false, s.locEnd ev m (.fail 0x08))
  else
    match entDisp e with
    | 3 => (false, s.locEnd ev m (.fail (bitsOf e 9 4)))
    | 2 => (false, s.locEnd ev m .refused)
    | disp =>
      let acc := if ev = .evict then none else some { loc := ev, req := ev, m := m }
      let x := (entActs e).foldl (fun x c => x.step (s.agentId tile) ev m c) ({ s := s, a := a, acc := acc } : AgAct)
      let s1 := x.s.setAgent tile g { x.a with st := entNext e }
      if disp = 1 then (true, s1)
      else (false, if ev = .pfw && x.a.cur.length = a.cur.length && !x.over_ then s1.answer m.own (.data 0) else s1)

/-- A local event is presented: by hardware where the line is not held (R243.1), else to the table. -/
def State.locPresent (s : State) (tile : Nat) (ev : Ev) (m : Msg) : LocOut :=
  let a := s.agent tile (m.gpa / 64)
  if a.st = 0 then s.locMiss tile ev m
  else
    match s.image a.slot with
    | some img => s.locHit tile img ev m
    | none => s.locMiss tile ev m

/-- The thread that an access belongs to: its core and context, or the step that makes it. -/
def Msg.thread (m : Msg) : Src := { m.own with seq := if m.own.agent = 0 then m.own.seq % 256 else m.own.seq }

/-- R243.6: an access of the same thread to the line is under way or waits. -/
def AgentLine.busyFor (a : AgentLine) (m : Msg) : Bool := a.cur.any (fun r => Msg.thread r.m = Msg.thread m)

/-- R381: the line of an access lies in the firmware region of its home, and the slice holds it. -/
def State.heldFw (s : State) (tile : Nat) (m : Msg) : Bool :=
  let a := s.agent tile (m.gpa / 64)
  a.st != 0 && (a.fw || (m.home = s.self && s.inFwRegion m.la))

/-- R243.6, R243.9: a local event at an agent: a thread's accesses to one line go in order; what stalls waits. The firewall
refuses one to a line that the slice holds as its home would (R381). -/
def State.locEvent (s : State) (tile : Nat) (ev : Ev) (m : Msg) : State :=
  let g := m.gpa / 64
  let a := s.agent tile g
  let wait := fun (t : State) => t.setAgent tile g { t.agent tile g with missq := (t.agent tile g).missq ++ [(ev, m)] }
  if m.level < 2 && s.heldFw tile m then s.answer m.own (.fail 0x08)
  else if a.busyFor m || a.missq.any (fun e => Msg.thread e.2 = Msg.thread m) then wait s
  else
    match s.locPresent tile ev m with
    | (true, s1) => wait s1
    | (false, s1) => s1

/-- R283: the agents that may have to number a request of a waiting access can do so now. -/
def State.missFree (s : State) (tile : Nat) (m : Msg) : Bool :=
  s.numberFree (.slice tile) && s.numberFree (numbererOf .amor m)

/-- R243.9: the accesses that wait at the agent for the line are presented, oldest first, until one waits again. -/
def State.agentRun (tile g : Nat) : Nat → State → State
  | 0, s => s
  | n + 1, s =>
    let a := s.agent tile g
    match a.missq with
    | [] => s
    | (ev, m) :: rest =>
      if a.busyFor m then s
      else if !s.missFree tile m then
        s.after 64 .ackh { body := .msg { m with dst := s.agentId tile, toAgent := true, tag := 10 } }
      else
        match (s.setAgent tile g { a with missq := rest }).locPresent tile ev m with
        | (false, s1) => State.agentRun tile g n s1
        | (true, s1) => s1.setAgent tile g { s1.agent tile g with missq := (ev, m) :: (s1.agent tile g).missq }

/-! ### Capacity of the slices (R2, R226, R348) -/

/-- The lines of a tile's slice that hold data in a set, but for line `g`. -/
def State.inSet (s : State) (tile g set : Nat) : List (Nat × AgentLine) :=
  s.agents.filter (fun e => e.1 / 2 ^ 50 = tile && e.1 % 2 ^ 50 != g && e.2.data.isSome &&
    Config.l2Set (e.1 % 2 ^ 50) % 2048 = set)

/-- A line homed in another vault or on another cube (R226). -/
def State.remoteLine (s : State) (tile home la : Nat) : Bool := home != s.self || homeTile la != tile

/-- R345: a way of a slice is being tested and is not allocated. -/
def State.waysTesting (s : State) (tile : Nat) : Nat :=
  (s.tests.filter (fun t => match t.place with
    | .l2Way k w => k = tile && !((s.tile tile).waysOff.contains w)
    | _ => false)).length

/-- R2, R345, R348: the ways of a slice that may be allocated. -/
def State.waysOn (s : State) (tile : Nat) : Nat := 16 - (s.tile tile).waysOff.length - s.waysTesting tile

/-- R226, R348: the ways that remote lines may use. -/
def State.remoteWays (s : State) (tile : Nat) : Nat :=
  Nat.max 1 (Nat.min 8 ((16 - (s.tile tile).waysOff.length) / 2))

/-- R348: with no way left, a slice passes every access through. -/
def State.passThrough (s : State) (tile : Nat) : Bool := 16 ≤ (s.tile tile).waysOff.length

/-- R226: which lines stand in the way of installing a line, and whether there is room. -/
def State.roomFor (s : State) (tile g : Nat) (remote : Bool) : Bool × List (Nat × AgentLine) :=
  let l := s.inSet tile g (Config.l2Set g % 2048)
  let far := l.filter (fun e => s.remoteLine tile e.2.home e.2.la)
  if remote && s.remoteWays tile ≤ far.length then (false, far)
  else (l.length < s.waysOn tile, l)

/-- Whether the agent's line is in a stable state (R247). -/
def State.agentStable (s : State) (a : AgentLine) : Bool :=
  match s.image a.slot with
  | some img => attrStable (imgAttr img true a.st)
  | none => true

/-- R242: EVICT of a line that the slice replaces. -/
def State.evictLine (s : State) (tile g : Nat) : State :=
  let a := s.agent tile g
  match s.image a.slot with
  | some img =>
    (s.locHit tile img .evict { gpa := g * 64, slot := a.slot, protid := a.protid, la := a.la, home := a.home,
                                mirror := a.mirror, level := 2 }).2
  | none => s

/-- The lines that a slice can replace: held in a stable state, with nothing under way. -/
def State.idleLines (s : State) (l : List (Nat × AgentLine)) : List (Nat × AgentLine) :=
  l.filter (fun e => e.2.cur.isEmpty && e.2.missq.isEmpty && e.2.victim.isNone && s.agentStable e.2)

/-- R226, R242: room for a line that a fill installs: another line of the set is replaced where there is none. A slice
without a way takes a line that it had asked for, and gives it up at once (R348). -/
def State.makeRoom (s : State) (tile g : Nat) (remote : Bool) : Bool × State :=
  match (if s.passThrough tile then (true, []) else s.roomFor tile g remote) with
  | (true, _) => (true, s)
  | (false, l) =>
    match s.idleLines l with
    | [] => (false, s)
    | idle =>
      if !s.numberFree (.slice tile) then (false, s)
      else
        let s1 := s.useFree
        let s2 := match idle[Config.evict s.free % idle.length]? with
          | some e => s1.evictLine tile (e.1 % 2 ^ 50)
          | none => s1
        ((s2.roomFor tile g remote).1, s2)

/-- R345, R348: a line that the slice holds idle is written back and given up. -/
def State.giveUp (s : State) (tile g : Nat) : State :=
  if (s.agent tile g).data.isSome && !(s.idleLines [(0, s.agent tile g)]).isEmpty && s.numberFree (.slice tile) then
    s.evictLine tile g
  else s

/-- R348: the lines of a slice that its enabled ways cannot hold are written back. -/
def State.trimSlice (s : State) (tile : Nat) : State :=
  (s.agents.filter (fun e => e.1 / 2 ^ 50 = tile && e.2.data.isSome)).foldl (fun t e =>
    let g := e.1 % 2 ^ 50
    let l := t.inSet tile g (Config.l2Set g % 2048)
    let far := l.filter (fun o => t.remoteLine tile o.2.home o.2.la)
    if t.waysOn tile ≤ l.length || (t.remoteLine tile e.2.home e.2.la && t.remoteWays tile ≤ far.length) then t.giveUp tile g
    else t) s

/-- R242 EVICT: after a fill, the slice may replace another line that it holds in a stable state. -/
def State.maybeEvict (s : State) (tile g : Nat) : State :=
  match s.idleLines (s.agents.filter (fun e => e.1 / 2 ^ 50 = tile && e.1 % 2 ^ 50 != g && e.2.data.isSome)) with
  | [] => s
  | others =>
    let s1 := s.useFree
    match Config.evict s.free with
    | 0 => s1
    | k + 1 =>
      match others.drop k with
      | (key, _) :: _ => if s.numberFree (.slice tile) then s1.evictLine tile (key % 2 ^ 50) else s1
      | [] => s1

/-- The accesses that wait at the agent for the line are presented again; a slice without a way then gives the line up
(R348). -/
def State.agentNext (s : State) (tile g : Nat) : State :=
  let s1 := State.agentRun tile g (s.agent tile g).missq.length s
  if s1.passThrough tile then s1.giveUp tile g else s1

/-- R243.4: FWDs that waited for a fill are presented; without one, the accesses that wait. -/
def State.agentGoesOn (s : State) (tile g : Nat) : State :=
  let a := s.agent tile g
  if a.pends .getx || a.held.isEmpty then s.agentNext tile g
  else a.held.foldl (fun t e => t.post e.1.instr { body := .msg e.2 }) (s.setAgent tile g { a with held := [] })

/-! ### Responses -/

/-- R262: the agent's cube holds the image that a response or FWD names. -/
def State.imageMatches (s : State) (m : Msg) : Bool :=
  (s.image m.slot).isSome && s.protid m.slot = m.protid

/-- The access that a response belongs to. -/
def AgentLine.access (a : AgentLine) (m : Msg) : Option LocReq := a.cur.find? (fun r => r.m.src = m.src)

/-- The accesses in progress but for one. -/
def AgentLine.without (a : AgentLine) (m : Msg) : AgentLine := { a with cur := a.cur.filter (fun r => r.m.src != m.src) }

/-- R243.3: the loads of the miss queue that a stale fill completes too: what is left of the queue, and their answers. A
load behind another access of its thread stays (R243.6). -/
def State.alsoServed (s : State) (line : List Byte) (l : List Src) (q : List (Ev × Msg)) : List (Ev × Msg) × State :=
  q.foldl (fun acc e =>
    if l.contains e.2.own && !(acc.1.any (fun o => Msg.thread o.2 = Msg.thread e.2)) then
      (acc.1, acc.2.answer e.2.own (locResult e.2 line))
    else (acc.1 ++ [e], acc.2)) ([], s)

/-- A response that completes the waiting access and installs nothing (R243.3, R262). -/
def State.completeBare (s : State) (tile : Nat) (m : Msg) : State :=
  let g := m.gpa / 64
  let a := s.agent tile g
  match a.access m with
  | some r =>
    let (q, s1) := s.alsoServed m.data r.also a.missq
    (s1.setAgent tile g { a.without m with missq := q }).answer r.m.own
      (if r.loc = .ld then locResult r.m m.data else if r.loc = .amol then .data m.val else .data 0)
  | none => s.setAgent tile g (a.without m)

/-- An event presented to the agent table of an image (R246, R249). A refused response is consumed. -/
def State.agentTable (s : State) (tile : Nat) (img : List Byte) (ev : Ev) (m : Msg) : State :=
  let g := m.gpa / 64
  let a := s.agent tile g
  let e := imgEntry img true a.st ev.code
  if entDisp e = 3 then
    s.raiseAt (some (s.regionPart (bitsOf m.gpa 55 48)))
      (event23 4 (BitVec.ofNat 64 (0x2000000000000000 + m.gpa / 64 * 64)))
  else if entDisp e != 0 then s
  else
    let acc := if ev.cls = 1 then a.cur.head? else a.access m
    let x := (entActs e).foldl (fun x c => x.step (s.agentId tile) ev m c) ({ s := s, a := a, acc := acc } : AgAct)
    let a1 := match acc with
      | some r => if x.over_ then x.a.without r.m else x.a
      | none => x.a
    x.s.setAgent tile g { a1 with st := entNext e, slot := m.slot, protid := m.protid }

/-- The accesses in progress with one replaced. -/
def AgentLine.withAccess (a : AgentLine) (r : LocReq) : AgentLine :=
  { a with cur := a.cur.map (fun o => if o.m.src = r.m.src then r else o) }

/-- A response (DATS, DATX, DATU, ACK) at its requester. -/
def State.agentResponse (s : State) (ev : Ev) (m : Msg) : State :=
  let tile := m.dst % 64
  let g := m.gpa / 64
  let a := s.agent tile g
  let r := a.access m
  if m.tag = 2 then
    s.answer m.own (match m.op with
      | some _ => .data m.val
      | none => .data (leNat ((m.data.drop m.off).take m.len)))
  else if ev = .ack && m.tag = 6 then (s.setAgent tile g (a.without m)).answer m.own .waiting
  else if m.tag = 4 then s.answer m.own (.data m.val)
  else if ev = .ack && r.any (fun q => q.acksGot < m.val) then
    s.setAgent tile g (match r with
      | some q => a.withAccess { q with acksWant := some m.val }
      | none => a)
  else if r.any (fun q => q.noInstall) then s.completeBare tile m
  else if !s.imageMatches m then s.completeBare tile m
  else
    match s.image m.slot with
    | some img => s.agentTable tile img ev m
    | none => s.completeBare tile m

/-- R244: the end of an access that the agent's line serves; a line in a transient state is given up (DESIGN
CHOICE, log entry 59), and its L1s no longer hold it (R226). -/
def State.agentEnds (s : State) (tile : Nat) (m : Msg) (r : AccRes) : State :=
  let g := m.gpa / 64
  let a := s.agent tile g
  match a.access m with
  | none => s
  | some q =>
    if s.agentStable a then ((s.setAgent tile g (a.without m)).answer q.m.own r).agentGoesOn tile g
    else
      let a1 := { a.without m with st := 0, data := none, victim := none, mask := 0, dirty := false }
      (((s.l1Drop tile g a.mask).setAgent tile g a1).answer q.m.own r).agentGoesOn tile g

/-- R243.8: an acknowledgement of a UPD at the agent whose store it counts for. An uncached write does not wait for it
(R244). -/
def State.agentAckh (s : State) (tile : Nat) (m : Msg) : State :=
  let g := m.gpa / 64
  let a := s.agent tile g
  match a.access m with
  | none => s
  | some q =>
    let q1 := { q with acksGot := q.acksGot + 1 }
    let s1 := s.setAgent tile g (a.withAccess q1)
    if q1.acksWant = some q1.acksGot then
      match (if s1.imageMatches m then s1.image m.slot else none) with
      | some img => (s1.agentTable tile img .ack m).agentGoesOn tile g
      | none => (s1.completeBare tile m).agentGoesOn tile g
    else s1

/-- R243.3, R243.4: whether an FWD waits for the fill of a pending GETX: a recall is held whatever the line's state; in
state 0 every FWD is, but for a UPD, whose answer the pending store itself waits for (DEDUCED, log entry 63). -/
def AgentLine.holdsFwd (a : AgentLine) (ev : Ev) : Bool :=
  a.pends .getx && (ev = .rcls || ev = .rcli || (a.st = 0 && ev != .upd))

/-- R243.3, R243.4, R262: an FWD at an agent. The loads that wait when a pending fill becomes stale are completed by it; a
load that comes later asks the home anew (R234). -/
def State.agentFwd (s : State) (tile : Nat) (ev : Ev) (m : Msg) : State :=
  let g := m.gpa / 64
  let a := s.agent tile g
  if a.pends .gets && (ev = .inv || ev = .disc) && a.st = 0 then
    let loads := (a.missq.filter (fun e => e.1 = .ld || e.1 = .pfw)).map (fun e => e.2.own)
    (s.setAgent tile g { a with cur := a.cur.map (fun r =>
      if r.req = .gets then { r with noInstall := true, also := if r.noInstall then r.also else loads } else r) }).sendHome
      .ackh { m with toAgent := false }
  else if a.holdsFwd ev then s.setAgent tile g { a with held := a.held ++ [(ev, m)] }
  else if !s.imageMatches m then s.fwdAsI ev m
  else
    match s.image m.slot with
    | some img => (s.agentTable tile img ev m).agentNext tile g
    | none => s.fwdAsI ev m

/-- Whether a response installs a line in a slice that does not hold it. -/
def State.installs (s : State) (tile : Nat) (ev : Ev) (m : Msg) : Bool :=
  let a := s.agent tile (m.gpa / 64)
  ev.brings && !([2, 3, 4].contains m.tag) && a.data.isNone && s.imageMatches m &&
    !((a.access m).any (fun r => r.noInstall)) && (match s.image m.slot with
      | some img => (entActs (imgEntry img true a.st ev.code)).contains 0x29
      | none => false)

/-- A response that its source awaits. -/
def State.agentAwaited (s : State) (o : Outst) (ev : Ev) (m : Msg) : State :=
  let tile := m.dst % 64
  let g := m.gpa / 64
  let over_ := s.notAwaited o.id
  match ev with
  | .nack => s.requestAgain o
  | .flt =>
    if m.tag = 3 then over_.mirrorDone m
    else if m.tag = 2 || m.tag = 4 then over_.answer m.own (.fail m.cause)
    else over_.agentEnds tile m (.fail m.cause)
  | .putg => over_.agentFwd tile ev m
  | _ =>
    if m.tag = 3 then over_.mirrorDone m
    else if ev = .ack && m.tag = 6 then
      (({ s with outst := s.outst.map (fun (e : Outst) => if e.id = o.id then { e with waiting := true, waited := true } else e) }
        : State).agentResponse ev m).agentGoesOn tile g
    else
      let s1 := over_.agentResponse ev m
      let s2 := if m.tag = 2 then s1 else s1.agentGoesOn tile g
      if ev.brings && !([2, 3, 4].contains m.tag) && (s2.agent tile g).data.isSome then
        (if s2.passThrough tile then s2.giveUp tile g else s2.maybeEvict tile g)
      else s2

/-- The arrival of an FWD or RSP event at an agent. A response that nobody awaits is ignored (R285); one that installs a
line waits for room. -/
def State.agentArrive (s : State) (ev : Ev) (m0 : Msg) : State :=
  let tile := m0.dst % 64
  if (ev.cls = 2 && ev != .ackh) || ev = .putg then
    match s.asked m0 with
    | none => s
    | some o =>
      let m := o.own m0
      if s.installs tile ev m then
        match s.makeRoom tile (m.gpa / 64) (s.remoteLine tile m.home m.la) with
        | (true, s1) => s1.agentAwaited o ev m
        | (false, s1) => s1.after 64 ev.instr { body := .msg m0 }
      else s.agentAwaited o ev m
  else if ev = .ackh then (if m0.tag = 10 then s.agentNext tile (m0.gpa / 64) else s.agentAckh tile m0)
  else s.agentFwd tile ev m0

/-! ## Presenting any protocol event -/

/-- One event of R242 at the place it goes to. -/
def State.protocol (s : State) (ev : Ev) (m : Msg) : State :=
  match ev with
  | .gets | .getx | .putr | .wbr | .uread | .uwrite | .amor | .dropr | .recall | .dath | .putn =>
    s.homeArrive ev m
  | .ackh => if m.toAgent then s.agentArrive ev m else s.homeArrive ev m
  | _ => s.agentArrive ev m

/-- R303: a message of another cube's firmware level names the control space by the region 0xFF. -/
def farCtl (m : Msg) : Bool := bitsOf m.gpa 55 48 = 0xFF && m.tag != 3

/-- The first protocol event of the agenda and what remains. An access to the control space is none. -/
def takeProtocol : List Item → Option (Ev × Msg × List Item)
  | [] => none
  | it :: rest =>
    let skip := (takeProtocol rest).map (fun r => (r.1, r.2.1, it :: r.2.2))
    match it with
    | .event i a =>
      (match evOf i with
        | some ev =>
          if (ev = .uread || ev = .uwrite) && farCtl a.body.theMsg then skip else some (ev, a.body.theMsg, rest)
        | none => skip)
    | .issue _ => skip

/-- The protocol events on the agenda happen in turn, until the access in the latch is answered. -/
def drain : Nat → State → State
  | 0, s => s
  | n + 1, s =>
    match s.resp with
    | some _ => s
    | none =>
      match takeProtocol s.agenda with
      | none => s
      | some (ev, m, rest) => drain n ({ s with agenda := rest }.protocol ev m)

end Sys2Proof.Machine
end

