-- ==== Sys2Proof/Machine/Control.lean ====
section
/-! DEFINITION. The cube control space (R303): what a load returns and what a store changes, register by
register. The event of an action that a store starts happens within the same step. -/

namespace Sys2Proof.Machine

/-- The mask of bits `hi` down to `lo`. -/
def maskBits (hi lo : Nat) : Nat := 2 ^ (hi + 1) - 2 ^ lo

/-! ## Loads -/

/-- R214: the code of a wait. -/
def WKind.code : WKind → Nat
  | .clusterSem => 1 | .cubeSem => 2 | .barrier => 3 | .recv => 4 | .fullEmpty => 5 | .send => 6
  | .engineQueue => 7 | .bounceSlot => 8 | .launchQueue => 9
  | _ => 0

/-- R214: the code of a state. -/
def CState.code : CState → Nat
  | .free => 0 | .running => 1 | .blocked => 2 | .parked => 3 | .readyParked => 4 | .stopped => 5

/-- R214: CTXWAIT of a context. A wait that an interrupt did not withdraw is still registered (R318). -/
def State.ctxWait (s : State) (core id : Nat) : Word :=
  let c := s.ctx core id
  let w := match c.wait with
    | some w => some w
    | none => (c.hung.find? (fun w => w.got = none))
  let kw := match w with
    | some w => if w.got = none && w.kind.blocks then (w.kind.code, w.what) else (0, 0)
    | none => (0, 0)
  BitVec.ofNat 64 (kw.1 * 2 ^ 60 + c.st.code * 2 ^ 57 + kw.2 % 2 ^ 57)

/-- R205: ELAPSED in cycles now. -/
def State.lqElapsed (s : State) (q : Nat) : Nat :=
  let l := s.lq q
  if l.runs.isEmpty || l.stopped then l.elapsed else l.elapsed + (s.now - l.since)

/-- R204: LQCTL as a load returns it. -/
def State.lqCtlRead (s : State) (q : Nat) : Word :=
  let l := s.lq q
  let w := s.lqCtl q
  let w1 := setBits (setBits w 62 62 0) 61 61 (if l.stopped then 1 else 0)
  setBits (setBits (setBits w1 38 32 l.descs.length) 31 24 l.runs.length) 23 0 l.pushes

/-- R240: a word of a range-table entry. -/
def State.rangeRead (s : State) (tile e w : Nat) : Word :=
  match (s.tile tile).ranges.lookup e with
  | some r =>
    if w = 0 then BitVec.ofNat 64 (2 ^ 63 + r.slot * 2 ^ 56 + r.base) else BitVec.ofNat 64 r.k
  | none => 0

/-- R241: BOUND. -/
def State.boundBits (s : State) : Nat :=
  (List.range 8).foldl (fun acc k =>
    if k = 0 || s.tiles.any (fun t => t.2.ranges.any (fun r => r.2.slot = k)) then acc + 2 ^ k else acc) 0

/-- R241: LOADED. -/
def State.loadedBits (s : State) : Nat :=
  (List.range 8).foldl (fun acc k => if (s.image k).isSome then acc + 2 ^ k else acc) 0

/-- R241: a slot register. -/
def State.slotReg (s : State) (off : Nat) : Word :=
  if off = 0x4010000 then BitVec.ofNat 64 (s.boundBits * 256 + s.loadedBits)
  else if off = 0x4010008 then s.csrAt off
  else if off < 0x4010050 then BitVec.ofNat 64 (s.protid ((off - 0x4010010) / 8))
  else 0

/-- R376: a word of a measurement. -/
def State.measWord (s : State) (n w : Nat) : Word := wordAt (mget (List.replicate 64 0) s.meas n) w

/-- R303: a load of the cube control space. An offset that holds no register returns 0. -/
def State.ctlRead (s : State) (off : Nat) : Word :=
  if 0x2000 ≤ off ∧ off < 0x2400 then
    if off % 16 = 0 then s.lqCtlRead ((off - 0x2000) / 16)
    else setBits (s.csrAt off) 31 0 (s.lqElapsed ((off - 0x2000) / 16) / cyclesPerUs)
  else if 0x100000 ≤ off ∧ off < 0x2100000 then
    s.ctxWait ((off - 0x100000) / 2048) ((off - 0x100000) / 8 % 256)
  else if 0x4000000 ≤ off ∧ off < 0x4008000 then
    s.rangeRead ((off - 0x4000000) / 512) (off % 512 / 16) (off % 16 / 8)
  else if 0x4010000 ≤ off ∧ off < 0x4010050 then s.slotReg off
  else if 0x40A0000 ≤ off ∧ off < 0x40A0400 then
    s.measWord ((off - 0x40A0000) / 64) (off % 64 / 8)
  else if 0x40A0400 ≤ off ∧ off < 0x40A0440 then 0
  else s.csrAt off

/-! ## Stores -/

/-- The bits that a firmware-level store replaces in a register that starts no action. -/
def fwMask (off : Nat) : Nat :=
  if 0x1000 ≤ off ∧ off < 0x2000 then
    match off % 64 / 8 with
    | 0 => maskBits 63 60 + maskBits 45 0
    | 5 => maskBits 31 0
    | 6 => maskBits 55 12
    | 7 => maskBits 16 0
    | _ => maskBits 63 63 + maskBits 35 0
  else if 0x2000 ≤ off ∧ off < 0x2400 then
    if off % 16 = 0 then maskBits 63 63 + maskBits 59 52 + maskBits 45 40 else maskBits 63 32
  else if 0x3000 ≤ off ∧ off < 0x4000 then
    if off % 16 = 0 then maskBits 63 56 + maskBits 51 0 else maskBits 53 0
  else if 0x8000 ≤ off ∧ off < 0x28000 then 0xBFFFBFFFBFFFBFFF
  else if off = 0x4010008 then maskBits 7 0
  else if 0x4020000 ≤ off ∧ off < 0x4020820 then
    if off % 32 = 0 then maskBits 63 63 + maskBits 7 0 else 0
  else if 0x4030000 ≤ off ∧ off < 0x4040000 then
    if off % 16 = 0 then maskBits 63 59 + maskBits 57 20 + maskBits 5 0 else 0
  else if 0x4050000 ≤ off ∧ off < 0x4050300 then
    if off % 64 = 0 then
      maskBits 63 63 + maskBits 61 44 + (if (off - 0x4050000) / 64 = 10 ∨ (off - 0x4050000) / 64 = 11 then
        maskBits 62 62 else 0)
    else 0
  else if off = 0x4050300 then maskBits 63 34
  else if 0x4050308 ≤ off ∧ off < 0x4050328 then maskBits 63 0
  else if off = 0x4050400 ∨ off = 0x4050500 then maskBits 63 63 + maskBits 25 0
  else if off = 0x4060000 then maskBits 63 63 + maskBits 55 19
  else if 0x4080000 ≤ off ∧ off < 0x4090000 then
    if off % 0x200 = 0 then maskBits 10 0
    else if off % 0x200 = 8 then maskBits 63 63 + maskBits 15 0 else 0
  else if 0x40A0400 ≤ off ∧ off < 0x40A0440 then maskBits 63 0
  else if off = 0x40A0440 then maskBits 3 0
  else if off = 0x40C0000 then maskBits 15 0
  else if 0x4100000 ≤ off ∧ off < 0x4120000 then maskBits 63 0
  else 0

/-- A register with the masked bits replaced. -/
def State.setMasked (s : State) (off : Nat) (mask : Nat) (v : Word) : State :=
  let m := BitVec.ofNat 64 mask
  s.setCsr off ((s.csrAt off &&& ~~~m) ||| (v &&& m))

/-- The half-vaults that a store to LMAPRET newly retires (R362). -/
def newBits (old v : Word) : List Nat := (List.range 64).filter (fun k => wbit v k && !wbit old k)

/-- R303, R296: a store to w0 of a collective group entry configures the group. -/
def State.groupConfigure (s : State) (off : Nat) : State :=
  let g := (off - 0x4030000) / 16
  { (s.setCsr (off + 8) 0).updGroup g (fun _ => {}) with colls := s.colls.filter (fun c => c.group != g) }

/-- R303: an action that a store starts is part of the store: it is performed within the step being taken. -/
def State.act (s : State) (i : Instr) (a : EvArg) : State := { s with acts := s.acts ++ [(i, a)] }

/-- The action that a firmware-level store starts, after its plain fields have been replaced. -/
def State.fwAction (s : State) (off : Nat) (old v : Word) : State :=
  if 0x1000 ≤ off ∧ off < 0x2000 then
    if off % 64 = 40 then
      ((List.range 64).filter (fun q => s.lqPart q = (off - 0x1000) / 64)).foldl
        (fun t q => t.act .watchdogExpire { x := q, flag := true }) s
    else s
  else if 0x2000 ≤ off ∧ off < 0x2400 then
    let q := (off - 0x2000) / 16
    if off % 16 = 0 ∧ wbit v 62 then s.act .lqReset { x := q } else s.act .watchdogExpire { x := q, flag := true }
  else if 0x4020000 ≤ off ∧ off < 0x4020820 then
    let r := (off - 0x4020000) / 32
    if off % 32 = 0 ∧ wbit v 62 then s.act .cmbstatClear { x := r }
    else if off % 32 = 16 then s.act .cmbinjWrite { x := r, val := v } else s
  else if 0x4030000 ≤ off ∧ off < 0x4040000 ∧ off % 16 = 0 then s.groupConfigure off
  else if 0x4050000 ≤ off ∧ off < 0x4050300 ∧ off % 64 = 0 then
    s.act .portEnable { x := (off - 0x4050000) / 64 }
  else if 0x4070000 ≤ off ∧ off < 0x4072000 then
    s.act .sparemapWrite { x := (off - 0x4070000) / 8, val := v }
  else if off = 0x4072000 then s.act .lminjWrite { val := v }
  else if 0x4080000 ≤ off ∧ off < 0x4090000 then
    let v0 := (off - 0x4080000) / 0x400
    let b := (off - 0x4080000) / 0x200 % 2
    if off % 0x200 = 0 then
      let s1 := if wbit v 61 && !wbit old 61 then s.act .vbPause { x := v0, y := b }
        else if !wbit v 61 && wbit old 61 then s.act .vbResume { x := v0, y := b } else s
      if wbit v 63 then s1.act .vbtestGo { x := v0, y := b } else s1
    else if 0x80 ≤ off % 0x200 ∧ off % 0x200 < 0x100 then
      s.act .vbmuxWrite { x := v0, y := b, z := (off % 0x200 - 0x80) / 8, val := v }
    else s
  else if off = 0x4090000 ∨ off = 0x4090008 then
    (newBits old v).foldl (fun t k => t.act .busRetire { x := k, y := (off - 0x4090000) / 8 }) s
  else if off = 0x40A0440 then
    let s1 := if wbit v 62 then s.setCsrField off 62 62 0 else s
    if wbit v 63 then s1.act .measExtend {} else s1
  else if off = 0x40A0448 then s.setCsr off (old ||| (v &&& 0xFFFF#64))
  else if off = 0x40B0000 then
    let s1 := if wbit old 63 then s else s.setMasked off (maskBits 9 9 + maskBits 6 0) v
    if wbit v 63 then s1.setCsrField off 63 63 1 else s1
  else if off = 0x40B0008 ∨ off = 0x40B0010 then
    if wbit (s.csrAt 0x40B0000) 63 then s else s.setMasked off (maskBits 37 0) v
  else s

/-- R303: a store of firmware level. -/
def State.ctlWriteFw (s : State) (off : Nat) (v : Word) : State :=
  (s.setMasked off (fwMask off) v).fwAction off (s.csrAt off) v

/-- R303: a store of kernel level by a context of partition `part` (R204, R210, R263, R389). -/
def State.ctlWriteKernel (s : State) (off : Nat) (v : Word) (part : Option Nat) : State :=
  if 0x1000 ≤ off ∧ off < 0x2000 then
    let p := (off - 0x1000) / 64
    if off % 64 = 0 ∧ part = some p ∧ !wbit v 62 then s.setCsrField off 62 62 0 else s
  else if 0x2000 ≤ off ∧ off < 0x2400 then
    let q := (off - 0x2000) / 16
    if off % 16 = 0 ∧ wbit v 62 ∧ s.lqEnabled q ∧ part = some (s.lqPart q) then s.act .lqReset { x := q } else s
  else if 0x4020000 ≤ off ∧ off < 0x4020820 then
    if off % 32 = 0 ∧ wbit v 62 then s.act .cmbstatClear { x := (off - 0x4020000) / 32 } else s
  else if 0x4050400 ≤ off ∧ off < 0x4050600 then
    let p := 10 + (off - 0x4050400) / 0x100
    let o := off % 0x100
    if part ≠ some (s.csrField (off - o) 25 20) then s
    else if 0x48 ≤ o ∧ o < 0x88 then s.setCsr off v
    else if o = 0x88 ∧ wbit v 0 then s.act .hdbRing { x := p }
    else s
  else s

/-- R303: a store to the cube control space. -/
def State.ctlWrite (s : State) (off : Nat) (v : Word) (level : Nat) (part : Option Nat) : State :=
  if level = 2 then s.ctlWriteFw off v
  else if level = 1 then s.ctlWriteKernel off v part
  else s

end Sys2Proof.Machine
end

