-- ==== Sys2Proof/Machine/Access.lean ====
section
/-! DEFINITION. Memory accesses of heads and of the other agents: translation (R217, R320 to R326), the checks of
R71 and R322 in their order, the cube control space (R303), the local window (R218), and the request to
the line's home with its response. An access whose home is on this cube ends in the same step; the others
leave their owner waiting for the response. -/

namespace Sys2Proof.Machine

/-- Who makes an access: the key under which its results are kept, the core that it belongs to, the ASID,
level and root of its translation (`none`: the root to which the tile binds the ASID, R324), and, for an owner that
is no head, the event that takes it up again. -/
structure Who where
  owner : Src
  core : Nat
  asid : Nat
  level : Nat
  root : Option Word
  resume : Option (Instr × EvArg) := none
  /-- a table walk or an instruction fetch, which no L1 data cache serves -/
  walk : Bool := false

/-- The head being executed, as the maker of accesses. -/
def State.headWho (s : State) : Who :=
  { owner := headOwner s.cur.core s.cur.ctx, core := s.cur.core, asid := s.c.asid, level := s.level,
    root := some s.c.ptbase }

/-- How many protocol events may happen within the step that makes an access. -/
def drainFuel : Nat := 4096

/-- The results that an owner has kept. -/
def State.memo (s : State) (o : Src) : List AccRes :=
  match s.memos.find? (fun m => m.owner = o) with
  | some m => m.results
  | none => []

/-- The results of an owner from index `i` on are replaced: they end there. -/
def State.cutMemo (s : State) (o : Src) (i : Nat) : State :=
  { s with memos := s.memos.map (fun m => if m.owner = o then { m with results := m.results.take i } else m),
           accs := i }

/-- An owner that is no head waits for access `tag`: the event that takes it up is named. -/
def State.suspend (s : State) (o : Src) (r : Instr × EvArg) (tag : Nat) : State :=
  match s.memos.find? (fun m => m.owner = o) with
  | some _ => { s with memos := s.memos.map (fun m =>
      if m.owner = o then { m with resume := some r, tag := tag } else m) }
  | none => { s with memos := s.memos ++ [{ owner := o, results := [], resume := some r, tag := tag }] }

/-- An owner that is no head has an access under way. -/
def State.inFlight (s : State) (o : Src) : Bool := s.memos.any (fun m => m.owner = o && m.resume.isSome)

/-- R325, R172: the owner begins or ends a walk for an address of an ASID. -/
def State.markWalk (s : State) (o : Src) (w : Option (Nat × Word)) : State :=
  { s with memos := s.memos.map (fun (m : Memo) => if m.owner = o then { m with walk := w } else m) }

/-- The translations among some results. -/
def viaOf (l : List AccRes) : List TlbEntry :=
  l.filterMap (fun r => match r with
    | .place _ _ _ e => some e
    | _ => none)

/-- The maker of an access waits for its response. A head stays at its PC. -/
def State.awaitResponse (s : State) (w : Who) (rk : RKind) (d : Reg) (va : Word) (tag : Nat) (kind : WKind) :
    State :=
  match w.resume with
  | some r => s.suspend w.owner r tag
  | none => s.stall { kind := kind, what := if kind = .fullEmpty then va.toNat else s.cur.core, thr := va.toNat,
                      d := d, rk := rk, tag := tag, via := (viaOf (s.memo w.owner)).getLast? }

/-- The maker of an access whose local event the agent's table refused presents it again after the backoff (R229,
R246). -/
def State.awaitBackoff (s : State) (w : Who) (rk : RKind) (d : Reg) (va : Word) (tag : Nat) : State :=
  match w.resume with
  | some r =>
    let n := ((s.memos.find? (fun m => m.owner = w.owner)).map Memo.tries).getD 0
    ({ s with memos := s.memos.map (fun (m : Memo) => if m.owner = w.owner then { m with tries := n + 1 } else m) }
      : State).after (backoff n) r.1 r.2
  | none =>
    let n := (s.c.wait.map Wait.refusals).getD 0
    let s1 := s.stall { kind := .backoff, what := s.cur.core, thr := va.toNat, tag := tag, rk := rk, d := d }
    (s1.updC (fun c => { c with wait := c.wait.map (fun o => { o with refusals := n + 1 }) })).after
      (backoff n) .backoffExpire { x := s.cur.core, y := s.cur.ctx, z := tag }

/-- R283: the number that an access needs may not be used again yet: its maker stalls and tries again. -/
def State.awaitNumber (s : State) (w : Who) (va : Word) : State :=
  match w.resume with
  | some r => s.after 64 r.1 r.2
  | none =>
    let tag := s.serial + 1
    let held : Wait := { kind := .backoff, what := s.cur.core, thr := va.toNat, tag := tag, rk := .memo }
    ((({ s with serial := tag } : State).stall held).after 64 .backoffExpire { x := s.cur.core, y := s.cur.ctx, z := tag })

/-- One access to a home: `go` sends its message under the identity of the access, once the agents of `nums` may number
a request. That of a head comes after the accesses that an interrupt has left under way (R74); a table read or a fetch
does not. The results that the owner already has are found by their order. -/
def State.request (s : State) (w : Who) (rk : RKind) (d : Reg) (va : Word) (nums : List Numberer)
    (go : Src → State → State) : MRes AccRes :=
  match (s.memo w.owner)[s.accs]? with
  | some r => .ok r { s with accs := s.accs + 1 }
  | none =>
    if s.inFlight w.owner then .stop s
    else if w.resume.isNone && !w.walk && s.c.ownPending then .stop (s.stall { kind := .own })
    else if !nums.all s.numberFree then .stop (s.awaitNumber w va)
    else
      let tag := s.serial + 1
      let own : Src := if w.resume.isNone then { w.owner with seq := 256 * tag + w.owner.seq }
        else { w.owner with agent := w.owner.agent + 16 * tag }
      let s1 := drain drainFuel (go own { s with serial := tag, latch := some own, resp := none })
      let s2 := { s1 with latch := none, resp := none }
      match s1.resp with
      | some .refused => .stop (s2.awaitBackoff w rk d va tag)
      | some .waiting => .stop (s2.awaitResponse w rk d va tag .fullEmpty)
      | some r => .ok r { s2.remember w.owner r with accs := s2.accs + 1 }
      | none => .stop (s2.awaitResponse w rk d va tag .response)

/-! ## Reading and writing lines at their homes -/

/-- The refusals that the maker of an access has met (R229). -/
def State.triesOf (s : State) (w : Who) : Nat :=
  match w.resume with
  | some _ => ((s.memos.find? (fun m => m.owner = w.owner)).map Memo.tries).getD 0
  | none => (s.c.wait.map Wait.refusals).getD 0

/-- The message of an access to a page of a type. -/
def accMsg (w : Who) (s : State) (h : Home) (gpa len type : Nat) (own : Src) : Msg :=
  { gpa := gpa, la := h.la, src := own, own := own, agent := s.agentId (tileOf w.core), off := gpa % 64, len := len,
    level := w.level, home := h.cube, mirror := h.mirror, tries := s.triesOf w, asid := w.asid, device := type = 2,
    tag := if w.walk then 8 else 0 }

/-- The local event of a cached access, presented at the agent of the core's tile. -/
def State.cached (s : State) (w : Who) (ev : Ev) (m : Msg) : State := s.locEvent (tileOf w.core) ev m

/-- An uncached access (R243.5). -/
def State.uncached (s : State) (ev : Ev) (m : Msg) : State := (s.toHome ev { m with tag := 2 }).2

/-- R243.5: an access to a page of a type bypasses the caches. -/
def State.bypasses (s : State) (w : Who) (type : Nat) : Bool := type != 0 || s.passThrough (tileOf w.core)

/-- R226: the line in the L1 data cache that serves a head's load; not one of a firmware region below firmware level
(R381). -/
def State.l1Find (s : State) (w : Who) (h : Home) (gpa : Nat) : Option (List Byte) :=
  if w.owner.agent = 0 && !w.walk && !(w.level < 2 && s.heldFw (tileOf w.core) { gpa := gpa, la := h.la, home := h.cube }) then
    (s.core (s.l1Core w.core (gpa / 64))).l1.lookup (gpa / 64) else none

/-- R283: the agents that may have to number a request of an access. -/
def State.numberers (s : State) (w : Who) (type : Nat) : List Numberer :=
  let own := numbererOf .uread { own := w.owner, tag := 2, agent := tileOf w.core }
  if s.bypasses w type then [own] else [own, .slice (tileOf w.core)]

/-- A read of `len` bytes of one line of a page of a type. -/
def State.readLine (s : State) (w : Who) (h : Home) (gpa len type : Nat) (rk : RKind) (d : Reg) (va : Word) :
    MRes AccRes :=
  match (if s.bypasses w type then none else s.l1Find w h gpa) with
  | some line =>
    s.request w rk d va [] (fun own t => t.answer own (locResult (accMsg w t h gpa len type own) line))
  | none =>
    s.request w rk d va (s.numberers w type) (fun own t =>
      let m := accMsg w t h gpa len type own
      if t.bypasses w type then t.uncached .uread m else t.cached w .ld m)

/-- A write of bytes of one line of a page of a type. -/
def State.writeLine (s : State) (w : Who) (h : Home) (gpa : Nat) (bs : List Byte) (type : Nat) (rk : RKind)
    (va : Word) : MRes AccRes :=
  s.request w rk 0 va (s.numberers w type) (fun own t =>
    let m := { accMsg w t h gpa bs.length type own with
      bytes := (List.range bs.length).map (fun i => (gpa % 64 + i, bs.getD i 0)) }
    if t.bypasses w type then t.uncached .uwrite m else t.cached w .st m)

/-- An atomic or full-empty access at its home; a RED has one constituent that wants no reply. -/
def State.atomLine (s : State) (w : Who) (h : Home) (gpa : Nat) (op : AtomOp) (type : Nat) (rk : RKind) (d : Reg)
    (va : Word) : MRes AccRes :=
  s.request w rk d va (s.numberers w type) (fun own t =>
    let red := match rk, op with
      | .store, .amo _ _ y => [(⟨own, y, false⟩ : Constituent)]
      | _, _ => []
    let m := { accMsg w t h gpa op.len type own with op := some op, val := va.toNat, cons := red }
    if t.bypasses w type then t.uncached .amor m else t.cached w .amol m)

/-- R223: the home to which an owner's table read is resolved: once it has been, it stays so until the walk ends. -/
def State.resolved (s : State) (w : Who) (home : Option Home) : Option Home × State :=
  match (s.memo w.owner)[s.accs]? with
  | some (.home h) => (h, { s with accs := s.accs + 1 })
  | _ =>
    let s1 := s.remember w.owner (.home home)
    (home, { s1 with accs := s1.accs + 1 })

/-! ## ASID bindings (R324) -/

/-- R324: the root that the ASID table gives: `none` for an invalid entry. A table that cannot be read marks
the binding invalid (DESIGN CHOICE, log entry 12). -/
def State.asidRoot (s : State) (w : Who) (asid : Nat) : MRes (Option Nat) :=
  let t := s.csrAt 0x4060000
  if !wbit t 63 then .ok none s
  else
    let gpa := wbits t 55 19 * 2 ^ 19 + 8 * asid
    match s.resolved w (s.stripe gpa) with
    | (none, s0) => .ok none s0
    | (some h, s0) =>
      (s0.readLine { w with level := 2, walk := true } h gpa 8 0 .memo 0 (BitVec.ofNat 64 gpa)).bind (fun r s1 =>
        match r with
        | .data e => .ok (if bitsOf e 63 63 = 1 then some (bitsOf e 55 12 * 4096) else none) s1
        | _ => .ok none s1)

/-- R324: every cached entry of an ASID leaves the caches of a tile. -/
def State.forgetAsid (s : State) (tile asid : Nat) : State :=
  let drop := fun (l : List TlbEntry) => l.filter (fun t => t.asid != asid)
  let cores : SMap CoreSt := s.cores.map (fun e => if tileOf e.1 = tile then (e.1, { e.2 with tlb := drop e.2.tlb }) else e)
  let clusters : SMap Cluster := s.clusters.map (fun e =>
    if tileOfCluster e.1 = tile then (e.1, { e.2 with tlb := drop e.2.tlb }) else e)
  ({ s with cores := cores.filter (fun e => decide (e.2 ≠ ({} : CoreSt))),
            clusters := clusters.filter (fun e => decide (e.2 ≠ ({} : Cluster))) } : State).updTile tile
    (fun t => { t with walks := t.walks.filter (fun e => e.asid != asid) })

/-- R324: the binding of an ASID at a tile, made on first use; beyond 4,096 the oldest is reclaimed. -/
def State.bindAsid (s : State) (w : Who) (asid : Nat) : MRes (Option Nat) :=
  let tile := tileOf w.core
  match (s.tile tile).asids.lookup asid with
  | some r =>
    .ok r (match (s.memo w.owner)[s.accs]? with
      | some (.home _) => s.cutMemo w.owner s.accs
      | _ => s)
  | none =>
    (s.asidRoot w asid).bind (fun r s1 =>
      let old := (s1.tile tile).asids
      let s2 := if 4096 ≤ old.length then
          (match old with
            | (a, _) :: rest => (s1.updTile tile (fun t => { t with asids := rest })).forgetAsid tile a
            | [] => s1)
        else s1
      .ok r ((s2.updTile tile (fun t => { t with asids := t.asids ++ [(asid, r)] })).cutMemo w.owner s.accs))

/-! ## Page tables (R320 to R322, R325) -/

/-- The kinds of R322, and instruction fetch. -/
inductive AKind where
  | load | store | atomic | fetch
  deriving DecidableEq, Repr

/-- R71 step 2, R29 step 1, R322: the page fault of an access. -/
def AKind.fault : AKind → Nat
  | .load => 0x05
  | .store => 0x06
  | .atomic => 0x06
  | .fetch => 0x07

/-- What a form refuses at step 3 of R71: device pages, the local window; whether it needs full-empty enable;
whether it may reach the control space (R303). -/
structure Form where
  kind : AKind
  device : Bool := true
  window : Bool := true
  fe : Bool := false
  control : Bool := false

/-- R321, R320: a leaf that the walk refuses. -/
def leafBad (pte lvl : Nat) : Bool :=
  2 < lvl || bitsOf pte (13 + 9 * lvl) 12 != 0 || bitsOf pte 10 9 = 3 || (bitsOf pte 3 3 = 1 && bitsOf pte 2 2 = 0)

/-- R320: the GPA of an address under a leaf. -/
def leafGpa (pte lvl : Nat) (va : Word) : Nat :=
  bitsOf pte 55 14 * 2 ^ 14 + va.toNat % 2 ^ (14 + 9 * lvl)

/-- R320: the index of a level. -/
def walkIdx (va : Word) (lvl : Nat) : Nat :=
  if lvl = 4 then wbits va 56 50 else wbits va (13 + 9 * (lvl + 1)) (14 + 9 * lvl)

/-- What a walk finds: a leaf with its level and the pointer entries above it, or the cause of its failure (0: the
page fault of the access). -/
inductive WalkRes where
  | leaf (pte lvl : Nat) (ptrs : List WalkEntry)
  | fail (cause : Nat)
  deriving DecidableEq, Repr

/-- R325: a pointer entry that the tile's walk cache holds and, by free choice, gives. -/
def State.walkCached (s : State) (w : Who) (gpa : Nat) : Option Nat × State :=
  match (s.tile (tileOf w.core)).walks.find? (fun e => e.asid = w.asid && e.gpa = gpa) with
  | some e => (if Config.cachedPte s.free then some e.pte else none, s.useFree)
  | none => (none, s)

/-- A table entry is read, at the level of the access (R320), or, where the walk may use them, taken from the cached pointer
entries. -/
def State.readPte (s : State) (w : Who) (cache : Bool) (h : Home) (gpa : Nat) (va : Word) : MRes AccRes :=
  let read := fun (t : State) => t.readLine { w with walk := true } h gpa 8 0 .memo 0 va
  match (s.memo w.owner)[s.accs]? with
  | some _ => read s
  | none =>
    if !cache then read s
    else
      match s.walkCached w gpa with
      | (some e, s1) =>
        let s2 := s1.remember w.owner (.data e)
        .ok (.data e) { s2 with accs := s2.accs + 1 }
      | (none, s1) => read s1

/-- R320: the walk from a table at a GPA down from level `lvl`; `cache`: the walk may use cached pointer entries. -/
def walkFrom (w : Who) (va : Word) (cache : Bool) (ptrs : List WalkEntry) : Nat → Nat → State → MRes WalkRes
  | lvl, t, s =>
    let gpa := t + 8 * walkIdx va lvl
    match s.resolved w (s.stripeFor gpa w.asid w.level) with
    | (none, s0) => .ok (.fail 0x09) s0
    | (some h, s0) =>
      (s0.readPte w cache h gpa va).bind (fun r s1 =>
        match r with
        | .data e =>
          if bitsOf e 0 0 = 0 then .ok (.fail 0) s1
          else if bitsOf e 1 1 = 1 then
            if leafBad e lvl then .ok (.fail 0) s1 else .ok (.leaf e lvl ptrs) s1
          else
            match lvl with
            | 0 => .ok (.fail 0) s1
            | l + 1 => walkFrom w va cache (⟨w.asid, gpa, e⟩ :: ptrs) l (bitsOf e 55 12 * 4096) s1
        | .fail c => .ok (.fail c) s1
        | _ => .ok (.fail 0) s1)

/-- R322: the checks of a leaf, in order; `none` when all pass. -/
def leafCheck (f : Form) (level : Nat) (pte : Nat) : Option Nat :=
  let st := f.kind = .store || f.kind = .atomic
  let ld := f.kind = .load || f.kind = .atomic
  let dev := bitsOf pte 10 9 = 2
  let u := bitsOf pte 5 5 = 1
  if bitsOf pte 7 7 = 0 then some f.kind.fault
  else if st && bitsOf pte 8 8 = 0 then some 0x06
  else if level = 0 && !u then some 0x08
  else if f.kind = .fetch && (bitsOf pte 4 4 = 0 || (u && level != 0) || dev) then some 0x08
  else if ld && bitsOf pte 2 2 = 0 then some 0x08
  else if st && bitsOf pte 3 3 = 0 then some 0x08
  else if dev && !f.device then some 0x08
  else if f.fe && bitsOf pte 11 11 = 0 then some 0x08
  else none

/-- R325: the entries that a core's TLB and a cluster's TLB hold. -/
def coreTlbSize : Nat := 64
def clusterTlbSize : Nat := 2048

/-- A cached entry translates an address of an ASID (R320, R325). -/
def TlbEntry.hits (e : TlbEntry) (asid : Nat) (va : Word) : Bool :=
  (e.asid = asid || wbit e.pte 6) && e.page = va.toNat / 2 ^ (14 + 9 * e.lvl)

/-- R325: the cached translation of an address: heads look into the TLB of their core and that of its cluster, engines
into that of their cluster. -/
def State.tlbFind (s : State) (w : Who) (va : Word) : Option TlbEntry :=
  let cl := (s.cluster (clusterOf w.core)).tlb
  if w.owner.agent = 0 then ((s.core w.core).tlb ++ cl).find? (fun e => e.hits w.asid va)
  else if w.owner.agent ≤ 3 then cl.find? (fun e => e.hits w.asid va)
  else none

/-- A TLB of some size takes an entry. -/
def State.tlbPut (s : State) (size : Nat) (l : List TlbEntry) (e : TlbEntry) : List TlbEntry × State :=
  s.keepIn size (l.filter (fun o => !(o.asid = e.asid && o.lvl = e.lvl && o.page = e.page))) e

/-- R325: the TLBs keep an entry for an address that a walk has read or the cluster's TLB holds. -/
def State.tlbKeep (s : State) (w : Who) (va : Word) (pte lvl : Nat) : State :=
  let e : TlbEntry := ⟨w.asid, va.toNat / 2 ^ (14 + 9 * lvl), lvl, BitVec.ofNat 64 pte⟩
  let cl := clusterOf w.core
  if 3 < w.owner.agent then s
  else
    let (l, s1) := s.tlbPut clusterTlbSize (s.cluster cl).tlb e
    let s2 := s1.updCluster cl (fun c => { c with tlb := l })
    if w.owner.agent != 0 then s2
    else
      let (k, s3) := s2.tlbPut coreTlbSize (s2.core w.core).tlb e
      s3.updCore w.core (fun c => { c with tlb := k })

/-- R325: how many pointer entries a tile's walk cache holds (DESIGN CHOICE, log entry 64). -/
def walkCacheSize : Nat := 2048

/-- R325: the tile's walk cache keeps the pointer entries of a walk. -/
def State.walksKeep (s : State) (w : Who) (ptrs : List WalkEntry) : State :=
  let tile := tileOf w.core
  ptrs.foldl (fun t e =>
    let (l, t1) := t.keepIn walkCacheSize ((t.tile tile).walks.filter (fun o => !(o.asid = e.asid && o.gpa = e.gpa))) e
    t1.updTile tile (fun k => { k with walks := l })) s

/-- What translation gives: an address with the type of its page and its home, or a cause. -/
inductive TrRes where
  | at_ (gpa type : Nat) (home : Option Home) (via : TlbEntry)
  | fail (cause : Nat)
  deriving DecidableEq, Repr

/-- The translation is complete: its reads are replaced by its result among the results of the owner; the access is
resolved to a home now (R221, R223). -/
def State.settle (s : State) (w : Who) (va : Word) (i pte lvl : Nat) : MRes TrRes :=
  let gpa := leafGpa pte lvl va
  let type := bitsOf pte 10 9
  let e : TlbEntry := ⟨w.asid, va.toNat / 2 ^ (14 + 9 * lvl), lvl, BitVec.ofNat 64 pte⟩
  let h := if bitsOf gpa 55 48 = 0xFF then none else s.stripeFor gpa w.asid w.level
  let s1 := ((s.cutMemo w.owner i).remember w.owner (.place gpa type h e)).markWalk w.owner none
  .ok (.at_ gpa type h e) { s1 with accs := i + 1 }

/-- R320, R322: a walk whose results stand from index `i + 1` on, after the mark of its kind: `waiting` reads every
entry, `refused` may use cached pointer entries. -/
def State.walkOnce (s : State) (w : Who) (f : Form) (va : Word) (root : Nat) (cache : Bool) (i : Nat) : MRes TrRes :=
  let s0 : State := if (s.memo w.owner)[i]?.isSome then s
    else s.remember w.owner (if cache then .refused else .waiting)
  let s1 : State := { s0.markWalk w.owner (some (w.asid, va)) with accs := i + 1 }
  (walkFrom w va cache [] 4 root s1).bind (fun r s2 =>
    match r with
    | .leaf pte lvl ptrs =>
      (match leafCheck f w.level pte with
        | some c => .ok (.fail c) s2
        | none => ((s2.tlbKeep w va pte lvl).walksKeep w ptrs).settle w va i pte lvl)
    | .fail 0 => .ok (.fail f.kind.fault) s2
    | .fail c => .ok (.fail c) s2)

/-- R325: a walk; one that used cached pointer entries and fails is repeated afresh. -/
def State.walkTo (s : State) (w : Who) (f : Form) (va : Word) (root : Nat) (cache : Bool) (i : Nat) : MRes TrRes :=
  let fresh := fun (t : State) => (t.walkOnce w f va root false i).bind (fun r t1 =>
    match r with
    | .fail _ => .ok r (t1.markWalk w.owner none)
    | _ => .ok r t1)
  let usable := match (s.memo w.owner)[i]? with
    | some .waiting => false
    | some _ => true
    | none => cache
  if !usable then fresh s
  else
    (s.walkOnce w f va root true i).bind (fun r s1 =>
      match r with
      | .fail _ => fresh (s1.cutMemo w.owner i)
      | _ => .ok r s1)

/-- R324, R325: translation of an address of a bound ASID: a cached entry may be used where one is held; a check that
fails on it is repeated with a fresh walk. -/
def State.translateBound (s : State) (w : Who) (f : Form) (va : Word) (bound : Nat) : MRes TrRes :=
  let i := s.accs
  let root := match w.root with
    | some x => wbits x 55 12 * 4096
    | none => bound
  match (s.memo w.owner)[i]? with
  | some _ => s.walkTo w f va root true i
  | none =>
    match s.tlbFind w va with
    | none => s.walkTo w f va root true i
    | some e =>
      let pte := e.pte.toNat
      if !Config.cachedPte s.free then s.useFree.walkTo w f va root true i
      else if leafCheck f w.level pte = none then
        (s.useFree.tlbKeep w va pte e.lvl).settle w va i pte e.lvl
      else s.useFree.walkTo w f va root false i

/-- A walk whose ASID is no longer bound begins again. -/
def State.unmarked (s : State) (w : Who) : State :=
  match (s.tile (tileOf w.core)).asids.lookup w.asid, (s.memo w.owner)[s.accs]? with
  | none, some .waiting => s.cutMemo w.owner s.accs
  | none, some .refused => s.cutMemo w.owner s.accs
  | _, _ => s

/-- R71 step 2: translation. The ASID is bound first (R324); an invalid binding fails every access. -/
def State.translate (s : State) (w : Who) (f : Form) (va : Word) : MRes TrRes :=
  let s0 := s.unmarked w
  match (s0.memo w.owner)[s0.accs]? with
  | some (.place g ty h e) => .ok (.at_ g ty h e) { s0 with accs := s0.accs + 1 }
  | _ =>
    (s0.bindAsid w w.asid).bind (fun b s1 =>
      match b with
      | none => .ok (.fail f.kind.fault) s1
      | some bound => s1.translateBound w f va bound)

/-! ## The checks of R71 -/

/-- What an address names once the checks of R71 have passed. -/
inductive Target where
  | window (cl off : Nat)
  | control (cube off : Nat)
  | line (h : Home) (gpa type : Nat)
  /-- step 4: the destination is refused, cause 0x09 -/
  | refused
  | fail (cause : Nat)
  deriving DecidableEq, Repr

/-- R71 steps 1 to 4 for an access of `len` bytes. -/
def State.resolve (s : State) (w : Who) (f : Form) (va : Word) (align len : Nat) : MRes Target :=
  if va.toNat % align ≠ 0 then .ok (.fail 0x04) s
  else if inWindow va then
    let cl := clusterOf w.core
    let off := winOff va
    if !f.window || s.carveBlocks cl off len w.level || s.fwBlocks cl off w.level then .ok (.fail 0x08) s
    else .ok (.window cl off) s
  else if !canonical va then .ok (.fail f.kind.fault) s
  else
    (s.translate w f va).bind (fun r s1 =>
      match r with
      | .fail c => .ok (.fail c) s1
      | .at_ gpa type home _ =>
        if bitsOf gpa 55 48 = 0xFF then
          if type ≠ 2 ∨ !f.control ∨ len ≠ 8 ∨ w.level = 0 then .ok (.fail 0x08) s1
          else
            (match ctlOf gpa with
              | none => .ok .refused s1
              | some (c, off) =>
                if c ≠ s1.self ∧ (w.level = 1 ∨ !s1.validCube c) then .ok .refused s1
                else .ok (.control c off) s1)
        else
          (match home with
            | none => .ok .refused s1
            | some h => .ok (.line h gpa type) s1))

/-! ## Whole accesses -/

/-- The outcome of a whole access. -/
inductive Got where
  | data (v : Nat)
  | fail (cause : Nat)
  deriving DecidableEq, Repr

/-- The outcome of a response. -/
def AccRes.got : AccRes → Got
  | .data v => .data v
  | .fail c => .fail c
  | _ => .fail 0x12

/-- The outcome among the results of an owner. -/
def Got.res : Got → AccRes
  | .data v => .data v
  | .fail c => .fail c

/-- What a head with several accesses does at once is done once: its result is kept among the others (R89, R106,
R142). -/
def State.once (s : State) (w : Who) (rk : RKind) (k : State → MRes Got) : MRes Got :=
  if rk = .memo then
    match (s.memo w.owner)[s.accs]? with
    | some r => .ok r.got { s with accs := s.accs + 1 }
    | none => (k s).bind (fun g s1 =>
        let s2 := s1.remember w.owner g.res
        .ok g { s2 with accs := s2.accs + 1 })
  else k s

/-- R345: an error of a local-memory word has been met, and its core is tested. -/
def State.wordError (s : State) (word : Nat) : State :=
  let own := lmemCore (word / 0x20000) (word % 0x20000 * 4)
  (s.updCore own (fun c => { c with testing := true })).post .errorDetected { x := 1, body := .place (lmemPlace word) }

/-- R344, R345: a head that reads a bad word of local memory; an owner that is no head is told the failure, and so is a
RED, whose failure is recorded (R72, R166). -/
def State.badWord (s : State) (w : Who) (rk : RKind) (word : Nat) (va : Word) : MRes Got :=
  match w.resume with
  | none =>
    if rk = .store then .ok (.fail 0x12) (s.wordError word)
    else .stop (s.coreError (lmemCore (word / 0x20000) (word % 0x20000 * 4)) (lmemPlace word) va)
  | some _ => .ok (.fail 0x12) (s.wordError word)

/-- A control-space access of another cube (firmware level, R303) travels as an uncached request. -/
def State.farControl (s : State) (w : Who) (cube off : Nat) (v : Option Word) (rk : RKind) (d : Reg) (va : Word) :
    MRes AccRes :=
  s.request w rk d va (s.numberers w 2) (fun own t =>
    let gpa := 0xFF * 2 ^ 48 + cube * 2 ^ 27 + off
    let m := { accMsg w t ⟨cube, none, off⟩ gpa 8 2 own with tag := 2 }
    match v with
    | none => t.uncached .uread m
    | some x => t.uncached .uwrite { m with
        bytes := (List.range 8).map (fun i => (gpa % 64 + i, (leBytes 8 x.toNat).getD i 0)) })

/-- A read of `len` bytes at a resolved target. -/
def State.loadTarget (s : State) (w : Who) (t : Target) (len : Nat) (rk : RKind) (d : Reg) (va : Word) : MRes Got :=
  match t with
  | .fail c => .ok (.fail c) s
  | .refused => .ok (.fail 0x09) s
  | .window cl off =>
    s.once w rk (fun u => match u.lmemRead cl off len with
      | (some bs, _, s1) => .ok (.data (leNat bs)) s1
      | (none, word, s1) => s1.badWord w rk word va)
  | .control cube off =>
    if cube = s.self then s.once w rk (fun u => .ok (.data (u.ctlRead off).toNat) u)
    else (s.farControl w cube off none rk d va).bind (fun r s1 => .ok r.got s1)
  | .line h gpa type => (s.readLine w h gpa len type rk d va).bind (fun r s1 => .ok r.got s1)

/-- A write of bytes at a resolved target. -/
def State.storeTarget (s : State) (w : Who) (t : Target) (bs : List Byte) (rk : RKind) (va : Word) : MRes Got :=
  match t with
  | .fail c => .ok (.fail c) s
  | .refused => .ok (.fail 0x09) s
  | .window cl off => s.once w rk (fun u => .ok (.data 0) (u.lmemWrite cl off bs))
  | .control cube off =>
    let v := BitVec.ofNat 64 (leNat bs)
    if cube = s.self then s.once w rk (fun u => .ok (.data 0) (u.ctlWrite off v w.level (u.partOfAsid w.asid)))
    else (s.farControl w cube off (some v) rk 0 va).bind (fun r s1 => .ok r.got s1)
  | .line h gpa type => (s.writeLine w h gpa bs type rk va).bind (fun r s1 => .ok r.got s1)

/-- An atomic at a resolved target. Atomics in the local window are performed at the cluster interface (R162). -/
def State.atomTarget (s : State) (w : Who) (t : Target) (op : AtomOp) (rk : RKind) (d : Reg) (va : Word) : MRes Got :=
  match t with
  | .fail c => .ok (.fail c) s
  | .refused => .ok (.fail 0x09) s
  | .window cl off =>
    (match s.lmemRead cl off op.len with
      | (some bs, _, s1) =>
        (match op.new (leNat bs) with
          | some n => .ok (.data (leNat bs)) (s1.lmemWrite cl off (leBytes op.len n))
          | none => .ok (.data (leNat bs)) s1)
      | (none, word, s1) => s1.badWord w rk word va)
  | .control _ _ => .ok (.fail 0x08) s
  | .line h gpa type => (s.atomLine w h gpa op type rk d va).bind (fun r s1 => .ok r.got s1)

/-- A read at an address: R71. -/
def State.loadAt (s : State) (w : Who) (f : Form) (va : Word) (align len : Nat) (rk : RKind) (d : Reg) : MRes Got :=
  (s.resolve w f va align len).bind (fun t s1 => s1.loadTarget w t len rk d va)

/-- A write at an address: the outcome of steps 1 to 4 is told apart from that of the write itself (R72). -/
def State.storeAt (s : State) (w : Who) (f : Form) (va : Word) (align : Nat) (bs : List Byte) (rk : RKind) :
    MRes (Target × Got) :=
  (s.resolve w f va align bs.length).bind (fun t s1 =>
    (s1.storeTarget w t bs rk va).bind (fun g s2 => .ok (t, g) s2))

/-- R142: the 64 bytes that a head reads as an image, as eight words. -/
def State.image64 (s : State) (w : Who) (va : Word) : MRes (Got × List Word) :=
  (s.loadAt w { kind := .load, device := true } va 64 64 .memo 0).bind (fun g s1 =>
    match g with
    | .data v => .ok (g, words8 (leBytes 64 v)) s1
    | .fail _ => .ok (g, []) s1)

end Sys2Proof.Machine
end

