-- ==== Sys2Proof/Machine/Far.lean ====
section
/-! DEFINITION. What TLBINV, ICINV and PRSET ask of other cubes (R172, R173, R176, R326): the cubes that take part,
the requests to them, and the run that waits for their answers. The packets are the model's own (log entry 38). -/

namespace Sys2Proof.Machine

/-- The other cubes that have a peer word. -/
def State.peers (s : State) : List Nat :=
  (((s.csr.filter (fun e => 0x4100000 ≤ e.1 && e.1 < 0x4120000)).map (fun e => (e.1 - 0x4100000) / 8)).filter
    (fun c => s.peer c != 0 && c != s.self))

/-- R282, R326: those of some cubes, beside this one, whose peer word allows the issuing context's partition. -/
def State.farAllowed (s : State) (l : List Nat) : List Nat :=
  let part := s.partOfAsid s.c.asid
  l.filter (fun c => c != s.self && s.peerAllows c part s.level)

/-- R172, R173: the other cubes that a rectangle word names. -/
def State.farScope (s : State) (rect : Word) : List Nat :=
  s.farAllowed (match rectKind rect with
    | 0 => [rectCube rect]
    | 2 => s.peers
    | _ => [])

/-- R176, R221: the other cubes whose homes hold a line of a range, by the stripe map. -/
def State.farHomes (s : State) (base k : Nat) : List Nat :=
  let r := bitsOf base 55 48
  let w0 := s.csrAt (regionOff r 0)
  let list := wbits (s.csrAt (regionOff r 1)) 15 0
  let size := 2 ^ regionGsh w0
  let n := wbits w0 45 32 + 1
  let first := bitsOf base 47 0 / size
  let last := (bitsOf base 47 0 + 2 ^ k - 1) / size
  let up := fun (e : Nat) => if bitsOf e 15 15 = 1 then [] else [bitsOf e 13 0]
  s.farAllowed ((List.range n).flatMap (fun sl =>
    let chunk := first + (sl + n - first % n) % n
    if last < chunk || wbits w0 31 0 ≤ chunk / n then []
    else if wbit w0 62 then up (s.cubeEntry (list + 2 * sl)) ++ up (s.cubeEntry (list + 2 * sl + 1))
    else up (s.cubeEntry (list + sl)))).eraseDups

/-- R283: the next `n` numbers of a core's interface may all be used now. -/
def State.numbersFree (s : State) (core n : Nat) : Bool :=
  (List.range n).all (fun i => !((s.core core).seqLog.any (fun e =>
    e.1 = ((s.core core).spawnSeq + i) % 2 ^ 20 && s.now < e.2 + reuseTime)))

/-- R283: a request of a core's interface to another cube sets out under its next number, or waits at the core until that may
be used. -/
def State.farOut (s : State) (core : Nat) (np : NetPkt) : State :=
  let c := s.core core
  if c.farHeld.isEmpty && s.numberFree (.core core) then
    let (src, t) := s.number (.core core)
    t.post .packetRoute { x := 64, body := .net { np with src := src } }
  else
    let used := ((c.seqLog.find? (fun e => e.1 = c.spawnSeq && s.now < e.2 + reuseTime)).map Prod.snd).getD s.now
    let s1 := s.updCore core (fun k => { k with farHeld := k.farHeld ++ [np] })
    { s1 with timers := s1.timers ++ [(used + reuseTime, .sequenceNumberReuse, { x := core })] }

/-- R283: the requests that waited for a number set out. -/
def State.farRelease (s : State) (core : Nat) : State :=
  let l := (s.core core).farHeld
  l.foldl (fun t np => t.farOut core np) (s.updCore core (fun k => { k with farHeld := [] }))

/-- A request of the run's core to some cubes sets out under the core's next numbers (R283); each is kept until it is
answered (R284). -/
def State.farSend (s : State) (r : FarRun) (op : FarOp) (cubes : List Nat) : State :=
  cubes.foldl (fun t c => t.farOut r.core ⟨c * 16384, ⟨0, 0, 0⟩, 0, false, 0, 0, 0, .far op r.id r.asid r.level⟩) s

/-- The run that the head of a context waits for. -/
def State.farOf (s : State) (core ctx : Nat) : Option FarRun :=
  match (s.ctx core ctx).wait with
  | some w => s.farRuns.find? (fun r => r.id = w.thr)
  | none => none

/-- The run that the head being executed waits for is over. -/
def State.farDrop (s : State) : State :=
  match s.farOf s.cur.core s.cur.ctx with
  | some r => { s with farRuns := s.farRuns.filter (fun o => o.id != r.id) }
  | none => s

/-- The head being executed asks some cubes for `op` under a number. -/
def State.farStart (s : State) (id : Nat) (op : FarOp) (cubes : List Nat) : State :=
  let r : FarRun := { id := id, core := s.cur.core, ctx := s.cur.ctx, uid := s.c.uid, asid := s.c.asid, level := s.level,
                      op := op, cubes := cubes, left := cubes }
  ({ s with farRuns := s.farRuns ++ [r] } : State).farSend r op cubes

/-- R172, R326: the head being executed waits for some cubes, if any, and completes. It stalls first while its core may
not number a request (R283). -/
def State.farThen (s : State) (op : FarOp) (cubes : List Nat) : State :=
  if cubes.isEmpty then s.advance
  else if !s.numbersFree s.cur.core cubes.length then s.stall { kind := .drain }
  else (({ s with serial := s.serial + 1 } : State).farStart s.serial op cubes).stall { kind := .far, thr := s.serial }

/-- The head being executed waits for other cubes. -/
def State.farWaits (s : State) : Bool := s.c.wait.any (fun w => w.kind = .far)

/-- R326: the head that waited for other cubes completes; TLBINV traps for a cube that gave no answer. -/
def State.farEnd (s : State) : State :=
  match s.farOf s.cur.core s.cur.ctx with
  | none => s.advance
  | some r =>
    if !r.left.isEmpty then s.stall { kind := .far, thr := r.id }
    else
      match r.op, r.dead with
      | .tlb _ _, some c => s.farDrop.trap 0x12 (BitVec.ofNat 64 c)
      | _, _ => s.farDrop.advance

end Sys2Proof.Machine
end

