-- ==== Sys2Proof/Machine/Image.lean ====
section
/-! DEFINITION. The images of a context's banks in its overflow area (R175, R190, R191, R332). The manual leaves
their layout open; this is the model's (log entry 17): the tag at offset 0, the scalar image at 512, the image of
vector bank g at 2048 + 256 g. -/

namespace Sys2Proof.Machine

/-- A bound stream as 14 words. -/
def StreamB.words (r : Nat) (b : StreamB) : List Word :=
  [BitVec.ofNat 64 (r + 1), b.base, if b.write then 1 else 0, BitVec.ofNat 64 b.esz] ++
    (List.range 3).map (fun k => BitVec.ofInt 64 (b.stride.getD k 0)) ++
    (List.range 3).map (fun k => BitVec.ofNat 64 (b.count.getD k 0)) ++ [BitVec.ofNat 64 b.pos, 0, 0, 0]

/-- The stream that 14 words hold. -/
def StreamB.ofWords (ws : List Word) : Option (Nat × StreamB) :=
  match (wd ws 0).toNat with
  | 0 => none
  | r + 1 => some (r, { base := wd ws 1, write := wd ws 2 != 0, esz := (wd ws 3).toNat,
                        stride := [(wd ws 4).toInt, (wd ws 5).toInt, (wd ws 6).toInt],
                        count := [(wd ws 7).toNat, (wd ws 8).toNat, (wd ws 9).toNat], pos := (wd ws 10).toNat })

/-- Which vector groups a context has claimed. -/
def Ctx.claimed (c : Ctx) : List Nat := (List.range 4).filter (fun g => c.vbank.getD g .unclaimed != .unclaimed)

/-- The scalar image: 192 words. -/
def Ctx.scalarWords (c : Ctx) : List Word :=
  let mw := fun (i : Nat) => BitVec.ofNat 64 ((mget 0 c.m (2 * i)).toNat + (mget 0 c.m (2 * i + 1)).toNat * 2 ^ 32)
  let fixed : List Word :=
    [0] ++ (List.range 31).map (fun i => mget 0 c.x (i + 1)) ++ (List.range 4).map mw ++
    [c.fpctl, c.fpstat, BitVec.ofNat 64 c.asid, c.ptbase, c.fptbase, c.pc] ++
    [match c.storeFail with
      | some f => f.1
      | none => 0,
     match c.storeFail with
      | some f => BitVec.ofNat 64 (f.2 + 1)
      | none => 0,
     match c.inflight with
      | some f => BitVec.ofNat 64 (f + 1)
      | none => 0,
     match c.launch with
      | some l => BitVec.ofNat 64 (1 + 2 * (l.1 * 2 ^ 40 + l.2))
      | none => 0,
     BitVec.ofNat 64 c.spill,
     BitVec.ofNat 64 (c.prio + (if c.kernel then 4 else 0) + 8 * c.lvl),
     BitVec.ofNat 64 ((c.claimed.map (fun g => 2 ^ g)).sum)]
  let st := c.streams.flatMap (fun e => e.2.words e.1)
  let all := fixed ++ st ++ List.replicate (56 - st.length) 0 ++ [BitVec.ofNat 64 c.rest.length]
  all ++ List.replicate (192 - all.length) 0

/-- The bytes of a store as words. -/
def byteWords (bs : List Byte) : List Word :=
  (List.range ((bs.length + 7) / 8)).map (fun i => BitVec.ofNat 64 (leNat ((bs.drop (8 * i)).take 8)))

/-- R333: a store of a pending-operation block: three words and those of its bytes. -/
def RestStore.words (r : RestStore) : List Word :=
  let home := match r.home with
    | some h => 1 + 2 * (h.cube + 2 ^ 14 * (match h.mirror with
      | some m => m + 1
      | none => 0) + 2 ^ 29 * (h.la / 4096))
    | none => 0
  [r.va, BitVec.ofNat 64 (r.gpa + 2 ^ 56 * r.type + 2 ^ 58 * r.bytes.length), BitVec.ofNat 64 home] ++ byteWords r.bytes

/-- How many bytes the store at the head of some words has. -/
def restLen (ws : List Word) : Nat := wbits (wd ws 1) 63 58

def RestStore.ofWords (ws : List Word) : RestStore :=
  let w1 := (wd ws 1).toNat
  let h := (wd ws 2).toNat
  { va := wd ws 0, gpa := w1 % 2 ^ 56, type := bitsOf w1 57 56,
    bytes := ((ws.drop 3).flatMap (fun w => leBytes 8 w.toNat)).take (restLen ws),
    home := if h = 0 then none
      else some { cube := h / 2 % 2 ^ 14, la := h / 2 ^ 30 * 4096 + w1 % 4096,
                  mirror := (match h / 2 ^ 15 % 2 ^ 15 with
                    | 0 => none
                    | m + 1 => some m) } }

/-- R333: the stores of a pending-operation block, at the end of the overflow area: at most 32 of at most 8 bytes, or one of
32. -/
def Ctx.restWords (c : Ctx) : List Word :=
  let ws := c.rest.flatMap RestStore.words
  ws ++ List.replicate (128 - ws.length) 0

def restOf : Nat → List Word → List RestStore
  | 0, _ => []
  | n + 1, ws => RestStore.ofWords ws :: restOf n (ws.drop (3 + (restLen ws + 7) / 8))

/-- The context that a scalar image describes; its vector banks lie in the overflow area. -/
def Ctx.ofScalar (ws : List Word) : Ctx :=
  let reg := fun (i : Nat) => (i, wd ws i)
  let x := ((List.range 32).map reg).filter (fun e => decide (e.2 ≠ 0))
  let m := ((List.range 8).map (fun i => (i, BitVec.ofNat 32 ((wd ws (32 + i / 2)).toNat / 2 ^ (32 * (i % 2)))))).filter
    (fun e => decide (e.2 ≠ 0))
  let p := (wd ws 47).toNat
  { st := .readyParked, x := x, m := m, fpctl := wd ws 36, fpstat := wd ws 37, asid := (wd ws 38).toNat,
    ptbase := wd ws 39, fptbase := wd ws 40, pc := wd ws 41,
    storeFail := (match (wd ws 43).toNat with
      | 0 => none
      | n + 1 => some (wd ws 42, n)),
    inflight := (match (wd ws 44).toNat with
      | 0 => none
      | n + 1 => some n),
    pob := (wd ws 44).toNat != 0 || (wd ws 105).toNat != 0,
    launch := (if wd ws 45 = 0 then none
      else some ((wd ws 45).toNat / 2 / 2 ^ 40, (wd ws 45).toNat / 2 % 2 ^ 40)),
    spill := (wd ws 46).toNat, prio := p % 4, kernel := p / 4 % 2 = 1, lvl := p / 8 % 4,
    streams := (List.range 4).filterMap (fun k => StreamB.ofWords ((ws.drop (49 + 14 * k)).take 14)),
    sbank := .overflow,
    vbank := (List.range 4).map (fun g => if wbit (wd ws 48) g then .overflow else .unclaimed) }

/-- The image of vector bank `g`: 256 bytes. -/
def Ctx.vectorBytes (c : Ctx) (g : Nat) : List Byte :=
  (List.range 8).flatMap (fun i => leBytes 32 (mget 0 c.v (8 * g + i)).toNat)

/-- The registers of vector bank `g` from its image. -/
def vectorOf (g : Nat) (bs : List Byte) : SMap VReg :=
  ((List.range 8).map (fun i => (8 * g + i, BitVec.ofNat 256 (leNat ((bs.drop (32 * i)).take 32))))).filter
    (fun e => decide (e.2 ≠ 0))

/-- R332: the image tag. -/
def imageTag (valid : Bool) (asid id : Nat) : Word :=
  BitVec.ofNat 64 ((if valid then 2 ^ 63 else 0) + asid % 65536 * 2 ^ 32 + id % 2 ^ 24)

end Sys2Proof.Machine
end

