-- ==== Sys2Proof/Machine/Sched.lean ====
section
/-! DEFINITION. The core's scheduler (R185 to R195): banks, the choice of a context for a free slot, its start;
when a waiting head can issue; asynchronous interrupts (R314 to R318); fetching a head (R29, R10). -/

namespace Sys2Proof

/-- The priority of a packet (R143). -/
def Packet.prio (p : Packet) : Nat := wbits (Machine.wd p.words 0) 63 62
/-- The ASID of a packet. -/
def Packet.asid (p : Packet) : Nat := wbits (Machine.wd p.words 1) 15 0

end Sys2Proof

namespace Sys2Proof.Machine

/-! ## Banks (R187, R190, R191) -/

/-- The contexts of a core, with their ids. -/
def State.ctxsOf (s : State) (core : Nat) : List (Nat × Ctx) :=
  (s.ctxs.filter (fun e => e.1 / 256 = core)).map (fun e => (e.1 % 256, e.2))

def Bank.isResident : Bank → Bool
  | .resident => true
  | _ => false

def State.scalarUsed (s : State) (core : Nat) : Nat :=
  ((s.ctxsOf core).filter (fun e => e.2.sbank.isResident)).length
def State.vectorUsed (s : State) (core : Nat) : Nat :=
  ((s.ctxsOf core).map (fun e => (e.2.vbank.filter Bank.isResident).length)).sum

/-- Bytes whose values the specification leaves open. -/
def State.freeBytes (s : State) (n : Nat) : List Byte × State :=
  ((List.range n).map (fun i => Config.freeByte (s.free + i)), { s with free := s.free + n })

/-- R191: the overflow area of a core and id in the partition of an ASID. -/
def State.areaOf (s : State) (asid core id : Nat) : Option Nat :=
  (s.partOfAsid asid).map (fun p => wbits (s.partWord p 6) 55 12 * 4096 + 4096 * (256 * core + id))

/-- R191: the overflow area of a context. -/
def State.overflowAddr (s : State) (core id : Nat) : Option Nat := s.areaOf (s.ctx core id).asid core id

/-- R191, R394: the event of a refused write to a context's overflow area. Its KTVAL is the address of the area; a
context whose ASID lies in no valid partition has none, and its area's place from an OVFBASE of 0 stands for it (DESIGN
CHOICE, log entry 65). -/
def State.overflowEvent (s : State) (core id : Nat) : State :=
  s.raiseAt (s.partOfAsid (s.ctx core id).asid)
    (event23 2 (BitVec.ofNat 64 ((s.overflowAddr core id).getD (4096 * (256 * core + id)))))

/-- R191: whether a write to an overflow area is performed. -/
def State.overflowOk (s : State) (core id gpa : Nat) : Bool :=
  (s.stripeFor gpa (s.ctx core id).asid 1).isSome

/-- The granules of the carve-out that hold images (R190). -/
def State.granulesUsed (s : State) (core : Nat) : List Nat :=
  (s.ctxsOf core).flatMap (fun e =>
    (match e.2.sbank with
      | .carve g => (List.range 6).map (fun i => g + i)
      | _ => []) ++
    e.2.vbank.flatMap (fun b => match b with
      | .carve g => [g]
      | _ => []))

/-- R190: the lowest granules of the carve-out that are free and can hold an image of `n` granules. -/
def State.granuleFor (s : State) (core n : Nat) : Option Nat :=
  let used := s.granulesUsed core
  let size := (s.core core).carve
  (List.range size).find? (fun g => g + n ≤ size && (List.range n).all (fun i => !used.contains (g + i)))

/-- Uncached writes of bytes, line by line, to an overflow area; nobody waits for their answers. -/
def State.writeArea (s : State) (core gpa : Nat) (bs : List Byte) : State :=
  (List.range ((bs.length + 63) / 64)).foldl (fun t i =>
    match t.stripe (gpa + 64 * i) with
    | some h =>
      let m : Msg := { gpa := gpa + 64 * i, la := h.la, agent := t.agentId (tileOf core), len := 64, tag := 2,
                       level := 2, own := ⟨core, 9, 0⟩, home := h.cube, mirror := h.mirror }
      (t.toHome .uwrite { m with bytes := (List.range 64).map (fun k => (k, bs.getD (64 * i + k) 0)) }).2
    | none => t) s

/-- R190: where an image goes: the carve-out, or the overflow area at offset `off`; `none` when the write is
refused (R191). The bytes of an image in the carve-out are free values. -/
def State.placeImage (s : State) (core id off : Nat) (bs : List Byte) : Option Bank × State :=
  match s.granuleFor core (bs.length / 256) with
  | some g =>
    let (fr, s1) := s.freeBytes bs.length
    (some (.carve g), s1.lmemWrite (clusterOf core) ((s.core core).spillptr.toNat - winBase + 256 * g) fr)
  | none =>
    match s.overflowAddr core id with
    | none => (none, s.overflowEvent core id)
    | some a =>
      if s.overflowOk core id a then (some .overflow, s.writeArea core (a + off) bs) else (none, s.overflowEvent core id)

/-- R190: the context whose bank is evicted next. -/
def State.victim (s : State) (core : Nat) : Option Nat :=
  let cand := fun (st : CState) => (s.ctxsOf core).filter (fun e =>
    e.2.st = st && !e.2.kernel && (e.2.sbank.isResident || e.2.vbank.any Bank.isResident))
  let best := fun (l : List (Nat × Ctx)) => l.foldl (fun acc e =>
    match acc with
    | none => some e
    | some o => if o.2.prio < e.2.prio || (o.2.prio = e.2.prio && e.2.parkedAt < o.2.parkedAt) then some e
        else acc) none
  match best (cand .parked) with
  | some e => some e.1
  | none => (best (cand .readyParked)).map Prod.fst

/-- The highest resident vector group. -/
def Ctx.topBank (c : Ctx) : Option Nat :=
  [3, 2, 1, 0].find? (fun g => (c.vbank.getD g .unclaimed).isResident)

/-- R191: a bank of the core has become free: what a refused eviction kept waiting is tried again. -/
def State.bankFreed (s : State) (core : Nat) : State :=
  (s.ctxsOf core).foldl (fun t e =>
    if e.2.imageRefused then t.updCtx core e.1 (fun c => { c with imageRefused := false }) else t) s

/-- R333: the stores of an operation in flight go to the overflow area with the scalar image. -/
def State.writeRest (s : State) (core id : Nat) (b : Bank) : State :=
  let c := s.ctx core id
  match b, s.overflowAddr core id with
  | .overflow, some a => if c.rest.isEmpty then s else s.writeArea core (a + 3072) (wordBytes c.restWords)
  | _, _ => s

/-- R190, R191: one bank of a victim is evicted; when its write is refused, it stays resident. -/
def State.evictBank (s : State) (core id : Nat) : State :=
  let c := s.ctx core id
  let image : Nat × List Byte := match c.topBank with
    | some g => (2048 + 256 * g, c.vectorBytes g)
    | none => (512, wordBytes c.scalarWords)
  match s.placeImage core id image.1 image.2 with
  | (some b, s0) =>
    let s1 := if c.topBank.isNone then s0.writeRest core id b else s0
    (s1.updCtx core id (fun c => match c.topBank with
      | some g => { c with vbank := c.vbank.set g b }
      | none => { c with sbank := b })).bankFreed core
  | (none, s1) => s1.updCtx core id (fun c => { c with imageRefused := true })

/-- R190, R191: banks of parked contexts are evicted until the claim can be met, or a write is refused. -/
def State.makeSpace (core : Nat) (ok : State → Bool) : Nat → State → Bool × State
  | 0, s => (ok s, s)
  | n + 1, s =>
    if ok s then (true, s)
    else
      match s.victim core with
      | none => (false, s)
      | some id =>
        let s1 := s.evictBank core id
        if (s1.ctx core id).imageRefused then (false, s1) else State.makeSpace core ok n s1

/-- Room for one more scalar bank. -/
def State.scalarRoom (s : State) (core : Nat) : Bool × State :=
  State.makeSpace core (fun t => t.scalarUsed core < 8) 1100 s

/-- Room for one more vector bank. -/
def State.vectorRoom (s : State) (core : Nat) : Bool × State :=
  State.makeSpace core (fun t => t.vectorUsed core < 24) 1100 s

/-- R190, R191: an eviction may be tried: after one whose write was refused, the claims wait until another bank becomes
free. -/
def State.evictMay (s : State) (core : Nat) : Bool :=
  match s.victim core with
  | some id => !(s.ctx core id).imageRefused
  | none => false

/-- R190, R191: a claim of a scalar or vector bank is met or tried. -/
def State.scalarMay (s : State) (core : Nat) : Bool := s.scalarUsed core < 8 || s.evictMay core
def State.vectorMay (s : State) (core : Nat) : Bool := s.vectorUsed core < 24 || s.evictMay core

/-- R192, R336: the image of bank `b` of a context is read back as the bank is restored. A word of the carve-out with
uncorrectable data is an error of its core, and leaves the registers `bad` of the image with bad parity (DESIGN CHOICE,
log entry 66). -/
def State.restoreImage (s : State) (core id : Nat) (b : Bank) (bytes : Nat) (bad : List (Nat × Nat)) : State :=
  match b with
  | .carve g =>
    (match s.lmemRead (clusterOf core) ((s.core core).spillptr.toNat - winBase + 256 * g) bytes with
      | (none, word, s1) => (s1.wordError word).updCtx core id (fun c => { c with bad := c.bad ++ bad })
      | (some _, _, s1) => s1)
  | _ => s

/-- R192: a vector bank is restored. -/
def State.readVector (s : State) (core id g : Nat) : State :=
  s.restoreImage core id ((s.ctx core id).vbank.getD g .unclaimed) 256 ((List.range 8).map (fun i => (2, 8 * g + i)))

/-- R192, R333: the scalar bank is restored, with the pending-operation block. -/
def State.readScalar (s : State) (core id : Nat) : State :=
  s.restoreImage core id (s.ctx core id).sbank 1536 ((List.range 31).map (fun i => (1, i + 1)) ++
    (List.range 8).map (fun i => (3, i)) ++ (if (s.ctx core id).pob then [(4, 0)] else []))

/-- R187, R192: the vector groups that a head touches are claimed (`write`) or restored before it goes on. -/
def State.withBanks (s : State) (write read : List Nat) (k : State → State) : State :=
  let need := fun (t : State) (g : Nat) =>
    match t.c.vbank.getD g .unclaimed with
    | .resident => false
    | .unclaimed => write.contains g
    | _ => true
  let todo := (List.range 4).filter (fun g => (write.contains g || read.contains g) && need s g)
  let r := todo.foldl (fun (acc : Bool × State) g =>
    if !acc.1 then acc
    else
      let (ok, t) := acc.2.vectorRoom acc.2.cur.core
      if ok then
        (true, (t.readVector t.cur.core t.cur.ctx g).updC (fun c => { c with vbank := c.vbank.set g .resident }))
      else (false, t)) (true, s)
  if r.1 then k r.2 else r.2.stall { kind := .bank }

/-! ## When a waiting head can issue -/

/-- R113: the queue of an engine command: 0 matrix, 1 copy, 2 collective. -/
def queueOf (op : Nat) : Nat := if op < 0x44 then 0 else if op < 0x48 then 1 else 2

/-- The owner under which accesses of an engine command are known. -/
def engineOwner (cl num : Nat) : Src := ⟨cl, 1, num⟩

/-- R112, R113, R121: a queue of 16 entries is full; a final command whose message waits keeps its entry. -/
def State.queueFull (s : State) (cl q : Nat) : Bool :=
  16 ≤ ((s.cluster cl).cmds.filter (fun c => queueOf c.op = q && (match c.st with
    | .queued | .posting _ => true
    | _ => false))).length

/-- R172, R167: commands of a thread that are not final. -/
def State.engBusy (s : State) (core id : Nat) : Bool :=
  (s.cluster (clusterOf core)).cmds.any (fun c =>
    c.core = core && c.ctx = id && c.uid = (s.ctx core id).uid &&
      (match c.st with
        | .posting _ => false
        | _ => true))

/-- R316: a source that is pending at a core. -/
def State.pendingSource (s : State) (core k : Nat) : Bool :=
  let c := s.core core
  if k = 1 then c.ktimer != 0 && c.ktimer.toNat ≤ s.now
  else c.events.any (fun e => e.source = k)

/-- R310: MASK of a slot. -/
def Slot.masked (t : Slot) (k : Nat) : Bool := wbit t.k.status (8 + k)

/-- R170, R316: WFI completes. -/
def State.wfiDone (s : State) (core slot : Nat) : Bool :=
  (List.range 5).any (fun k => s.pendingSource core k && !(s.slot core slot).masked k) ||
    (s.core core).inbox.any (fun e => e.prio = 0)

/-- R149: a message for an ASID. -/
def State.hasMessage (s : State) (core asid : Nat) : Bool :=
  (s.core core).messages.any (fun m => m.asid = asid)

/-- R86, R333: a vector operation whose stores are still to be performed, or whose block is saved, comes before the next
head of its level; a block with bad parity makes that head trap (R344). -/
def State.opFirst (s : State) (core slot id : Nat) : Bool :=
  let c := s.ctx core id
  (s.slot core slot).level ≤ c.lvl && (c.pob || !c.rest.isEmpty) && !c.bad.contains (4, 0)

/-- Whether what the head of a context waits for has come. -/
def State.waitOver (s : State) (core slot id : Nat) : Bool :=
  let c := s.ctx core id
  match c.wait with
  | none => true
  | some w =>
    match w.got with
    | some _ => true
    | none =>
      match w.kind with
      | .recv => s.hasMessage core c.asid
      | .engineQueue => !s.queueFull (clusterOf core) w.what
      | .bounceSlot => (s.core core).bounce.length < 4
      | .launchQueue => (s.lq w.what).descs.length < s.lqDepth w.what + 1
      | .fence => (w.what = 0 || !s.engBusy core id) && !c.ownPending
      | .own => !c.ownPending
      | .wfi => s.wfiDone core slot
      | .prset => !(s.prsets.any (fun p => p.id = w.thr)) &&
        (s.farOf core id).all (fun r => r.left.isEmpty)
      | .far => (s.farOf core id).all (fun r => r.left.isEmpty)
      | .operand => !(c.hung.any (fun h => h.got = none)) && c.rest.isEmpty
      | .bank => if w.what = 1 then s.scalarMay core else s.vectorMay core
      | .drain => true
      | _ => false

/-- Whether the next head of a context in a slot can issue now. -/
def State.waitReady (s : State) (core slot id : Nat) : Bool := !s.opFirst core slot id && s.waitOver core slot id

/-! ## Interrupts (R314 to R318) -/

/-- R316: a slot can take a source. -/
def State.canTake (s : State) (core k src : Nat) : Bool :=
  let t := s.slot core k
  match t.ctx with
  | none => false
  | some _ =>
    !t.stopped && !t.masked src && (t.level = 0 || (t.level = 1 && wbit t.k.status 0))

/-- R316: the slot that an event goes to. -/
def State.targetSlot (s : State) (core src named : Nat) : Option Nat :=
  if src = 0 && s.canTake core named 0 then some named
  else (List.range 4).find? (fun k => s.canTake core k src)

/-- R316: the slot's head is a WFI that waits, which a pending source completes before it is taken. -/
def State.inWfi (s : State) (core k : Nat) : Bool :=
  match (s.slot core k).ctx with
  | some id => (s.ctx core id).wait.any (fun w => w.kind = .wfi)
  | none => false

/-- R317: what a slot takes next: the source and, but for the timer, its oldest event. -/
def State.takeable (s : State) (core k : Nat) : Option (Nat × Option CoreEvent) :=
  if s.inWfi core k then none else [4, 0, 2, 3, 1].findSome? (fun src =>
    if src = 1 then
      if s.pendingSource core 1 && s.targetSlot core 1 0 = some k then some (1, none) else none
    else
      match (s.core core).events.find? (fun e => e.source = src) with
      | some e => if s.targetSlot core src e.slot = some k then some (src, some e) else none
      | none => none)

/-- R318: the waits that an interrupt leaves registered. Of PRSET, TLBINV and ICINV the rule says nothing: what they have
begun goes on (DEDUCED, log entry 67). -/
def WKind.stays : WKind → Bool
  | .send | .fullEmpty | .response | .backoff | .prset | .far => true
  | _ => false

/-- A waiting context leaves the lists of the semaphores. -/
def State.withdrawSem (s : State) (core id : Nat) : State :=
  let gone := fun (e : Nat × Nat × Nat) => e.2.1 = core && e.2.2 = id
  { s.updCluster (clusterOf core) (fun c => { c with waiters := c.waiters.filter (fun e => !gone e) }) with
    cubeWaiters := s.cubeWaiters.filter (fun e => !gone e) }

/-- R318: the wait of a context that is struck by an interrupt. A head with several accesses is executed again after the
return, and keeps only the time of its first issue (R80). -/
def State.strike (s : State) (core id : Nat) : State :=
  let c := s.ctx core id
  match c.wait with
  | none => s
  | some w =>
    let s1 := if w.kind = .clusterSem || w.kind = .cubeSem then s.withdrawSem core id else s
    let w1 := if w.rk = .memo then { w with got := some .waiting } else w
    ((s1.dropMemo (headOwner core id)).loadOver core id).updCtx core id (fun c =>
      { c with wait := none, hung := if w.kind.stays then c.hung ++ [w1] else c.hung })

/-- R315, R317: the slot takes its next interrupt. -/
def State.takeInterrupt (s : State) (core k : Nat) : State :=
  match s.takeable core k, (s.slot core k).ctx with
  | some (src, ev), some id =>
    let s1 := s.strike core id
    let (sub, tval) := match ev with
      | some e => (e.sub, e.tval)
      | none => (0, BitVec.ofNat 64 s.now)
    let s2 := match ev with
      | some e => s1.updCore core (fun c => { c with events := c.events.erase e })
      | none => s1
    let s3 := if (s2.core core).eventsHeld.isEmpty then s2 else s2.post .eventReoffer { x := core }
    s3.enterTrap core k 1 true false sub (sourceCause src) (s.ctx core id).pc tval
  | _, _ => s

/-! ## Fetching a head (R10, R29) -/

/-- What fetching gives: the decoded head, or a state in which the head has trapped or waits. -/
inductive Fetched where
  | head (i : Instr) (s : State)
  | stop (s : State)

/-- Steps 3 and 4 of R29. -/
def State.decodeHead (s : State) (h : List (BitVec 16)) : Fetched :=
  let ix := wbits s.c.pc 5 1
  if !lineOk h || ix = 0 || lineH h < ix then .stop (s.trap 0x01 s.c.pc)
  else
    match decode (hw h ix) (lineTail h ix) with
    | .ok i => .head i s
    | .undefinedOp => .stop (s.trap 0x01 (encodingWord (hw h ix) (lineTail h ix)))
    | .badEncoding => .stop (s.trap 0x02 (encodingWord (hw h ix) (lineTail h ix)))

/-- The fetch is complete: the context executes from this copy of the line. Its wait was not one of the head, whose first
issue comes now (R80). -/
def State.haveLine (s : State) (addr : Word) (bs : List Byte) : State :=
  let fetching := fun (w : Wait) => w.rk = .memo && (w.kind = .response || w.kind = .backoff)
  let s1 := (s.dropMemo (headOwner s.cur.core s.cur.ctx)).updC (fun c =>
    { c with line := some ⟨addr, bs⟩, wait := c.wait.filter (fun w => !fetching w) })
  { s1 with accs := 0 }

/-- R2: an L1 instruction cache holds 8 KiB. -/
def icacheLines : Nat := 128

/-- R29 step 1: the line comes from memory, and the instruction cache keeps it. -/
def State.fillLine (s : State) (w : Who) (h : Home) (gpa type : Nat) (addr : Word) : MRes (Option Nat) :=
  (s.readLine w h gpa 64 type .memo 0 addr).bind (fun r s1 =>
    match r with
    | .data v =>
      let bs := leBytes 64 v
      let (l, s2) := s1.keepIn icacheLines ((s1.core w.core).icache.filter (fun e => e.1 != gpa / 64)) (gpa / 64, bs)
      .ok none ((s2.updCore w.core (fun c => { c with icache := l })).haveLine addr bs)
    | .fail c => .ok (some c) s1
    | _ => .ok (some 0x12) s1)

/-- R29 step 1: the line of the PC is read, through the instruction cache, whose copies may be stale (R173). -/
def State.fetchLine (s : State) : MRes (Option Nat) :=
  let addr := lineAddr s.c.pc
  let w := { s.headWho with walk := true }
  (s.resolve w { kind := .fetch, window := false } addr 1 64).bind (fun t s1 =>
    match t with
    | .line h gpa type =>
      (match (s1.core w.core).icache.lookup (gpa / 64) with
        | some bs =>
          if Config.staleLine s1.free then .ok none (s1.useFree.haveLine addr bs)
          else s1.useFree.fillLine w h gpa type addr
        | none => s1.fillLine w h gpa type addr)
    | .fail c => .ok (some c) s1
    | .refused => .ok (some 0x09) s1
    | _ => .ok (some 0x08) s1)

/-- R29: the next head of the context being executed. -/
def State.fetch (s : State) : Fetched :=
  let pc := s.c.pc
  if wbit pc 0 then .stop (s.trap 0x04 pc)
  else
    match s.c.line with
    | some l =>
      if l.addr = lineAddr pc then s.decodeHead (halfwords l.bytes)
      else
        (match s.fetchLine with
          | .ok none s1 => s1.decodeHead (halfwords ((s1.c.line.map LineCopy.bytes).getD []))
          | .ok (some c) s1 => .stop (s1.trap c pc)
          | .stop s1 => .stop s1)
    | none =>
      (match s.fetchLine with
        | .ok none s1 => s1.decodeHead (halfwords ((s1.c.line.map LineCopy.bytes).getD []))
        | .ok (some c) s1 => .stop (s1.trap c pc)
        | .stop s1 => .stop s1)

/-! ## Dispatch (R194) -/

/-- The lowest id that no live context has (R185); which free id is given is the model's choice (log entry
13). -/
def State.freeId (s : State) (core : Nat) : Option Nat :=
  (List.range 256).find? (fun id => (s.ctx core id).st = .free)

/-- The core neither tests itself nor is fenced. -/
def State.coreRuns (s : State) (core : Nat) : Bool :=
  !(s.core core).testing && !s.fenced core

/-- R194: the free slot that a dispatched context gets: the lowest-numbered of several (DESIGN CHOICE, log entry 13). -/
def State.freeSlot (s : State) (core : Nat) : Option Nat :=
  (List.range 4).find? (fun k => (s.slot core k).ctx.isNone)

/-- What the dispatcher may start. -/
inductive Cand where
  | bounce (b : Bounce)
  | ready (id : Nat)
  | packet (e : Entry)
  deriving DecidableEq, Repr

/-- R174: a slot of the core will install the context at its next KRET. -/
def State.named (s : State) (core id : Nat) : Bool :=
  (List.range 4).any (fun k => match (s.slot core k).csw with
    | some n => n.1 = id
    | none => false)

/-- R194: the choice for a free slot; `skip` is a context that has just yielded (R154). A packet needs a free context id and
a scalar bank. -/
def State.candidate (s : State) (core : Nat) (skip : Option Nat) : Option Cand :=
  let c := s.core core
  let fresh := (s.freeId core).isSome && s.scalarMay core
  let older := fun (l : List Bounce) => l.foldl (fun (acc : Option Bounce) b =>
    match acc with
    | none => some b
    | some o => if b.ord < o.ord then some b else acc) none
  (List.range 4).findSome? (fun p =>
    match (if fresh then older (c.bounce.filter (fun b => b.back && b.p.prio = p)) else none) with
    | some b => some (.bounce b)
    | none =>
      let ready := (s.ctxsOf core).filter (fun e => e.2.st = .readyParked && e.2.prio = p && skip != some e.1 &&
        !s.named core e.1 && (e.2.sbank.isResident || s.scalarMay core))
      match ready.foldl (fun (acc : Option (Nat × Ctx)) e =>
        match acc with
        | none => some e
        | some o => if e.2.readyOrd < o.2.readyOrd then some e else acc) none with
      | some e => some (.ready e.1)
      | none => if fresh then (c.inbox.find? (fun e => e.prio = p)).map Cand.packet else none)

/-- R306: the slot of a context that is dispatched or resumed. -/
def State.seat (s : State) (core k id level : Nat) : State :=
  s.updSlot core k (fun t =>
    { t with ctx := some id, level := level, csw := none, stopped := false, doomed := false, depth := 0,
             k := { t.k with status := t.k.status ||| 3 } })

/-- R183, R184: the registers that a task finds. -/
def startRegs (p : Packet) (prio : Nat) : SMap Word :=
  let w := wd p.words
  let l : List (Nat × Word) := match p.kind with
    | .launch _ _ =>
      [(10, w 2), (11, w 3), (12, w 4), (13, w 5), (14, w 6), (16, BitVec.ofNat 64 p.sender),
       (17, BitVec.ofNat 64 (16 + prio))]
    | _ =>
      let flags := (if wbits (w 0) 61 60 = 1 then 8 else 0) + (if wbits (w 0) 61 60 = 2 then 4 else 0)
      [(10, w 2), (11, w 3), (12, w 4), (13, w 5), (14, w 6), (15, w 7),
       (16, BitVec.ofNat 64 (wbits (w 1) 43 16)),
       (17, BitVec.ofNat 64 (wbits (w 1) 63 44 * 2 ^ 44 + flags + prio))]
  l.filter (fun e => decide (e.2 ≠ 0))

/-- R189: an image that lies above the new end of the carve-out moves to its context's overflow area. Where the area's write
is refused, the event of R191 is raised, and the bank counts as moved and keeps its values (DESIGN CHOICE, log entry 79). -/
def State.moveOut (s : State) (core id size off : Nat) (b : Bank) (bs : List Byte) : Bank × State :=
  match b with
  | .carve g =>
    if g + bs.length / 256 ≤ size then (b, s)
    else
      match s.overflowAddr core id with
      | some a =>
        if s.overflowOk core id a then (.overflow, s.writeArea core (a + off) bs) else (.overflow, s.overflowEvent core id)
      | none => (.overflow, s.overflowEvent core id)
  | _ => (b, s)

/-- R189: the carve-out of a core is that of the largest launch that has live contexts on it. -/
def State.setCarve (s : State) (core : Nat) : State :=
  let size := ((s.ctxsOf core).filter (fun e => e.2.launch.isSome)).foldl (fun acc e => Nat.max acc e.2.spill) 0
  let s1 := (s.ctxsOf core).foldl (fun t e =>
    let above := fun (b : Bank) (n : Nat) => match b with
      | .carve g => decide (size < g + n)
      | _ => false
    let t0 := if above e.2.sbank 6 then t.readScalar core e.1 else t
    let (b, t1) := t0.moveOut core e.1 size 512 e.2.sbank (wordBytes e.2.scalarWords)
    let t2 := (if b = e.2.sbank then t1 else t1.writeRest core e.1 b).updCtx core e.1 (fun c => { c with sbank := b })
    (List.range 4).foldl (fun u g =>
      let u0 := if above (e.2.vbank.getD g .unclaimed) 1 then u.readVector core e.1 g else u
      let (vb, u1) := u0.moveOut core e.1 size (2048 + 256 * g) (e.2.vbank.getD g .unclaimed) (e.2.vectorBytes g)
      u1.updCtx core e.1 (fun c => { c with vbank := c.vbank.set g vb })) t2) s
  s1.updCore core (fun c => { c with carve := size })

/-- R183, R306: a packet's context starts in slot `k`. The level is kernel for priority 0 and firmware on the
firmware column (R306, log entry 14). -/
def State.startPacket (s : State) (core k : Nat) (p : Packet) (prio root : Nat) : State :=
  match s.freeId core with
  | none => s
  | some id =>
    let pc := (wd p.words 0).extractLsb' 0 57 |>.signExtend 64
    let level := if s.inColumn core then 2 else if prio = 0 then 1 else 0
    let launch := match p.kind with
      | .launch q n => some (q, n)
      | _ => none
    let spill := match p.kind with
      | .launch _ _ => wbits (wd p.words 7) 15 0
      | _ => 0
    let c : Ctx := { st := .running, x := startRegs p prio, asid := p.asid,
                     ptbase := match p.kind with
                       | .launch _ _ => BitVec.ofNat 64 p.ctx
                       | _ => BitVec.ofNat 64 root,
                     pc := pc, sbank := .resident, prio := prio, kernel := prio = 0, launch := launch, spill := spill,
                     uid := s.serial + 1 }
    let s1 := (({ s with serial := s.serial + 1 }.setCtx core id c).seat core k id level).setCarve core
    if wbits (wd p.words 0) 59 57 ≠ 0 then { s1 with cur := ⟨core, k, id⟩ }.trap 0x01 pc else s1

/-- R48, R333: the flags of the vector operation in flight are ORed into FPSTAT. -/
def Ctx.opDone (c : Ctx) : Ctx :=
  match c.inflight with
  | some f => { c with fpstat := c.fpstat ||| BitVec.ofNat 64 f, inflight := none, pob := false }
  | none => { c with pob := false }

/-- R86, R333: a context leaves its slot: an operation in flight is saved in its pending-operation block, whose parity is
then good (R344). -/
def Ctx.saveOp (c : Ctx) : Ctx :=
  if c.pob || (c.inflight.isNone && c.rest.isEmpty) then c
  else { c with pob := true, bad := c.bad.filter (fun b => b != (4, 0)) }

/-- R333: an operation that was saved goes on once its context is back in a slot. -/
def State.resumeOp (s : State) (core id : Nat) : State :=
  let c := s.ctx core id
  if c.pob then s.post .vectorOpComplete { x := core, y := id, z := c.uid } else s

/-- R192, R333: a context is resumed in slot `k`, at user level or at the level that it left. -/
def State.resume (s : State) (core k id : Nat) : State :=
  (((s.readScalar core id).updCtx core id (fun c => { c with st := .running, sbank := .resident, imageRefused := false })).seat
    core k id (s.ctx core id).lvl).resumeOp core id

/-- R178, R146: the partition of a packet is marked drained. -/
def State.drainedPacket (s : State) (p : Packet) : Bool :=
  match s.partOfAsid p.asid with
  | some q => s.partDrained q
  | none => false

/-- The dispatcher as the maker of accesses (R324); the choice goes on to exclude a context that has yielded (R154). -/
def dispatchWho (core asid : Nat) (skip : Option Nat) : Who :=
  { owner := ⟨core, 5, asid⟩, core := core, asid := asid, level := 2, root := none,
    resume := some (.dispatch, { x := core, y := match skip with
      | some id => id + 1
      | none => 0 }) }

/-- R194, R324: a packet is started once its ASID is bound at the tile and a scalar bank is claimed. -/
def State.launchPacket (s : State) (core k : Nat) (p : Packet) (prio : Nat) (skip : Option Nat) (remove : State → State) :
    State :=
  let (room, s0) := s.scalarRoom core
  if !room then s0
  else
    let w := dispatchWho core p.asid skip
    (s0.bindAsid w p.asid).fin (fun r s1 =>
      ((remove s1).startPacket core k p prio (r.getD 0)).dropMemo w.owner)

/-- R145, R337: a bounce slot is free; a packet that a fence returned and that waits for one takes it. -/
def CoreSt.freeBounce (c : CoreSt) (b : Bounce) : CoreSt :=
  let l := c.bounce.erase b
  match c.returnHeld with
  | p :: r => { c with bounce := l ++ [⟨p, true, (c.bounce.map (fun o => o.ord)).foldl Nat.max 0 + 1, 0, 0, false⟩], returnHeld := r }
  | [] => { c with bounce := l }

/-- R146, R194: a packet of a drained partition that has reached the front of its priority, or waits in a bounce slot. -/
def State.drainedFront (s : State) (core : Nat) : Option Cand :=
  let c := s.core core
  match c.bounce.find? (fun b => b.back && s.drainedPacket b.p) with
  | some b => some (.bounce b)
  | none => (List.range 4).findSome? (fun p =>
      match c.inbox.find? (fun e => e.prio = p) with
      | some e => if s.drainedPacket e.p then some (.packet e) else none
      | none => none)

/-- R146: the drained packets at the front are discarded. -/
def State.discardDrained (core : Nat) : Nat → State → State
  | 0, s => s
  | n + 1, s =>
    match s.drainedFront core with
    | some (.bounce b) => State.discardDrained core n (s.updCore core (fun c => c.freeBounce b))
    | some (.packet e) => State.discardDrained core n (s.updCore core (fun c => { c with inbox := c.inbox.erase e }))
    | _ => s

/-- R194: one choice for one free slot of a core; drained packets at the front are discarded first. -/
def State.dispatchOne (s0 : State) (core : Nat) (skip : Option Nat) : State :=
  let s := State.discardDrained core 260 s0
  match s.freeSlot core, s.candidate core skip with
  | some k, some (.bounce b) =>
    if (s.freeId core).isNone then s
    else s.launchPacket core k b.p b.p.prio skip (fun t => t.updCore core (fun c => c.freeBounce b))
  | some k, some (.ready id) =>
    let room := if (s.ctx core id).sbank.isResident then (true, s) else s.scalarRoom core
    if room.1 then room.2.resume core k id else room.2
  | some k, some (.packet e) =>
    if (s.freeId core).isNone then s
    else s.launchPacket core k e.p e.prio skip (fun t => t.updCore core (fun c => { c with inbox := c.inbox.erase e }))
  | _, _ => s

/-- A dispatcher that has not begun to read its ASID table entry. -/
def State.dispatcherIdle (s : State) (core : Nat) : Bool :=
  !(s.memos.any (fun m => m.owner.gcid = core && m.owner.agent = 5))

/-! ## Parking (R188) -/

/-- R188: the blocked context that is parked next. -/
def State.parkChoice (s : State) (core : Nat) : Option (Nat × Nat) :=
  let l := (List.range 4).filterMap (fun k =>
    let t := s.slot core k
    match t.ctx with
    | some id =>
      let c := s.ctx core id
      (match c.wait with
        | some w =>
          if c.st = .blocked && w.kind.blocks && !c.kernel && t.level = 0 && w.since + 1024 ≤ s.now &&
              !s.waitOver core k id then some (k, id, w.since) else none
        | none => none)
    | none => none)
  (l.foldl (fun (acc : Option (Nat × Nat × Nat)) e =>
    match acc with
    | none => some e
    | some o => if e.2.2 < o.2.2 then some e else acc) none).map (fun e => (e.1, e.2.1))

/-- R188: a packet or a ready-parked context waits for a slot. -/
def State.demand (s : State) (core : Nat) : Bool :=
  (s.freeSlot core).isNone && (s.candidate core none).isSome

/-- R188: parking frees the slot; the banks stay. -/
def State.parkOne (s : State) (core : Nat) : State :=
  if !s.demand core then s
  else
    match s.parkChoice core with
    | some (k, id) =>
      ((s.updCtx core id (fun c => { c.saveOp with st := .parked, parkedAt := s.now, lvl := 0 })).updSlot core k
        (fun t => { t with ctx := none }))
    | none => s

/-- R188: the cycles at which waits of a core with demand will have lasted long enough. -/
def State.parkTimes (s : State) (core : Nat) : List Nat :=
  if !s.demand core then []
  else (List.range 4).filterMap (fun k =>
    match (s.slot core k).ctx with
    | some id =>
      let c := s.ctx core id
      (match c.wait with
        | some w =>
          if c.st = .blocked && w.kind.blocks && !c.kernel && (s.slot core k).level = 0 && s.now < w.since + 1024 then
            some (w.since + 1024) else none
        | none => none)
    | none => none)

/-- Contexts by key with the first issue of their waiting heads, earliest first. -/
def insertWait (e : Nat × Nat) : List (Nat × Nat) → List (Nat × Nat)
  | [] => [e]
  | o :: r => if e.2 < o.2 then e :: o :: r else o :: insertWait e r

/-- R186, R194: parked contexts whose wait is satisfied are ready, in the order in which they began to wait. The wait is
over (R214). -/
def State.wakeParked (s : State) : State :=
  let l := (s.ctxs.filter (fun e => e.2.st = .parked)).map (fun e => (e.1, (e.2.wait.map Wait.since).getD 0))
  (l.foldl (fun acc e => insertWait e acc) []).foldl (fun t e =>
    let core := e.1 / 256
    let id := e.1 % 256
    if t.waitOver core 0 id then
      (t.updCtx core id (fun c => { c with wait := c.wait.map (fun w =>
        if w.got.isSome then w else { w with got := some .waiting }) })).becomeReady core id
    else t) s

/-! ## Which head issues (R195) -/

/-- A slot of a core can issue its next head, or takes an interrupt. -/
def State.slotReady (s : State) (core k : Nat) : Bool :=
  let t := s.slot core k
  match t.ctx with
  | none => false
  | some id => !t.stopped && ((s.takeable core k).isSome || s.waitReady core k id)

/-- R195: the slot that issues. -/
def State.nextSlot (s : State) (core : Nat) : Option Nat :=
  if s.coreRuns core then
    ([1, 2, 3, 4].map (fun i => ((s.core core).lastSlot + i) % 4)).find? (fun k => s.slotReady core k)
  else none

end Sys2Proof.Machine
end

