-- ==== Sys2Proof/Machine/LoadStore.lean ====
section
/-! DEFINITION. Scalar loads and stores, acquire and release forms, full-empty accesses, prefetch, write-back
and discard (R71 to R84). -/

namespace Sys2Proof.Machine

/-! ## Shared parts -/

/-- R72: a recorded store failure is taken at this head, once every earlier store has been performed. -/
def State.withStoreFail (s : State) (k : State → State) : State :=
  s.afterOwn (fun t =>
    match t.c.storeFail with
    | some (va, cause) => (t.updC (fun c => { c with storeFail := none })).trap cause va
    | none => k t)

/-- R76: the check of a rectangle register. -/
def State.withScope (s : State) (sc : Scope) (k : State → State) : State :=
  match sc with
  | .rect c => if rectLegal (s.getX c) then k s else s.trap 0x0A (s.getX c)
  | _ => k s

/-- The registers that a scope reads. -/
def scopeReads (sc : Scope) : List RRef :=
  match sc with
  | .rect c => [.x c]
  | _ => []

def sizeBytes : MSize → Nat
  | .b8 => 1 | .b16 => 2 | .b32 => 4 | .b64 => 8

/-- R73: a load at a virtual address. -/
def State.load (s : State) (d : Reg) (t : MTy) (va : Word) : State :=
  (s.loadAt s.headWho { kind := .load, control := t.size = 8 } va t.size t.size (.load t) d).fin (fun g s1 =>
    match g with
    | .data v => (s1.setX d (t.conv v)).advance
    | .fail c => s1.trap c va)

/-- R72, R73: a plain store; its failure at the home is recorded. It comes after the accesses that an interrupt has left
under way, so that failures are recorded in program order. -/
def State.store (s : State) (v : Word) (n : Nat) (va : Word) : State :=
  s.afterOwn (fun t =>
    (t.storeAt t.headWho { kind := .store, control := n = 8 } va n (leBytes n v.toNat) .store).fin (fun r s1 =>
      match r.1, r.2 with
      | .fail c, _ => s1.trap c va
      | _, .data _ => s1.advance
      | _, .fail c => (s1.updC (fun x => x.recordStore va c)).advance))

/-- R75: a store whose failures are precise. -/
def State.storePrecise (s : State) (v : Word) (n : Nat) (va : Word) : State :=
  (s.storeAt s.headWho { kind := .store, control := n = 8 } va n (leBytes n v.toNat) .plain).fin (fun r s1 =>
    match r.2 with
    | .data _ => s1.advance
    | .fail c => s1.trap c va)

/-- The base register form of OP 0x18 and 0x19. -/
def loadForm (s : State) (d a : Reg) (imm : BitVec 11) (t : MTy) : Out :=
  .next (s.withRegs [.x a] [.x d] (fun u => u.load d t (u.getX a + sx imm)))

/-- The base register form of OP 0x1A. -/
def storeForm (s : State) (r a : Reg) (imm : BitVec 11) (n : Nat) : Out :=
  .next (s.withRegs [.x r, .x a] [] (fun u => u.store (u.getX r) n (u.getX a + sx imm)))

/-- R73: LD.s8. -/
def execLdS8 (d a : Reg) (imm : BitVec 11) (s : State) : Out := loadForm s d a imm .s8

/-- R73: LD.s16. -/
def execLdS16 (d a : Reg) (imm : BitVec 11) (s : State) : Out := loadForm s d a imm .s16

/-- R73: LD.s32. -/
def execLdS32 (d a : Reg) (imm : BitVec 11) (s : State) : Out := loadForm s d a imm .s32

/-- R73: LD.s64. -/
def execLdS64 (d a : Reg) (imm : BitVec 11) (s : State) : Out := loadForm s d a imm .s64

/-- R73: LD.z8. -/
def execLdZ8 (d a : Reg) (imm : BitVec 11) (s : State) : Out := loadForm s d a imm .z8

/-- R73: LD.z16. -/
def execLdZ16 (d a : Reg) (imm : BitVec 11) (s : State) : Out := loadForm s d a imm .z16

/-- R73: LD.z32. -/
def execLdZ32 (d a : Reg) (imm : BitVec 11) (s : State) : Out := loadForm s d a imm .z32

/-- R73: LD.z64. -/
def execLdZ64 (d a : Reg) (imm : BitVec 11) (s : State) : Out := loadForm s d a imm .z64

/-- R73: ST.s8. -/
def execStS8 (r a : Reg) (imm : BitVec 11) (s : State) : Out := storeForm s r a imm 1

/-- R73: ST.s16. -/
def execStS16 (r a : Reg) (imm : BitVec 11) (s : State) : Out := storeForm s r a imm 2

/-- R73: ST.s32. -/
def execStS32 (r a : Reg) (imm : BitVec 11) (s : State) : Out := storeForm s r a imm 4

/-- R73: ST.s64. -/
def execStS64 (r a : Reg) (imm : BitVec 11) (s : State) : Out := storeForm s r a imm 8

/-- R73: LDX. -/
def execLdx (d a b : Reg) (k : BitVec 2) (t : MTy) (s : State) : Out :=
  .next (s.withRegs [.x a, .x b] [.x d] (fun u => u.load d t (u.getX a + (u.getX b <<< k.toNat))))

/-- R73: STX. -/
def execStx (c a b : Reg) (k : BitVec 2) (t : MSize) (s : State) : Out :=
  .next (s.withRegs [.x c, .x a, .x b] [] (fun u =>
    u.store (u.getX c) (sizeBytes t) (u.getX a + (u.getX b <<< k.toNat))))

/-- R75, R76: LD.ACQ. -/
def execLdAcq (d a : Reg) (t : MTy) (sc : Scope) (s : State) : Out :=
  .next (s.withRegs (.x a :: scopeReads sc) [.x d] (fun u => u.withScope sc (fun v => v.load d t (v.getX a))))

/-- R72, R75, R76: ST.REL. -/
def execStRel (b a : Reg) (t : MSize) (sc : Scope) (s : State) : Out :=
  .next (s.withRegs (.x b :: .x a :: scopeReads sc) [] (fun u => u.withStoreFail (fun v => v.withScope sc (fun w =>
    w.storePrecise (w.getX b) (sizeBytes t) (w.getX a)))))

/-! ## Full-empty accesses (R77 to R80) -/

/-- The waits during which the limit of a full-empty access or of a RECV runs (R80, R149). -/
def WKind.limited : WKind → Bool
  | .fullEmpty | .response | .backoff | .recv | .own => true
  | _ => false

/-- The limit of a wait that began at cycle `since` is being counted. -/
def State.counting (s : State) (a : EvArg) : Bool :=
  s.timers.any (fun t => t.2.1 = .waitlimExpire && t.2.2 = a) || s.agenda.any (fun it => it = .event .waitlimExpire a)

/-- R80, R149: the limit of a wait is counted from the first issue of its head. A head that waits again after its limit
has passed is withdrawn at once. -/
def State.limitWait (before after : State) : State :=
  let a : EvArg := { x := before.cur.core, y := before.cur.ctx }
  match (after.ctx before.cur.core before.cur.ctx).wait with
  | none => after
  | some w =>
    if w.limit = 0 || !w.kind.limited then after
    else if after.counting { a with z := w.since } then after
    else if w.since + w.limit ≤ after.now then after.post .waitlimExpire { a with z := w.since }
    else after.after (w.since + w.limit - after.now) .waitlimExpire { a with z := w.since }

/-- R77, R78: a full-empty access of `y`. -/
def State.fullEmpty (s : State) (f : FeOp) (d : Reg) (y : Word) (va : Word) : State :=
  let st := match f with
    | .stef | .stsf | .stse => true
    | _ => false
  let rk : RKind := if st then .plain else .load .z64
  let form : Form := { kind := if st then .store else .load, device := false, window := false, fe := true }
  let access := (s.resolve s.headWho form va 8 8).bind (fun t s1 => s1.atomTarget s1.headWho t (.fe f y.toNat) rk d va)
  (access.stops s.limitWait).fin (fun g s2 =>
    match g with
    | .data v => (if st then s2 else s2.setX d (BitVec.ofNat 64 v)).advance
    | .fail c => s2.trap c va)

/-- R77: the address of OP 0x1D. -/
def feAddr (x : Word) (disp : BitVec 11) : Word := x + 8 * sx disp

/-- A full-empty form that reads. -/
def feLoad (s : State) (f : FeOp) (d a : Reg) (disp : BitVec 11) : Out :=
  .next (s.withRegs [.x a] [.x d] (fun u => u.fullEmpty f d 0 (feAddr (u.getX a) disp)))

/-- A full-empty form that writes; it takes a recorded store failure first (R72). -/
def feStore (s : State) (f : FeOp) (b a : Reg) (disp : BitVec 11) : Out :=
  .next (s.withRegs [.x b, .x a] [] (fun u => u.limitWait (u.withStoreFail (fun v =>
    v.fullEmpty f 0 (v.getX b) (feAddr (v.getX a) disp)))))

/-- R77: LDFF. -/
def execLdff (d a : Reg) (disp : BitVec 11) (s : State) : Out := feLoad s .ldff d a disp
/-- R77: LDFE. -/
def execLdfe (d a : Reg) (disp : BitVec 11) (s : State) : Out := feLoad s .ldfe d a disp
/-- R77: STEF. -/
def execStef (b a : Reg) (disp : BitVec 11) (s : State) : Out := feStore s .stef b a disp
/-- R77: STSF. -/
def execStsf (b a : Reg) (disp : BitVec 11) (s : State) : Out := feStore s .stsf b a disp
/-- R77: STSE. -/
def execStse (b a : Reg) (disp : BitVec 11) (s : State) : Out := feStore s .stse b a disp
/-- R77: FERD. -/
def execFerd (d a : Reg) (disp : BitVec 11) (s : State) : Out := feLoad s .ferd d a disp

/-- R229, R284: a refused request `o` goes again under its number, and its timer starts. -/
def State.sendAfterBackoff (s : State) (o : Outst) : State :=
  let s1 := match o.pkt.body with
    | .coh ev m => s.sendHome ev m
    | _ => s.post .packetRoute { x := 64, body := .net o.pkt }
  s1.after retryTime .retryTimeout { x := o.id, y := o.stamp }

/-- R229: BACKOFF_EXPIRE: a refused request goes again (`flag`: request `x` of the source's list, its `y`-th sending), or
the access of context `y` of core `x` that its agent's table refused is presented again; `z` is its number. -/
def execBackoffExpire (s : State) : Out :=
  if s.arg.flag then
    match s.outst.find? (fun o => o.id = s.arg.x && o.stamp = s.arg.y) with
    | some o => .next (s.sendAfterBackoff o)
    | none => .next s
  else
    let go := fun (w : Wait) => if w.kind = .backoff && w.tag = s.arg.z then { w with got := some .refused } else w
    .next (s.updCtx s.arg.x s.arg.y (fun c => { c with wait := c.wait.map go, hung := c.hung.map go }))

/-- R80: WAITLIM_EXPIRE: the core asks the home to withdraw a full-empty access; a RECV times out (R149). The wait may be
that of the head at the PC, or one that an interrupt left registered. `z` is the cycle of the head's first issue. -/
def execWaitlimExpire (s : State) : Out :=
  let core := s.arg.x
  let id := s.arg.y
  let c := s.ctx core id
  let mine := fun (w : Wait) => w.since = s.arg.z && w.got = none
  let late := fun (w : Wait) => if mine w then { w with kind := .response, got := some (.fail 0x0C) } else w
  match (c.wait.toList ++ c.hung).find? mine with
  | none => .next s
  | some w =>
    match w.kind with
    | .recv =>
      .next ((s.updCtx core id (fun c =>
        { c with wait := some { w with kind := .response, thr := 0, got := some (.fail 0x0D) } })).reissue core id)
    | .fullEmpty | .response => .next (s.post .feWithdraw { x := core, y := id, z := w.tag })
    | .backoff | .own =>
      let s1 := s.updCtx core id (fun c => { c with wait := c.wait.map late, hung := c.hung.map late })
      .next (if c.wait.any mine then s1.reissue core id else s1)
    | _ => .next s

/-- R284: a request that was refused waits for its backoff. -/
def State.backingOff (s : State) (o : Outst) : Bool :=
  let mine := fun (i : Instr) (a : EvArg) => i = .backoffExpire && a.flag && a.x = o.id && a.y = o.stamp
  s.timers.any (fun t => mine t.2.1 t.2.2) || s.agenda.any (fun it => match it with
    | .event i a => mine i a
    | .issue _ => false)

/-- The message of a full-empty access. -/
def Outst.feMsg (o : Outst) : Option Msg :=
  match o.pkt.body with
  | .coh .amor m => (match m.op with
    | some (.fe _ _) => some m
    | _ => none)
  | _ => none

/-- R80: FE_WITHDRAW: the home of the waiting access of context `y` of core `x` is asked to withdraw it; `z` is the number
of the access. The home withdraws it, and the head traps with cause 0x0C, or has performed it already. A request that has
not reached the wait list and waits for its backoff is not sent again; one that still waits at the agent of its tile is
taken back there. While there is no answer, the home is asked again (DEDUCED, log entry 67). -/
def execFeWithdraw (s : State) : Out :=
  let own : Src := ⟨s.arg.x, 0, 256 * s.arg.z + s.arg.y⟩
  match s.outst.findSome? (fun o => (o.feMsg.filter (fun m => m.own = own)).map (fun m => (o, m))) with
  | some (o, m) =>
    if s.backingOff o && !o.waited then .next (s.agentAwaited o .flt { m with cause := 0x0C, dst := m.agent })
    else .next ((s.sendMsg m.home (homeTile m.la) .amor { m with tag := 7 }).after retryTime .feWithdraw s.arg)
  | none =>
    match s.agents.find? (fun e => e.2.missq.any (fun q => q.2.own = own)) with
    | some (key, a) =>
      .next ((s.setAgent (key / 2 ^ 50) (key % 2 ^ 50) { a with missq := a.missq.filter (fun q => q.2.own != own) }).answer own
        (.fail 0x0C))
    | none => .next s

/-! ## Prefetch, write-back, discard (R82 to R84) -/

/-- R82: a hint; it has no architectural effect and never traps. With no way left it does nothing (R348). -/
def State.prefetch (s : State) (ev : Ev) (va : Word) : State :=
  (s.resolve s.headWho { kind := .load } va 1 1).fin (fun t s1 =>
    match t with
    | .line h gpa type =>
      let w := s1.headWho
      if s1.bypasses w type || !s1.numberFree (.slice (tileOf w.core)) then s1.advance
      else (s1.cached w ev { accMsg w s1 h (gpa / 64 * 64) 64 type ⟨w.core, 9, 0⟩ with tag := 1 }).advance
    | _ => s1.advance)

/-- R82: PREF. -/
def execPref (a : Reg) (imm : BitVec 11) (s : State) : Out :=
  .next (s.withRegs [.x a] [] (fun u => u.prefetch .ld (u.getX a + sx imm)))
/-- R82: PREF.w. -/
def execPrefW (a : Reg) (imm : BitVec 11) (s : State) : Out :=
  .next (s.withRegs [.x a] [] (fun u => u.prefetch .pfw (u.getX a + sx imm)))

/-- R82, R83: WB is checked as a load; a failure at the home is recorded (R72). -/
def execWb (a : Reg) (imm : BitVec 11) (s : State) : Out :=
  .next (s.withRegs [.x a] [] (fun v => v.afterOwn (fun u =>
    let va := u.getX a + sx imm
    (u.resolve u.headWho { kind := .load } va 1 1).fin (fun t s1 =>
      match t with
      | .fail c => s1.trap c va
      | .refused => (s1.updC (fun x => x.recordStore va 0x09)).advance
      | .line h gpa type =>
        let w := s1.headWho
        if s1.bypasses w type then s1.advance
        else
          (s1.request w .store 0 va (s1.numberers w type) (fun own t1 =>
            t1.cached w .wbl (accMsg w t1 h (gpa / 64 * 64) 64 type own))).fin (fun r s2 =>
              match r with
              | .fail c => (s2.updC (fun x => x.recordStore va c)).advance
              | _ => s2.advance)
      | _ => s1.advance))))

/-- R84: DROP is checked as a store, its range at the home, and every trap is precise. -/
def execDrop (a : Reg) (imm : BitVec 11) (s : State) : Out :=
  .next (s.withRegs [.x a] [] (fun u =>
    let va := u.getX a + sx imm
    (u.resolve u.headWho { kind := .store, device := false, window := false } va 1 1).fin (fun t s1 =>
      match t with
      | .line h gpa type =>
        let w := s1.headWho
        (s1.request w .plain 0 va (s1.numberers w type) (fun own t1 =>
          let m := accMsg w t1 { h with la := h.la / 64 * 64 } (gpa / 64 * 64) 64 type own
          if t1.bypasses w type then t1.uncached .dropr m else t1.cached w .dropl m)).fin (fun r s2 =>
            match r with
            | .fail c => s2.trap c va
            | _ => s2.advance)
      | .fail c => s1.trap c va
      | .refused => s1.trap 0x09 va
      | _ => s1.trap 0x08 va)))

end Sys2Proof.Machine
end

