-- ==== Sys2Proof/Machine/Atomic.lean ====
section
/-! DEFINITION. Atomics and reductions (R162 to R166). -/

namespace Sys2Proof.Machine

/-- R162: the form of an atomic access. -/
def atomForm : Form := { kind := .atomic, device := false }

/-- R163: AMO. It comes after every earlier access of the thread, so a release orders nothing further, nor do acquire and scope
(log entry 6). -/
def amo (s : State) (op : AOp) (d a b : Reg) (w64 : Bool) (sc : Scope) : Out :=
  .next (s.withRegs (.x a :: .x b :: scopeReads sc) [.x d] (fun t => t.withScope sc (fun t1 => t1.afterOwn (fun u =>
    let va := u.getX a
    let n := if w64 then 8 else 4
    (u.resolve u.headWho atomForm va n n).fin (fun tg s1 =>
      (s1.atomTarget s1.headWho tg (.amo op w64 ((s1.getX b).toNat % 2 ^ (8 * n))) (.atomic w64) d va).fin (fun g s2 =>
        match g with
        | .data v => (s2.setX d (atomConv w64 v)).advance
        | .fail c => s2.trap c va))))))

/-- R166: RED: failures at steps 4 and 5 are recorded (R72). -/
def red (s : State) (op : AOp) (a b : Reg) (w64 : Bool) (sc : Scope) : Out :=
  .next (s.withRegs (.x a :: .x b :: scopeReads sc) [] (fun t => t.withScope sc (fun t1 => t1.afterOwn (fun u =>
    let va := u.getX a
    let n := if w64 then 8 else 4
    (u.resolve u.headWho atomForm va n n).fin (fun tg s1 =>
      match tg with
      | .fail c => s1.trap c va
      | _ =>
        (s1.atomTarget s1.headWho tg (.amo op w64 ((s1.getX b).toNat % 2 ^ (8 * n))) .store 0 va).fin (fun g s2 =>
          match g with
          | .data _ => s2.advance
          | .fail c => (s2.updC (fun x => x.recordStore va c)).advance))))))

/-- R163: AMO, op add. -/
def execAmoAdd (d a b : Reg) (w64 acq rel : Bool) (sc : Scope) (s : State) : Out :=
  let _ := (acq, rel)
  amo s .add d a b w64 sc

/-- R163: AMO, op and. -/
def execAmoAnd (d a b : Reg) (w64 acq rel : Bool) (sc : Scope) (s : State) : Out :=
  let _ := (acq, rel)
  amo s .and d a b w64 sc

/-- R163: AMO, op or. -/
def execAmoOr (d a b : Reg) (w64 acq rel : Bool) (sc : Scope) (s : State) : Out :=
  let _ := (acq, rel)
  amo s .or d a b w64 sc

/-- R163: AMO, op xor. -/
def execAmoXor (d a b : Reg) (w64 acq rel : Bool) (sc : Scope) (s : State) : Out :=
  let _ := (acq, rel)
  amo s .xor d a b w64 sc

/-- R163: AMO, op min. -/
def execAmoMin (d a b : Reg) (w64 acq rel : Bool) (sc : Scope) (s : State) : Out :=
  let _ := (acq, rel)
  amo s .min d a b w64 sc

/-- R163: AMO, op max. -/
def execAmoMax (d a b : Reg) (w64 acq rel : Bool) (sc : Scope) (s : State) : Out :=
  let _ := (acq, rel)
  amo s .max d a b w64 sc

/-- R163: AMO, op minZ. -/
def execAmoMinZ (d a b : Reg) (w64 acq rel : Bool) (sc : Scope) (s : State) : Out :=
  let _ := (acq, rel)
  amo s .minZ d a b w64 sc

/-- R163: AMO, op maxZ. -/
def execAmoMaxZ (d a b : Reg) (w64 acq rel : Bool) (sc : Scope) (s : State) : Out :=
  let _ := (acq, rel)
  amo s .maxZ d a b w64 sc

/-- R163: AMO, op swap. -/
def execAmoSwap (d a b : Reg) (w64 acq rel : Bool) (sc : Scope) (s : State) : Out :=
  let _ := (acq, rel)
  amo s .swap d a b w64 sc

/-- R166: RED, op add. -/
def execRedAdd (a b : Reg) (w64 rel : Bool) (sc : Scope) (s : State) : Out :=
  let _ := rel
  red s .add a b w64 sc

/-- R166: RED, op and. -/
def execRedAnd (a b : Reg) (w64 rel : Bool) (sc : Scope) (s : State) : Out :=
  let _ := rel
  red s .and a b w64 sc

/-- R166: RED, op or. -/
def execRedOr (a b : Reg) (w64 rel : Bool) (sc : Scope) (s : State) : Out :=
  let _ := rel
  red s .or a b w64 sc

/-- R166: RED, op xor. -/
def execRedXor (a b : Reg) (w64 rel : Bool) (sc : Scope) (s : State) : Out :=
  let _ := rel
  red s .xor a b w64 sc

/-- R166: RED, op min. -/
def execRedMin (a b : Reg) (w64 rel : Bool) (sc : Scope) (s : State) : Out :=
  let _ := rel
  red s .min a b w64 sc

/-- R166: RED, op max. -/
def execRedMax (a b : Reg) (w64 rel : Bool) (sc : Scope) (s : State) : Out :=
  let _ := rel
  red s .max a b w64 sc

/-- R166: RED, op minZ. -/
def execRedMinZ (a b : Reg) (w64 rel : Bool) (sc : Scope) (s : State) : Out :=
  let _ := rel
  red s .minZ a b w64 sc

/-- R166: RED, op maxZ. -/
def execRedMaxZ (a b : Reg) (w64 rel : Bool) (sc : Scope) (s : State) : Out :=
  let _ := rel
  red s .maxZ a b w64 sc

/-- R165: CAS. -/
def execCas (d a b : Reg) (w64 acq rel : Bool) (sc : Scope) (s : State) : Out :=
  let _ := (acq, rel)
  .next (s.withRegs (.x d :: .x a :: .x b :: scopeReads sc) [.x d] (fun t => t.withScope sc (fun t1 => t1.afterOwn (fun u =>
    let va := u.getX a
    let n := if w64 then 8 else 4
    (u.resolve u.headWho atomForm va n n).fin (fun tg s1 =>
      (s1.atomTarget s1.headWho tg (.cas w64 (s1.getX d).toNat (s1.getX b).toNat) (.atomic w64) d va).fin (fun g s2 =>
        match g with
        | .data v => (s2.setX d (atomConv w64 v)).advance
        | .fail c => s2.trap c va))))))

/-- R165: CAS16. -/
def execCas16 (d a b : Reg) (acq rel : Bool) (sc : Scope) (s : State) : Out :=
  let _ := (acq, rel)
  .next (s.withRegs (.x d :: .x (d + 1) :: .x a :: .x b :: .x (b + 1) :: scopeReads sc) [.x d, .x (d + 1)]
    (fun t => t.withScope sc (fun t1 => t1.afterOwn (fun u =>
      let va := u.getX a
      let pair := fun (x y : Word) => x.toNat + y.toNat * 2 ^ 64
      (u.resolve u.headWho atomForm va 16 16).fin (fun tg s1 =>
        (s1.atomTarget s1.headWho tg (.cas16 (pair (s1.getX d) (s1.getX (d + 1))) (pair (s1.getX b) (s1.getX (b + 1))))
          .cas16 d va).fin (fun g s2 =>
            match g with
            | .data v => ((s2.setX d (BitVec.ofNat 64 v)).setX (d + 1) (BitVec.ofNat 64 (v / 2 ^ 64))).advance
            | .fail c => s2.trap c va))))))

end Sys2Proof.Machine
end

