-- ==== Sys2Proof/Machine/Task.lean ====
section
/-! DEFINITION. Spawning, messages, joins and the end of tasks (R142 to R154), and the dispatcher's events:
arrival of packets and messages, returns, dispatch, parking, ageing (R183 to R197, R285). -/

namespace Sys2Proof.Machine

/-! ## Building packets (R142, R143) -/

/-- R142: the head goes on with the 64-byte image at an address; a failed check traps. -/
def State.withImage (s : State) (va : Word) (k : List Word → State → State) : State :=
  (s.image64 s.headWho va).fin (fun r s1 =>
    match r.1 with
    | .data _ => k r.2 s1
    | .fail c => s1.trap c va)

/-- R148: the destination cube is refused at the source. -/
def State.withPeer (s : State) (cube : Nat) (tval : Word) (k : State → State) : State :=
  if s.peerAllows cube (s.partOfAsid s.c.asid) s.level then k s else s.trap 0x09 tval

/-- R283: the head goes on with the next number of its core's interface, unless it was used less than 600 µs ago. -/
def State.withSeq (s : State) (k : Nat → State → State) : State :=
  let me := Numberer.core s.cur.core
  if s.numberFree me then k (s.number me).1.seq (s.number me).2
  else
    let c := s.core s.cur.core
    let used := ((c.seqLog.find? (fun e => e.1 = c.spawnSeq && s.now < e.2 + reuseTime)).map Prod.snd).getD s.now
    let s1 := s.stall { kind := .backoff, rk := .memo }
    { s1 with timers := s1.timers ++ [(used + reuseTime, .sequenceNumberReuse, { x := s.cur.core })] }

/-- R143: w1 of a packet. -/
def packetW1 (asid gcid seq : Nat) : Word := BitVec.ofNat 64 (asid % 65536 + gcid % 2 ^ 28 * 2 ^ 16 + seq % 2 ^ 20 * 2 ^ 44)

/-- R143: the priority that a spawn carries. -/
def State.spawnPrio (s : State) (asked : Nat) : Nat :=
  if s.level = 0 then
    Nat.max asked (Nat.max 1 (match s.partOfAsid s.c.asid with
      | some p => s.partCeiling p
      | none => 0))
  else asked

/-- R143: the words of a spawned packet. -/
def State.spawnWords (s : State) (img : List Word) (seq : Nat) : List Word :=
  let w0 := setBits (setBits (wd img 0) 61 60 0) 63 62 (s.spawnPrio (wbits (wd img 0) 63 62))
  let asid := if s.level = 0 then s.c.asid else wbits (wd img 1) 15 0
  [w0, packetW1 asid (s.gcid s.cur.core) seq] ++ img.drop 2

/-- R145: a spawn leaves, as a release (R148, R168), and occupies a bounce slot; X[d] receives its number. -/
def State.spawnTo (s : State) (d : Reg) (img : List Word) (dest : Nat) (kind : PKind) : State :=
  if 4 ≤ (s.core s.cur.core).bounce.length then s.stall { kind := .bounceSlot }
  else
    s.afterOwn (fun s0 => s0.withSeq (fun seq s1 =>
      let p : Packet := ⟨s1.spawnWords img seq, dest, s1.gcid s1.cur.core, kind, s1.level⟩
      let s2 := s1.updCore s1.cur.core (fun c => { c with bounce := c.bounce ++ [⟨p, false, s1.serial, s1.cur.ctx, s1.c.uid, false⟩] })
      ((({ s2 with serial := s2.serial + 1 }).sendPacket p).setX d (BitVec.ofNat 64 seq)).advance))

/-- R144: SPAWN. -/
def execSpawn (d a b : Reg) (s : State) : Out :=
  .next (s.withRegs [.x a, .x b] [.x d] (fun t => t.withImage (t.getX b) (fun img u =>
    let dest := wbits (u.getX a) 27 0
    u.withPeer (gcidCube dest) (u.getX a) (fun v => v.spawnTo d img dest .spawn))))

/-- R144: SPAWNA: the address is translated as a load of alignment 1. -/
def execSpawna (d a b : Reg) (s : State) : Out :=
  .next (s.withRegs [.x a, .x b] [.x d] (fun t => t.withImage (t.getX b) (fun img u =>
    let va := u.getX a
    (u.resolve u.headWho { kind := .load, device := false, window := false } va 1 1).fin (fun tg v =>
      match tg with
      | .line h _ _ =>
        v.withPeer h.cube va (fun w =>
          w.spawnTo d img (h.cube * 16384 + ownerCore h.la) (.spawna (homeTile h.la)))
      | .fail c => v.trap c va
      | .refused => v.trap 0x09 va
      | _ => v.trap 0x08 va))))

/-- R147: SEND, a release: the head waits for the target's answer. -/
def execSend (d a b : Reg) (s : State) : Out :=
  .next (s.withRegs [.x a, .x b] [.x d] (fun t => t.withImage (t.getX b) (fun img u =>
    let dest := wbits (u.getX a) 27 0
    u.withPeer (gcidCube dest) (u.getX a) (fun v => v.afterOwn (fun v1 => v1.withSeq (fun seq w =>
      let asid := if w.level = 2 then wbits (wd img 1) 15 0 else w.c.asid
      let p : Packet := ⟨[wd img 0, packetW1 asid (w.gcid w.cur.core) seq] ++ img.drop 2, dest, w.gcid w.cur.core,
        .send w.level (wd img 1), w.cur.ctx⟩
      (w.sendPacket p).stall { kind := .send, what := dest, thr := seq, d := d }))))))

/-! ## Receiving (R149) -/

/-- R149: the address checks of RECV. -/
def State.withRecvBuffer (s : State) (va : Word) (k : State → State) : State :=
  if va.toNat % 64 ≠ 0 then s.trap 0x04 va
  else if !inWindow va then s.trap 0x08 va
  else
    (s.resolve s.headWho { kind := .store } va 64 64).fin (fun t s1 =>
      match t with
      | .fail c => s1.trap c va
      | _ => k s1)

/-- R149: the oldest message of the context's ASID is dequeued. -/
def State.dequeue (s : State) (d : Reg) (va : Word) (m : Message) : State :=
  let v := if m.completion then 1 else BitVec.ofNat 64 (m.sender * 2 ^ 36 + 2)
  (((s.lmemWrite s.clu (winOff va) (wordBytes m.words)).updCore s.cur.core (fun c =>
    { c with messages := c.messages.erase m })).setX d v).advance

/-- The message that the context would receive. -/
def State.nextMessage (s : State) : Option Message :=
  (s.core s.cur.core).messages.find? (fun m => m.asid = s.c.asid)

/-- R149: RECV. -/
def execRecv (d a : Reg) (s : State) : Out :=
  .next (s.withRegs [.x a] [.x d] (fun t => t.withRecvBuffer (t.getX a) (fun u =>
    match u.nextMessage with
    | some m => u.dequeue d (u.getX a) m
    | none => t.limitWait (u.stall { kind := .recv, d := d }))))

/-- R149: RECV.try. -/
def execRecvTry (d a : Reg) (s : State) : Out :=
  .next (s.withRegs [.x a] [.x d] (fun t => t.withRecvBuffer (t.getX a) (fun u =>
    match u.nextMessage with
    | some m => u.dequeue d (u.getX a) m
    | none => (u.setX d 0).advance)))

/-! ## Launch queues, joins, task end (R151 to R154) -/

/-- R151, R212: every core of a rectangle lies in a rectangle of the partition, which is valid. -/
def State.rectInPart (s : State) (w : Word) (p : Nat) : Bool :=
  s.partValid p && ((s.partRects p).any (fun r => rectWithin w r) ||
    (rectCores w).all (fun n => (s.partRects p).any (fun r => rectHas r n)))

/-- R151: LQPUSH, a release. -/
def execLqpush (d a b : Reg) (s : State) : Out :=
  .next (s.withRegs [.x a, .x b] [.x d] (fun t => t.withImage (t.getX b) (fun img t1 => t1.afterOwn (fun u =>
    let q := wbits (u.getX a) 5 0
    let w := wd img 1
    if !(u.lqEnabled q && u.partOfAsid u.c.asid = some (u.lqPart q)) then u.trap 0x08 (u.getX a)
    else if !(rectLegal w && rectKind w ≤ 1 && rectCube w = u.self) then u.trap 0x0A w
    else if !u.rectInPart w (u.lqPart q) then u.trap 0x09 w
    else if u.lqDepth q + 1 ≤ (u.lq q).descs.length then u.stall { kind := .launchQueue, what := q }
    else
      let id := q * 2 ^ 24 + (u.lq q).pushes
      let desc : LDesc := ⟨img, id, u.c.asid, u.c.ptbase, u.level, u.cur.core, u.serial⟩
      ((({ u with serial := u.serial + 1 }.updLq q (fun l => { l with descs := l.descs ++ [desc], pushes := (l.pushes + 1) % 2 ^ 24 })).post
        .launchStart {}).setX d (BitVec.ofNat 64 id)).advance))))

/-- R152: JDEC, a release: its access comes after every earlier one (`State.request`). -/
def execJdec (d a b : Reg) (s : State) : Out :=
  .next (s.withRegs [.x a, .x b] [.x d] (fun t =>
    let va := t.getX a
    (t.resolve t.headWho { kind := .atomic, device := false, window := false } va 64 64).fin (fun tg s1 =>
      (s1.atomTarget s1.headWho tg (.jdec (s1.getX b).toNat s1.c.asid) .flag d va).fin (fun g s2 =>
        match g with
        | .data v => (s2.setX d (BitVec.ofNat 64 v)).advance
        | .fail c => s2.trap c va))))

/-- R202: a TEND of a launched task is counted; the last one completes the launch. -/
def State.countTend (s : State) (q id : Nat) : State :=
  let s1 := s.updLq q (fun l => { l with runs := l.runs.map (fun r =>
    if r.desc.uid = id then { r with done := r.done + 1 } else r) })
  match (s1.lq q).runs.find? (fun r => r.desc.uid = id) with
  | some r =>
    if r.done = r.total && !r.failed && !r.completing then
      (s1.updLq q (fun l => { l with runs := l.runs.map (fun x =>
        if x.desc.uid = id then { x with completing := true } else x) })).post .launchComplete { x := q, y := id }
    else s1
  | none => s1

/-- A context ends: its id, its banks and its slot are free, and what it and its operation in flight (`restWho`) waited for is
forgotten. -/
def State.endCtx (s : State) (core id : Nat) : State :=
  let s1 := (((s.withdrawSem core id).dropMemo (headOwner core id)).dropMemo ⟨core, 7, id⟩).loadOver core id
  let s2 := (List.range 4).foldl (fun t k =>
    if (t.slot core k).ctx = some id then t.updSlot core k (fun x => { x with ctx := none, level := 0, csw := none,
                                                                              stopped := false, doomed := false, depth := 0 })
    else t) s1
  ((s2.setCtx core id {}).setCarve core).bankFreed core

/-- R153: TEND. Every earlier access of the thread is performed first. -/
def execTend (s : State) : Out :=
  .next (s.withStoreFail (fun t =>
    let c := t.c
    let t1 := { t.endCtx t.cur.core t.cur.ctx with accs := 0 }
    match c.launch with
    | some (q, id) => t1.countTend q id
    | none => t1))

/-- R154: work of equal or more urgent priority waits for a slot. -/
def State.workWaits (s : State) (core prio : Nat) : Bool :=
  (s.ctxsOf core).any (fun e => e.2.st = .readyParked && e.2.prio ≤ prio) ||
    (s.core core).bounce.any (fun b => b.back && b.p.prio ≤ prio) ||
    (s.core core).inbox.any (fun e => e.prio ≤ prio)

/-- R154: YIELD. In a handler it changes nothing: a pre-empted context leaves its slot only as R330 lists. -/
def execYield (s : State) : Out :=
  let t := s.advance
  if s.sl.depth = 0 && s.workWaits s.cur.core s.c.prio then
    let t1 := (t.updC (fun c => { c.saveOp with parkedAt := s.now, lvl := s.level })).becomeReady s.cur.core s.cur.ctx
    .next ((t1.updSl (fun x => { x with ctx := none, level := 0 })).dispatchOne s.cur.core (some s.cur.ctx))
  else .next t

/-! ## Arrival of packets (R144 to R146, R152, R193, R201) -/

def EvBody.thePacket : EvBody → Packet
  | .packet p => p
  | _ => ⟨[], 0, 0, .completion, 0⟩

/-- R193: the inbox has no room for a packet of a priority (4: a message). -/
def State.inboxFull (s : State) (core prio : Nat) : Bool :=
  let c := s.core core
  (if prio = 0 then 256 else 248) ≤ c.inbox.length + c.messages.length

/-- R144 step 3: the first core of a tile, from an index on, that belongs to a partition. -/
def State.memberFrom (s : State) (part : Nat) (tile hashed : Nat) : Option Nat :=
  let idx := (coreRow hashed % 16) * 16 + coreCol hashed % 16
  ((List.range 256).map (fun k =>
    let j := (idx + k) % 256
    mkCore (16 * (tile / 8) + j / 16) (16 * (tile % 8) + j % 16))).find? (fun n => s.partMember part n)

/-- The level of the sender of a packet, for the firewall (R381). -/
def Packet.level (p : Packet) : Nat :=
  match p.kind with
  | .spawn | .spawna _ => p.ctx
  | .cont _ _ _ => p.ctx % 4
  | .send l _ => l
  | _ => 2

/-- The core at which a packet is dispatched: `none` when it is returned (R146). -/
def State.arrivalCore (s : State) (p : Packet) : Option Nat :=
  let n := gcidCore p.dest
  let ok := fun (m : Nat) => !s.fenced m && !(Packet.level p < 2 && s.inColumn m)
  match s.partOfAsid p.asid, p.kind with
  | _, .launch _ _ => if s.fenced n then none else some n
  | some q, .spawna tile => ((s.memberFrom q tile n).filter ok)
  | some q, _ => if s.partMember q n && ok n then some n else none
  | none, _ => if Packet.level p = 2 && s.inColumn n && !s.fenced n then some n else none

/-- R145: the bounce slot that a packet occupies is free. -/
def State.bounceDone (s : State) (p : Packet) : State :=
  let same := fun (b : Bounce) => wd b.p.words 1 = wd p.words 1 && !b.back
  s.updCore (gcidCore p.sender) (fun c => match c.bounce.find? same with
    | some b => c.freeBounce b
    | none => c)

/-- R152: a home's continuation has been accepted. -/
def State.contTaken (s : State) (tile seq : Nat) : State :=
  s.updTile tile (fun t => { t with conts := t.conts.filter (fun c => wbits (wd c.words 1) 63 44 != seq) })

/-- The packet was accepted or discarded: its source is told. -/
def State.settled (s : State) (p : Packet) : State :=
  match p.kind with
  | .spawn | .spawna _ =>
    if gcidCube p.sender = s.self then s.bounceDone p
    else
      let np : NetPkt := ⟨p.sender, ⟨s.gcid (gcidCore p.dest), 0, wbits (wd p.words 1) 63 44⟩, 2, false, 0, 0, 0,
        .answer (gcidCore p.sender) (256 + wbits (wd p.words 1) 63 44) 0⟩
      s.post .packetRoute { x := 64, body := .net np }
  | .cont tile _ _ =>
    if tile / 64 = s.self then s.contTaken (tile % 64) (wbits (wd p.words 1) 63 44)
    else
      let src := packetSrc p
      let np : NetPkt := ⟨src.gcid, ⟨s.gcid (gcidCore p.dest), 0, src.seq⟩, 2, false, 0, 0, 0,
        .answer (tile % 64) (2 ^ 21 + src.seq) 0⟩
      s.post .packetRoute { x := 64, body := .net np }
  | _ => s

/-- The words of a packet with w0[61:60] set. -/
def markWords (ws : List Word) (flags : Nat) : List Word := setBits (wd ws 0) 61 60 flags :: ws.drop 1

/-- R203: a launch that has lost a task or a packet to a fence fails: its queue stops. DESIGN CHOICE (log entry 80): the packets
that the start buffer already holds for it are still offered. -/
def State.launchLost (s : State) (q id : Nat) : State :=
  if (s.lq q).runs.any (fun r => r.desc.uid = id && !r.failed) then
    let e := s.lqElapsed q
    ((s.updLq q (fun l =>
      { l with stopped := true, elapsed := e, since := s.now,
               runs := l.runs.map (fun r => if r.desc.uid = id then { r with failed := true, left := [] } else r) })).raiseAt
      (some (s.lqPart q)) { source := 2, sub := 2, tval := BitVec.ofNat 64 (2 ^ 63 + q), slot := 0 })
  else s

/-- R152, R229, R284: a continuation goes again to the same target after the backoff. -/
def State.contAgain (s : State) (p : Packet) : State :=
  match p.kind with
  | .cont tile stage n => s.after (backoff n) .continuationResend { body := .packet { p with kind := .cont tile stage (n + 1) } }
  | _ => s

/-- R146, R152, R201: a packet is refused (flags 2) or returned (flags 1). -/
def State.sendBack (s : State) (p : Packet) (flags : Nat) : State :=
  match p.kind with
  | .spawn | .spawna _ =>
    let p1 := { p with words := markWords p.words flags }
    if gcidCube p.sender = s.self then s.post .bounceReturn { body := .packet p1 }
    else
      let np : NetPkt := ⟨p.sender, ⟨s.gcid (gcidCore p.dest), 0, wbits (wd p.words 1) 63 44⟩, 2, false, 0, 0, 0,
        .returned p1⟩
      s.post .packetRoute { x := 64, body := .net np }
  | .cont tile _ _ =>
    if tile / 64 != s.self then
      let src := packetSrc p
      let np : NetPkt := ⟨src.gcid, ⟨s.gcid (gcidCore p.dest), 0, src.seq⟩, 2, false, 0, 0, 0,
        .returned { p with words := markWords p.words flags }⟩
      s.post .packetRoute { x := 64, body := .net np }
    else if flags = 1 then s.post .continuationReturned { body := .packet p }
    else s.contAgain p
  | .launch q id =>
    if flags = 1 then s.launchLost q id
    else if s.startBuf.any (fun e => e.1 = gcidCore p.dest) then s.after (backoff 0) .packetArrive { body := .packet p }
    else { s with startBuf := s.startBuf ++ [(gcidCore p.dest, q, id, p)] }
  | _ => s

/-- R160, R201: a core accepts a launch packet: its group g0 and its carve-out are set. -/
def State.launchAccepted (s : State) (core : Nat) (p : Packet) : State :=
  match p.kind with
  | .launch _ _ => s.setBarrier core 0 { m := wd p.words 4, ar := false, ph := false, j := false }
  | _ => s

/-- R170: a kernel-priority packet that arrives at a core ends every WFI that waits in its slots. -/
def State.endWfi (s : State) (core : Nat) : State :=
  let done := fun (w : Wait) => if w.kind = .wfi then { w with got := some (.data 0) } else w
  (List.range 4).foldl (fun t k =>
    match (t.slot core k).ctx with
    | some id => t.updCtx core id (fun c => { c with wait := c.wait.map done })
    | none => t) s

/-- R193: a packet enters an inbox. -/
def State.enqueue (s : State) (core : Nat) (p : Packet) : State :=
  let e : Entry := ⟨p, p.prio, s.now, s.serial⟩
  let s1 := { s with serial := s.serial + 1 }.updCore core (fun c => { c with inbox := c.inbox ++ [e] })
  let s2 := if 2 ≤ p.prio then s1.after 65536 .inboxAging { x := core } else s1
  (if p.prio = 0 then s2.endWfi core else s2).launchAccepted core p

/-- R285: a packet from another cube is remembered for 500 µs. -/
def State.rememberPacket (s : State) (p : Packet) : State :=
  if gcidCube (packetSrc p).gcid = s.self then s
  else
    let tile := tileOf (gcidCore p.dest)
    let n := s.serial
    ({ s with serial := n + 1 }.updTile tile (fun t => { t with received := t.received ++ [(n, packetSrc p)] })).after
      (500 * cyclesPerUs) .dispatcherHoldExpire { x := tile, y := n }

/-- R285: the dispatcher has already taken this packet. -/
def State.knownPacket (s : State) (p : Packet) : Bool :=
  gcidCube (packetSrc p).gcid != s.self && ((s.tile (tileOf (gcidCore p.dest))).received.any (fun e => e.2 = packetSrc p))

/-- R146: PACKET_ARRIVE: a packet is discarded, returned, refused or accepted, in this order. -/
def execPacketArrive (s : State) : Out :=
  let p := EvBody.thePacket s.arg.body
  if s.knownPacket p then .next (s.settled p)
  else if s.drainedPacket p then .next ((s.rememberPacket p).settled p)
  else
    match s.arrivalCore p with
    | none => .next (s.sendBack p 1)
    | some n =>
      if s.inboxFull n p.prio then .next (s.sendBack { p with dest := s.gcid n } 2)
      else .next (((s.rememberPacket p).enqueue n { p with dest := s.gcid n }).settled p)

/-- R145, R197: BOUNCE_RETURN: the packet waits in its bounce slot for dispatch. A packet for a fenced sender or
an unknown slot is discarded (R337), and so is one whose context a drain has terminated (R334). -/
def execBounceReturn (s : State) : Out :=
  let p := EvBody.thePacket s.arg.body
  let n := gcidCore p.sender
  let same := fun (b : Bounce) => wd b.p.words 1 = wd p.words 1 && !b.back
  match (s.core n).bounce.find? same with
  | some b =>
    if b.dead then .next (s.updCore n (fun c => c.freeBounce b))
    else
      .next ({ s with serial := s.serial + 1 }.updCore n (fun c =>
        { c with bounce := c.bounce.map (fun o => if o = b then { b with p := p, back := true, ord := s.serial } else o) }))
  | none => .next s

/-- R152: CONTINUATION_RETURNED: the home offers it to the home core, and then to the partition's KCORE. Where the issuer's
ASID lies in no valid partition there is no KCORE, and it goes to the same target again (DESIGN CHOICE, log entry 76). -/
def execContinuationReturned (s : State) : Out :=
  let p := EvBody.thePacket s.arg.body
  match p.kind with
  | .cont tile stage n =>
    let part := s.partOfAsid p.asid
    let home := (s.homeCore (p.ctx / 4) p.asid).map s.gcid
    let kcore := part.map (fun q => s.gcid (s.partKcore q))
    let p1 := { p with words := markWords p.words 1 }
    if stage = 0 && home.isSome && home != some p.dest then
      .next (s.sendPacket { p1 with dest := home.getD 0, kind := .cont tile 1 n })
    else
      match kcore with
      | some k =>
        if stage = 2 then .next (s.contAgain { p1 with dest := k })
        else .next (s.sendPacket { p1 with dest := k, kind := .cont tile 2 n })
      | none => .next (s.contAgain p1)
  | _ => .next s

/-- R152: CONTINUATION_RESEND. -/
def execContinuationResend (s : State) : Out := .next (s.sendPacket (EvBody.thePacket s.arg.body))

/-- R285: DISPATCHER_HOLD_EXPIRE. -/
def execDispatcherHoldExpire (s : State) : Out :=
  .next (s.updTile s.arg.x (fun t => { t with received := t.received.filter (fun e => e.1 != s.arg.y) }))

/-! ## Messages (R147, R193, R314) -/

/-- R147: the answer goes to the sender. -/
def State.answerSend (s : State) (p : Packet) (v : Nat) : State :=
  let seq := wbits (wd p.words 1) 63 44
  if gcidCube p.sender = s.self then
    s.post .sendAnswer { x := gcidCore p.sender, y := p.ctx, z := v, val := BitVec.ofNat 64 seq }
  else
    let np : NetPkt := ⟨p.sender, ⟨s.gcid (gcidCore p.dest), 0, seq⟩, 2, false, 0, 0, 0,
      .answer (gcidCore p.sender) p.ctx (4 * seq + v)⟩
    s.post .packetRoute { x := 64, body := .net np }

/-- R147, R381: SEND_MESSAGE_ARRIVE. -/
def execSendMessageArrive (s : State) : Out :=
  let p := EvBody.thePacket s.arg.body
  let n := gcidCore p.dest
  let level := Packet.level p
  let part := s.partOfAsid p.asid
  let member := match part with
    | some q => s.partMember q n
    | none => false
  let column := s.inColumn n
  let admitted := if column then level = 2 || (level = 1 && s.sendOk) else member
  if s.knownPacket p then .next (s.answerSend p 0)
  else if s.drainedPacket p || s.fenced n || !admitted then .next (s.answerSend p 2)
  else if s.inboxFull n 4 then .next (s.answerSend p 1)
  else
    let m : Message := { words := p.words, asid := p.asid, sender := p.sender, completion := false, level := level,
                         pay1 := match p.kind with
                           | .send _ w => w
                           | _ => 0 }
    let s1 := (s.rememberPacket p).updCore n (fun c => { c with messages := c.messages ++ [m] })
    let s2 := if 1 ≤ level then s1.raise n { source := 3, sub := 1, tval := BitVec.ofNat 64 p.sender, slot := 0 } else s1
    .next (s2.answerSend p 0)

/-- R147, R318, R334: SEND_ANSWER: X[d] is written wherever the context's bank then lies, and the head completes.
`val` is the number of the message; an answer that nothing waits for is discarded. -/
def execSendAnswer (s : State) : Out :=
  let core := s.arg.x
  let id := s.arg.y
  let v := BitVec.ofNat 64 s.arg.z
  let c := s.ctx core id
  let mine := fun (w : Wait) => w.kind = .send && w.got = none && w.thr = s.arg.val.toNat
  match c.wait with
  | some w =>
    if mine w then .next (s.wake core id (fun x => x.setX w.d v)) else .next s
  | none =>
    match c.hung.find? mine with
    | some w =>
      .next (s.updCtx core id (fun x => { (x.setX w.d v).late with
        hung := x.hung.map (fun o => if o = w then { w with got := some (.data s.arg.z) } else o) }))
    | none => .next s

/-! ## The scheduler's events -/

/-- R194: DISPATCH at core `x`; `y` − 1 is a context that has yielded and is excluded (R154). -/
def execDispatch (s : State) : Out :=
  .next (s.dispatchOne s.arg.x (match s.arg.y with
    | 0 => none
    | n + 1 => some n))

/-- R188: PARK at core `x`. -/
def execPark (s : State) : Out := .next (s.parkOne s.arg.x)

/-- R193: INBOX_AGING at core `x`: the entries that have waited 65,536 cycles move to the back of the next
more urgent priority. -/
def execInboxAging (s : State) : Out :=
  let n := s.arg.x
  let old := fun (e : Entry) => 2 ≤ e.prio && e.at_ + 65536 ≤ s.now
  let c := s.core n
  let aged := (c.inbox.filter old).map (fun e => { e with prio := e.prio - 1, at_ := s.now })
  let s1 := s.updCore n (fun c => { c with inbox := c.inbox.filter (fun e => !old e) ++ aged })
  .next (if aged.any (fun e => e.prio = 2) then s1.after 65536 .inboxAging { x := n } else s1)

/-- R315: KTIMER_EXPIRE: source 1 is pending while its condition holds, so that nothing is stored. -/
def execKtimerExpire (s : State) : Out := .next s

/-- R317: INTERRUPT_TAKE in slot `y` of core `x`. -/
def execInterruptTake (s : State) : Out := .next (s.takeInterrupt s.arg.x s.arg.y)

/-- R315: EVENT_REOFFER: a held event enters the core's event queue when room appears, and the next is offered. -/
def execEventReoffer (s : State) : Out :=
  let c := s.core s.arg.x
  match c.eventsHeld with
  | e :: rest =>
    if c.events.length < 32 then
      let s1 := s.updCore s.arg.x (fun c => { c with events := c.events ++ [e], eventsHeld := rest })
      .next (if rest.isEmpty then s1 else s1.post .eventReoffer { x := s.arg.x })
    else .next s
  | [] => .next s

/-- R283: SEQUENCE_NUMBER_REUSE: the heads of core `x` that wait for a number may send, and so do its requests that wait for
one. -/
def execSequenceNumberReuse (s : State) : Out :=
  let go := fun (w : Wait) => if w.kind = .backoff && w.tag = 0 then { w with got := some .refused } else w
  .next (((s.ctxsOf s.arg.x).foldl (fun t e => t.updCtx s.arg.x e.1 (fun c => { c with wait := c.wait.map go })) s).farRelease
    s.arg.x)

end Sys2Proof.Machine
end

