-- ==== Sys2Proof/Machine/Launch.lean ====
section
/-! DEFINITION. The launch sequencer (R179, R184, R199 to R209). -/

namespace Sys2Proof.Machine

/-! ## Fields of a descriptor (R179) -/

def LDesc.rect (d : LDesc) : Word := BitVec.ofNat 64 (wbits (wd d.words 1) 35 0)
def LDesc.spill (d : LDesc) : Nat := Nat.min 128 (wbits (wd d.words 2) 23 16)
def LDesc.overlap (d : LDesc) : Bool := wbit (wd d.words 2) 2
def LDesc.prio (d : LDesc) : Nat := wbits (wd d.words 2) 1 0
def LDesc.wsem (d : LDesc) : Nat := wbits (wd d.words 3) 7 0
def LDesc.wthresh (d : LDesc) : Nat := (wd d.words 4).toNat
def LDesc.sinc (d : LDesc) : Nat := wbits (wd d.words 5) 63 16
def LDesc.ssem (d : LDesc) : Nat := wbits (wd d.words 5) 7 0
def LDesc.crec (d : LDesc) : Word := wd d.words 7

/-- R201: L1FUSE takes effect only with both sides at least 4. -/
def LDesc.fuses (d : LDesc) : Bool :=
  wbit (wd d.words 2) 3 && (rectKind d.rect = 1 || (2 ≤ rectLH d.rect && 2 ≤ rectLW d.rect))

/-! ## Conditions of a start -/

/-- The partition that a queue belongs to (R204). -/
def State.queuePart (s : State) (q : Nat) : Option Nat := if s.lqEnabled q then some (s.lqPart q) else none

/-- R204: the queue's priority, lowered to the ceiling of its partition. -/
def State.queuePrio (s : State) (q : Nat) : Nat :=
  match s.queuePart q with
  | some p => Nat.max (s.lqPrio q) (s.partCeiling p)
  | none => s.lqPrio q

/-- R200, R204: the front launch of a queue whose order allows it to start. -/
def State.frontLaunch (s : State) (q : Nat) : Option LDesc :=
  let l := s.lq q
  match l.descs with
  | [] => none
  | d :: _ =>
    if !l.stopped && l.runs.length < 255 && (d.overlap || l.runs.isEmpty) then some d else none

/-- R203, R381: the launch fails the checks at its start. DESIGN CHOICE (log entry 80): a launch whose queue has been disabled
since its push is in no partition, and fails them. -/
def State.launchBad (s : State) (q : Nat) (d : LDesc) : Bool :=
  match s.queuePart q with
  | none => true
  | some p =>
    (d.wthresh != 0 && s.partOfSem d.wsem != some p) || (d.sinc != 0 && s.partOfSem d.ssem != some p) ||
      (rectCores d.rect).any (fun n => s.fenced n || (d.level < 2 && s.inColumn n)) || !s.rectInPart d.rect p

/-- R201: the level of the task packets of a launch. -/
def State.launchPrio (s : State) (q : Nat) (d : LDesc) : Nat :=
  if d.level = 0 then
    Nat.max d.prio (Nat.max 1 (match s.queuePart q with
      | some p => s.partCeiling p
      | none => 0))
  else d.prio

/-- The launches with tasks on a core, in contexts, in its inbox or in its entry of the start buffer. -/
def State.launchesOn (s : State) (n : Nat) : List (Nat × Nat) :=
  let inbox := (s.core n).inbox.filterMap (fun e => match e.p.kind with
    | .launch q id => some (q, id)
    | _ => none)
  (s.ctxsOf n).filterMap (fun e => e.2.launch) ++ inbox ++
    (s.startBuf.filter (fun e => e.1 = n)).map (fun e => (e.2.1, e.2.2.1))

/-- R201: a cluster of the rectangle runs tasks of a launch that fuses otherwise; a launch that a queue reset has forgotten
(R209) counts as long as tasks of it run. -/
def State.fusionWaits (s : State) (d : LDesc) : Bool :=
  let clusters := ((rectCores d.rect).map clusterOf).eraseDups
  clusters.any (fun cl => (List.range 16).any (fun j => (s.launchesOn (coreAt cl j)).any (fun l =>
    (s.lq l.1).runs.any (fun r => r.desc.uid = l.2 && r.desc.fuses != d.fuses) ||
      (s.lq l.1).forgotten.contains (l.2, !d.fuses))))

/-! ## L1 fusion (R201, R227) -/

/-- R227: the L1 data caches of a cluster are joined or parted, and invalidated as that happens. -/
def State.setFused (s : State) (cl : Nat) (b : Bool) : State :=
  if (s.cluster cl).fused = b then s
  else
    (List.range 16).foldl (fun t j => t.updCore (coreAt cl j) (fun c => { c with l1 := [] }))
      (s.updCluster cl (fun k => { k with fused := b }))

/-- R201: a started launch that fuses holds the cluster. -/
def State.fusedBy (s : State) (cl : Nat) : Bool :=
  s.lqs.any (fun e => e.2.runs.any (fun r => r.desc.fuses && (rectKind r.desc.rect = 1 || rectHas r.desc.rect (coreAt cl 0))))

/-- R201: fusion begins with the start of a launch and ends with its completion. The clusters of a fusing launch that never
completes are parted when a launch that does not fuse starts there after a queue reset has forgotten it (DESIGN CHOICE,
log entry 71). -/
def State.settleFusion (s : State) (rect : Word) : State :=
  (((rectCores rect).map clusterOf).eraseDups).foldl (fun t cl => t.setFused cl (t.fusedBy cl)) s

/-- R199: the front launch of the queue can start. -/
def State.canStart (s : State) (q : Nat) : Bool :=
  match s.frontLaunch q with
  | none => false
  | some d =>
    !s.launchBad q d && (d.wthresh = 0 || d.wthresh ≤ (s.sem .cube d.wsem).toNat) && !s.fusionWaits d

/-- R203: the front launch of the queue fails. -/
def State.mustFail (s : State) (q : Nat) : Bool :=
  match s.frontLaunch q with
  | none => false
  | some d => s.launchBad q d

/-- The queues that hold descriptors. -/
def State.busyQueues (s : State) : List Nat := (s.lqs.map Prod.fst).filter (fun q => !(s.lq q).descs.isEmpty)

/-- R206: the queue whose launch starts next. -/
def State.nextQueue (s : State) : Option Nat :=
  let l := s.busyQueues.filter s.canStart
  (List.range 4).findSome? (fun p =>
    let last := s.lastServed.getD p 63
    ((List.range 64).map (fun i => (last + 1 + i) % 64)).find? (fun q => l.contains q && s.queuePrio q = p))

/-- R199, R206: the launch that is starting: task packets of it are still to be sent. -/
def State.starting (s : State) : Option (Nat × LRun) :=
  s.lqs.findSome? (fun e => (e.2.runs.find? (fun r => !r.left.isEmpty)).map (fun r => (e.1, r)))

/-- R201: the entry of the start buffer that the next task packet needs is still held. -/
def State.bufferWaits (s : State) (r : LRun) : Bool :=
  match r.left with
  | n :: _ => s.startBuf.any (fun e => e.1 = n)
  | [] => false

/-- The sequencer has something to do. -/
def State.launchReady (s : State) : Bool :=
  s.busyQueues.any s.mustFail ||
  (match s.starting with
    | some e => !s.bufferWaits e.2
    | none => s.nextQueue.isSome)

/-! ## Timers (R205, R208) -/

/-- R208: the effective limit in cycles; 0 is none. -/
def State.lqLimit (s : State) (q : Nat) : Nat :=
  let own := s.csrField (0x2008 + 16 * q) 63 32
  let us := if own != 0 then own else
    (match s.queuePart q with
      | some p => wbits (s.partWord p 5) 31 0
      | none => 0)
  us * cyclesPerUs

/-- R208: the watchdog is set for the time that remains. -/
def State.armWatchdog (s : State) (q : Nat) : State :=
  let l := s.lq q
  let s1 := s.updLq q (fun l => { l with stamp := l.stamp + 1 })
  if s.lqLimit q = 0 || l.runs.isEmpty || l.stopped then s1
  else s1.after (s.lqLimit q - s.lqElapsed q) .watchdogExpire { x := q, z := l.stamp + 1 }

/-- R205: the timer of a queue counts, or holds its value, from now on. -/
def State.holdElapsed (s : State) (q : Nat) : State :=
  let e := s.lqElapsed q
  s.updLq q (fun l => { l with elapsed := e, since := s.now })

/-! ## The events -/

/-- R203: a launch that fails at its start: its queue stops. The launch leaves the queue (DEDUCED, log entry 20). -/
def State.failStart (s : State) (q : Nat) : State :=
  ((s.holdElapsed q).updLq q (fun l => { l with stopped := true, descs := l.descs.drop 1 })).raiseAt
    (s.queuePart q) { source := 2, sub := 2, tval := BitVec.ofNat 64 (2 ^ 63 + q), slot := 0 }

/-- R184, R201: the task packet of a launch for one core. -/
def State.launchPacketFor (s : State) (q : Nat) (d : LDesc) (n : Nat) : Packet :=
  let pc := wbits (wd d.words 0) 56 0
  { words := [BitVec.ofNat 64 (s.launchPrio q d * 2 ^ 62 + pc), packetW1 d.asid (s.gcid d.core) 0, wd d.words 6,
      BitVec.ofNat 64 (rectRank d.rect n), d.rect, BitVec.ofNat 64 d.id, d.crec, BitVec.ofNat 64 d.spill],
    dest := s.gcid n, sender := s.gcid d.core, kind := .launch q d.uid, ctx := d.ptbase.toNat }

/-- R201: a starting launch sends its task packets in the order of the ranks, up to the first core whose entry of
the start buffer an earlier start still holds. -/
def State.sendTasks (s : State) (q : Nat) (d : LDesc) (l : List Nat) : State :=
  let free := fun n => !s.startBuf.any (fun e => e.1 = n)
  let s1 := s.updLq q (fun x => { x with runs := x.runs.map (fun r =>
    if r.desc.uid = d.uid then { r with left := l.dropWhile free } else r) })
  (l.takeWhile free).foldl (fun t n => t.sendPacket (s.launchPacketFor q d n)) s1

/-- R201: a launch starts. -/
def State.startLaunch (s : State) (q : Nat) (d : LDesc) : State :=
  let prio := s.queuePrio q
  let first := (s.lq q).runs.isEmpty
  let run : LRun := ⟨d, rectSize d.rect, 0, false, false, rectCores d.rect⟩
  let s1 := (s.holdElapsed q).updLq q (fun l => { l with descs := l.descs.drop 1, runs := l.runs ++ [run] })
  let s2 := { s1 with lastServed := s1.lastServed.set prio q }
  let s3 := (s2.settleFusion d.rect).sendTasks q d (rectCores d.rect)
  if first then s3.armWatchdog q else s3

/-- R199, R203, R206: LAUNCH_START: a front launch that fails its checks fails; else the launch that is starting sends
on; else the queue that R206 chooses starts its front launch. -/
def execLaunchStart (s : State) : Out :=
  match s.busyQueues.find? s.mustFail with
  | some q => .next (s.failStart q)
  | none =>
    match s.starting with
    | some (q, r) => .next (s.sendTasks q r.desc r.left)
    | none =>
      match s.nextQueue with
      | some q =>
        (match s.frontLaunch q with
          | some d => .next (s.startLaunch q d)
          | none => .next s)
      | none => .next s

/-- R201: a held packet of core `n` can be offered again. -/
def State.reofferable (s : State) (n : Nat) : Bool :=
  match s.startBuf.find? (fun e => e.1 = n) with
  | some e => s.fenced n || !s.inboxFull n e.2.2.2.prio
  | none => false

/-- R201: START_BUFFER_REOFFER at core `x`. -/
def execStartBufferReoffer (s : State) : Out :=
  match s.startBuf.find? (fun e => e.1 = s.arg.x) with
  | some e =>
    if s.reofferable s.arg.x then
      .next ({ s with startBuf := s.startBuf.erase e }.sendPacket e.2.2.2)
    else .next s
  | none => .next s

/-- R202: the sequencer as the maker of the write of a completion record: in the pushing context's ASID. -/
def LDesc.who (d : LDesc) (a : EvArg) : Who :=
  { owner := ⟨d.core, 6, d.uid⟩, core := d.core, asid := d.asid, level := d.level, root := some d.ptbase,
    resume := some (.launchComplete, a) }

/-- R202: the completion record is written; a failure raises cause 0x23 with SUB 3. The record is checked as a
16-byte store with an alignment of 16 (DEDUCED, log entry 21). -/
def State.writeRecord (s : State) (q : Nat) (r : LRun) (k : State → State) : State :=
  let d := r.desc
  if d.crec = 0 then k s
  else
    let w := d.who s.arg
    (s.storeAt w { kind := .store } d.crec 16 (leBytes 8 d.id ++ leBytes 8 r.total) .memo).fin (fun g s1 =>
      let s2 := { s1.dropMemo w.owner with accs := 0 }
      match g.1, g.2 with
      | .fail _, _ => k (s2.raiseAt (s2.queuePart q) (event23 3 d.crec))
      | _, .fail _ => k (s2.raiseAt (s2.queuePart q) (event23 3 d.crec))
      | _, .data _ => k s2)

/-- R202: LAUNCH_COMPLETE of launch `y` of queue `x`. -/
def execLaunchComplete (s : State) : Out :=
  let q := s.arg.x
  match (s.lq q).runs.find? (fun r => r.desc.uid = s.arg.y) with
  | none => .next s
  | some r =>
    .next (s.writeRecord q r (fun t =>
      let t1 := if r.desc.sinc = 0 then t else t.semAddOwned r.desc.ssem r.desc.sinc
      ((t1.updLq q (fun l => { l with runs := l.runs.filter (fun x => x.desc.uid != r.desc.uid), elapsed := 0,
                                      since := t.now })).settleFusion r.desc.rect).armWatchdog q))

/-- R208: WATCHDOG_EXPIRE of queue `x`; with `flag` set the limit has been written and is only taken anew. -/
def execWatchdogExpire (s : State) : Out :=
  let q := s.arg.x
  let l := s.lq q
  let due := s.lqLimit q != 0 && s.lqLimit q ≤ s.lqElapsed q && !l.runs.isEmpty && !l.stopped
  if due && (s.arg.flag || s.arg.z = l.stamp) then
    .next (((s.holdElapsed q).updLq q (fun l => { l with stopped := true })).raiseAt (s.queuePart q)
      { source := 2, sub := 1, tval := BitVec.ofNat 64 q, slot := 0 })
  else if s.arg.flag then .next (s.armWatchdog q)
  else .next s

/-- The launch whose task packet arrives with an event. -/
def arrivesFor (q : Nat) (i : Instr) (a : EvArg) : Option Nat :=
  match i, a.body with
  | .packetArrive, .packet p =>
    (match p.kind with
      | .launch k id => if k = q then some id else none
      | _ => none)
  | _, _ => none

/-- The launch whose task packet an item of the agenda brings. -/
def Item.arrivesFor (it : Item) (q : Nat) : Option Nat :=
  match it with
  | .event i a => Machine.arrivesFor q i a
  | .issue _ => none

/-- R199: the launches of a queue that are starting: a task packet of them has been neither accepted nor held. -/
def State.startingIds (s : State) (q : Nat) : List Nat :=
  ((s.lq q).runs.filter (fun r => !r.left.isEmpty)).map (fun r => r.desc.uid) ++
    s.agenda.filterMap (fun it => it.arrivesFor q) ++ s.timers.filterMap (fun t => arrivesFor q t.2.1 t.2.2)

/-- R209: LQ_RESET of queue `x`: a starting launch stops sending, and its held packets are discarded; those of a running
launch stay. -/
def execLqReset (s : State) : Out :=
  let q := s.arg.x
  let ids := s.startingIds q
  let gone := fun (o : Option Nat) => o.any (fun id => ids.contains id)
  let s1 := s.updLq q (fun l =>
    { stamp := l.stamp + 1, forgotten := l.runs.map (fun r => (r.desc.uid, r.desc.fuses)) ++ l.forgotten })
  .next { s1 with startBuf := s1.startBuf.filter (fun e => !(e.2.1 = q && ids.contains e.2.2.1)),
                  agenda := s1.agenda.filter (fun it => !gone (it.arrivesFor q)),
                  timers := s1.timers.filter (fun t => !gone (arrivesFor q t.2.1 t.2.2)) }

end Sys2Proof.Machine
end

