-- ==== Sys2Proof/Machine/Flags.lean ====
section
/-! DEFINITION. Number formats, rounding and the flags of FPSTAT (R39 to R54, R58). A value is exact until it is
rounded once; a flag set is a number with the bits of R47. -/

namespace Sys2Proof

/-- R20: the width of an element in bits. -/
def ETy.width : ETy → Nat
  | .s8 | .z8 | .e4 | .e5 => 8
  | .s16 | .z16 | .h | .bf => 16
  | .s32 | .z32 | .f => 32
  | .s64 | .z64 | .d => 64
  | .e2 => 4

def ETy.isFloat : ETy → Bool
  | .h | .bf | .f | .d | .e4 | .e5 | .e2 => true
  | _ => false

def ETy.isSigned : ETy → Bool
  | .s8 | .s16 | .s32 | .s64 => true
  | _ => false

end Sys2Proof

namespace Sys2Proof.Machine

/-! ## Flags (R47) -/

def flNV : Nat := 16
def flDZ : Nat := 8
def flOF : Nat := 4
def flUF : Nat := 2
def flNX : Nat := 1

/-! ## Formats (R40 to R42) -/

/-- What a format has beside finite values. -/
inductive Special where
  /-- infinities and NaNs -/
  | ieee
  /-- E4M3: one NaN fraction, no infinity -/
  | e4m3
  /-- E2M1: neither -/
  | e2m1
  deriving DecidableEq, Repr

/-- R40: exponent and fraction widths and bias. `quiet`: every NaN is quiet. -/
structure Fmt where
  ew : Nat
  mw : Nat
  bias : Nat
  spec : Special := .ieee
  quiet : Bool := false
  /-- R52: FTZ applies -/
  ftz : Bool := false
  deriving DecidableEq, Repr

def fmtD : Fmt := { ew := 11, mw := 52, bias := 1023, ftz := true }
def fmtF : Fmt := { ew := 8, mw := 23, bias := 127, ftz := true }
def fmtH : Fmt := { ew := 5, mw := 10, bias := 15 }
def fmtBF : Fmt := { ew := 8, mw := 7, bias := 127 }
def fmtE4 : Fmt := { ew := 4, mw := 3, bias := 7, spec := .e4m3, quiet := true }
def fmtE5 : Fmt := { ew := 5, mw := 2, bias := 15, quiet := true }
def fmtE2 : Fmt := { ew := 2, mw := 1, bias := 1, spec := .e2m1, quiet := true }

/-- The format of a floating element type. -/
def fmtOf : ETy → Fmt
  | .d => fmtD
  | .h => fmtH
  | .bf => fmtBF
  | .e4 => fmtE4
  | .e5 => fmtE5
  | .e2 => fmtE2
  | _ => fmtF

/-- The sign bit of a format. -/
def Fmt.sign (f : Fmt) : Nat := 2 ^ (f.ew + f.mw)
/-- R40, R41: the code of the largest finite magnitude. -/
def Fmt.top (f : Fmt) : Nat :=
  match f.spec with
  | .ieee => (2 ^ f.ew - 1) * 2 ^ f.mw - 1
  | .e4m3 => 0x7E
  | .e2m1 => 7
/-- The code of +∞. -/
def Fmt.infCode (f : Fmt) : Nat := (2 ^ f.ew - 1) * 2 ^ f.mw
/-- R42: the canonical NaN. -/
def Fmt.nanCode (f : Fmt) : Nat :=
  match f.spec with
  | .ieee => f.infCode + 2 ^ (f.mw - 1)
  | .e4m3 => 0x7F
  | .e2m1 => 0
/-- The exponent of the smallest normal. -/
def Fmt.emin (f : Fmt) : Int := 1 - f.bias

/-- An exact value: (−1)^neg × m × 2^e. -/
inductive FVal where
  | nan (sig : Bool)
  | inf (neg : Bool)
  | num (neg : Bool) (m : Nat) (e : Int)
  deriving DecidableEq, Repr

/-- R40 to R42: the value of a code. -/
def Fmt.decode (f : Fmt) (bits : Nat) : FVal :=
  let neg := bits / f.sign % 2 = 1
  let ex := bits / 2 ^ f.mw % 2 ^ f.ew
  let fr := bits % 2 ^ f.mw
  let finite : FVal :=
    if ex = 0 then .num neg fr (f.emin - f.mw) else .num neg (fr + 2 ^ f.mw) ((ex : Int) - f.bias - f.mw)
  match f.spec with
  | .e2m1 => finite
  | .e4m3 => if ex = 15 && fr = 7 then .nan false else finite
  | .ieee =>
    if ex + 1 = 2 ^ f.ew then
      if fr = 0 then .inf neg else .nan (!f.quiet && fr < 2 ^ (f.mw - 1))
    else finite

/-- R52: a subnormal operand is read as zero of the same sign. -/
def Fmt.flushIn (f : Fmt) (ftz : Bool) (v : FVal) : FVal :=
  match v with
  | .num neg m e => if ftz && f.ftz && m < 2 ^ f.mw then .num neg 0 e else v
  | _ => v

/-- An operand as an instruction reads it. -/
def Fmt.read (f : Fmt) (ftz : Bool) (bits : Nat) : FVal := f.flushIn ftz (f.decode bits)

def FVal.isNan : FVal → Bool
  | .nan _ => true
  | _ => false

/-- R53: the flag of a consumed signalling NaN. -/
def FVal.sigFlag : FVal → Nat
  | .nan true => flNV
  | _ => 0

def FVal.negate : FVal → FVal
  | .nan s => .nan s
  | .inf n => .inf (!n)
  | .num n m e => .num (!n) m e

/-! ## Rounding (R46, R49, R50) -/

/-- R46: rounding modes 0 RNE, 1 RZ, 2 RDN, 3 RUP. -/
structure FpCtl where
  rm : Nat
  ftz : Bool
  deriving DecidableEq, Repr

/-- R49: nearest even, never flushed. -/
def fpNearest : FpCtl := { rm := 0, ftz := false }

/-- R46: FPCTL. -/
def fpCtl (w : Word) : FpCtl := { rm := wbits w 1 0, ftz := wbit w 2 }

/-- The position of the highest one bit. -/
def topBit (m : Nat) : Nat := m.log2

/-- m × 2^e in units of 2^q, rounded: the number of units, and whether it is inexact. -/
def roundAt (rm : Nat) (neg : Bool) (m : Nat) (e q : Int) : Nat × Bool :=
  if q ≤ e then (m * 2 ^ (e - q).toNat, false)
  else
    let sh := (q - e).toNat
    let n := m / 2 ^ sh
    let rem := m % 2 ^ sh
    let half := 2 ^ (sh - 1)
    let up := match rm with
      | 0 => half < rem || (rem = half && n % 2 = 1)
      | 1 => false
      | 2 => neg && rem != 0
      | _ => !neg && rem != 0
    (if up then n + 1 else n, rem != 0)

/-- R49: the result, rounded as if the exponent were unbounded, lies below the smallest normal. -/
def tinyAfter (f : Fmt) (rm : Nat) (neg : Bool) (m : Nat) (e : Int) : Bool :=
  let top := (topBit m : Int) + e
  let n := (roundAt rm neg m e (top - f.mw)).1
  decide (top < f.emin) && !(decide (top = f.emin - 1) && decide (n = 2 ^ (f.mw + 1)))

/-- The code with a sign. -/
def Fmt.withSign (f : Fmt) (neg : Bool) (code : Nat) : Nat := if neg then code + f.sign else code

/-- R50: the result of an overflow. -/
def Fmt.overflow (f : Fmt) (rm : Nat) (sat neg : Bool) : Nat :=
  if f.spec = .e2m1 || sat then f.withSign neg f.top
  else
    match f.spec with
    | .e4m3 => f.nanCode
    | _ =>
      let toInf := match rm with
        | 0 => true
        | 1 => false
        | 2 => neg
        | _ => !neg
      f.withSign neg (if toInf then f.infCode else f.top)

/-- A magnitude of `n` units of 2^q, at a position that the format can hold, as a code. -/
def Fmt.code (f : Fmt) (n : Nat) (q : Int) : Nat := n + (q - (f.emin - f.mw)).toNat * 2 ^ f.mw

/-- R49, R50, R52: a finite value rounded once: the code and the flags. -/
def Fmt.roundNum (f : Fmt) (c : FpCtl) (sat neg : Bool) (m : Nat) (e : Int) : Nat × Nat :=
  if m = 0 then (f.withSign neg 0, 0)
  else
    let top := (topBit m : Int) + e
    let q := (if top < f.emin then f.emin else top) - f.mw
    let (n, inexact) := roundAt c.rm neg m e q
    let tiny := tinyAfter f c.rm neg m e
    if c.ftz && f.ftz && tiny then (f.withSign neg 0, flUF + flNX)
    else if f.top < f.code n q then (f.overflow c.rm sat neg, flOF + flNX)
    else (f.withSign neg (f.code n q), (if inexact then flNX else 0) + (if tiny && inexact then flUF else 0))

/-- R50, R53: any exact value as a code of the format: the code and the flags. -/
def Fmt.round (f : Fmt) (c : FpCtl) (sat : Bool) (v : FVal) : Nat × Nat :=
  match v with
  | .nan s => if f.spec = .e2m1 then (0, flNV) else (f.nanCode, if s then flNV else 0)
  | .inf neg =>
    (match f.spec with
      | .ieee => (f.withSign neg (if sat then f.top else f.infCode), 0)
      | .e4m3 => (if sat then f.withSign neg f.top else f.nanCode, flNV)
      | .e2m1 => (f.withSign neg f.top, flNV))
  | .num neg m e => f.roundNum c sat neg m e

/-! ## Exact operations (R53, R91) -/

/-- The signed integer of a finite value in units of 2^q, for q not above its exponent. -/
def unitsOf (neg : Bool) (m : Nat) (e q : Int) : Int :=
  let v : Int := ((m * 2 ^ (e - q).toNat : Nat) : Int)
  if neg then -v else v

/-- R53: the exact sum; the mode decides the sign of an exact zero. -/
def FVal.add (rm : Nat) (a b : FVal) : FVal × Nat :=
  match a, b with
  | .nan _, _ => (.nan false, a.sigFlag ||| b.sigFlag)
  | _, .nan _ => (.nan false, b.sigFlag)
  | .inf x, .inf y => if x = y then (.inf x, 0) else (.nan false, flNV)
  | .inf x, _ => (.inf x, 0)
  | _, .inf y => (.inf y, 0)
  | .num nx mx ex, .num ny my ey =>
    let q := if ex ≤ ey then ex else ey
    let t := unitsOf nx mx ex q + unitsOf ny my ey q
    if t = 0 then (.num (if nx = ny then nx else rm = 2) 0 q, 0)
    else (.num (decide (t < 0)) t.natAbs q, 0)

/-- The exact product. -/
def FVal.mul (a b : FVal) : FVal × Nat :=
  match a, b with
  | .nan _, _ => (.nan false, a.sigFlag ||| b.sigFlag)
  | _, .nan _ => (.nan false, b.sigFlag)
  | .inf x, .inf y => (.inf (x != y), 0)
  | .inf x, .num y m _ => if m = 0 then (.nan false, flNV) else (.inf (x != y), 0)
  | .num x m _, .inf y => if m = 0 then (.nan false, flNV) else (.inf (x != y), 0)
  | .num nx mx ex, .num ny my ey => (.num (nx != ny) (mx * my) (ex + ey), 0)

/-- Quotients and roots are cut to this many bits, with one sticky bit below them: enough for one rounding to
any format. -/
def guardBits : Nat := 80

/-- p / q × 2^e cut to `guardBits` bits with a sticky bit. -/
def ratio (neg : Bool) (p q : Nat) (e : Int) : FVal :=
  let sh := guardBits + topBit q
  let n := p * 2 ^ sh
  .num neg (n / q * 2 + (if n % q = 0 then 0 else 1)) (e - sh - 1)

/-- R91: the quotient. -/
def FVal.div (a b : FVal) : FVal × Nat :=
  match a, b with
  | .nan _, _ => (.nan false, a.sigFlag ||| b.sigFlag)
  | _, .nan _ => (.nan false, b.sigFlag)
  | .inf _, .inf _ => (.nan false, flNV)
  | .inf x, .num y _ _ => (.inf (x != y), 0)
  | .num x _ _, .inf y => (.num (x != y) 0 0, 0)
  | .num nx mx ex, .num ny my ey =>
    if my = 0 then
      if mx = 0 then (.nan false, flNV) else (.inf (nx != ny), flDZ)
    else if mx = 0 then (.num (nx != ny) 0 0, 0)
    else (ratio (nx != ny) mx my (ex - ey), 0)

/-- m × 2^e with an even exponent. -/
def evenExp (m : Nat) (e : Int) : Nat × Int := if e % 2 = 0 then (m, e) else (2 * m, e - 1)

/-- The integer square root, bit by bit from bit `i` − 1 down. -/
def isqrtFrom (n : Nat) : Nat → Nat → Nat
  | 0, r => r
  | i + 1, r => isqrtFrom n i (if (r + 2 ^ i) * (r + 2 ^ i) ≤ n then r + 2 ^ i else r)

/-- The integer square root, cut. -/
def isqrt (n : Nat) : Nat := isqrtFrom n (topBit n / 2 + 1) 0

/-- √m × 2^(e/2), e even, cut with a sticky bit. -/
def rootOf (m : Nat) (e : Int) : FVal :=
  let n := m * 2 ^ (2 * guardBits)
  let r := isqrt n
  .num false (2 * r + (if r * r = n then 0 else 1)) (e / 2 - guardBits - 1)

/-- R91: the square root. -/
def FVal.sqrt (a : FVal) : FVal × Nat :=
  match a with
  | .nan _ => (.nan false, a.sigFlag)
  | .inf neg => if neg then (.nan false, flNV) else (.inf false, 0)
  | .num neg m e =>
    if m = 0 then (.num neg 0 0, 0)
    else if neg then (.nan false, flNV)
    else let (m1, e1) := evenExp m e; (rootOf m1 e1, 0)

/-- The order of two values that are no NaNs, −0 equal to +0: −1, 0 or 1. -/
def FVal.order (a b : FVal) : Int :=
  match a, b with
  | .inf x, .inf y => if x = y then 0 else if x then -1 else 1
  | .inf x, _ => if x then -1 else 1
  | _, .inf y => if y then 1 else -1
  | .num nx mx ex, .num ny my ey =>
    let q := if ex ≤ ey then ex else ey
    let t := unitsOf nx mx ex q - unitsOf ny my ey q
    if t = 0 then 0 else if t < 0 then -1 else 1
  | _, _ => 0

def FVal.isNeg : FVal → Bool
  | .nan _ => false
  | .inf n => n
  | .num n _ _ => n

/-- R53: minimum (or maximum): a single NaN gives the other operand, and −0 lies below +0. -/
def FVal.minmax (isMax : Bool) (a b : FVal) : FVal × Nat :=
  let fl := a.sigFlag ||| b.sigFlag
  if a.isNan then (if b.isNan then .nan false else b, fl)
  else if b.isNan then (a, fl)
  else
    let o := a.order b
    let aFirst := decide (o < 0) || (o = 0 && a.isNeg)
    (if aFirst != isMax then a else b, fl)

/-! ## Integers (R39, R51) -/

/-- The signed or unsigned value of a code. -/
def intOf (t : ETy) (bits : Nat) : Int :=
  if t.isSigned && 2 ^ (t.width - 1) ≤ bits then (bits : Int) - 2 ^ t.width else bits

/-- R39: wrap. -/
def wrapInt (t : ETy) (v : Int) : Nat := (v % (2 ^ t.width : Int)).toNat

def intMin (t : ETy) : Int := if t.isSigned then -(2 ^ (t.width - 1) : Int) else 0
def intMax (t : ETy) : Int := if t.isSigned then 2 ^ (t.width - 1) - 1 else 2 ^ t.width - 1

/-- R39: sat. -/
def satInt (t : ETy) (v : Int) : Nat :=
  wrapInt t (if v < intMin t then intMin t else if intMax t < v then intMax t else v)

/-- An integer as an exact value; zero is positive. -/
def FVal.ofInt (v : Int) : FVal := .num (decide (v < 0)) v.natAbs 0

/-- R51: conversion to an integer type. -/
def toIntType (t : ETy) (rm : Nat) (v : FVal) : Nat × Nat :=
  match v with
  | .nan _ => (0, flNV)
  | .inf neg => (wrapInt t (if neg then intMin t else intMax t), flNV)
  | .num neg m e =>
    let (n, inexact) := roundAt rm neg m e 0
    let i : Int := if neg then -(n : Int) else n
    if i < intMin t || intMax t < i then (satInt t i, flNV) else (wrapInt t i, if inexact then flNX else 0)

/-- The exact value of an element. -/
def elemVal (t : ETy) (ftz : Bool) (bits : Nat) : FVal :=
  if t.isFloat then (fmtOf t).read ftz bits else FVal.ofInt (intOf t bits)

/-- R93: conversion of an element. -/
def convElem (src dst : ETy) (c : FpCtl) (sat : Bool) (bits : Nat) : Nat × Nat :=
  if dst.isFloat then (fmtOf dst).round c sat (elemVal src c.ftz bits)
  else if src.isFloat then toIntType dst c.rm (elemVal src c.ftz bits)
  else (if sat then satInt dst (intOf src bits) else wrapInt dst (intOf src bits), 0)

/-! ## Stochastic rounding (R54) -/

/-- R54: the magnitude m × 2^e cut at the step 2^q and raised by one step when the 16 bits below, with `rnd` added,
carry. -/
def stochAt (rnd : Nat) (neg : Bool) (m : Nat) (e q : Int) : Nat :=
  let lo := (roundAt 1 neg m e q).1
  let t := (roundAt 1 neg m e (q - 16)).1 % 2 ^ 16
  if 2 ^ 16 ≤ t + rnd % 2 ^ 16 then lo + 1 else lo

/-- R49, R54: the result rounded as if the exponent range were unbounded lies below the smallest normal. -/
def Fmt.stochTiny (f : Fmt) (rnd : Nat) (neg : Bool) (m : Nat) (e : Int) : Bool :=
  let q := (topBit m : Int) + e - f.mw
  let n := stochAt rnd neg m e q
  q < f.emin - f.mw && !(n = 2 ^ (f.mw + 1) && q + 1 = f.emin - f.mw)

/-- R54: stochastic rounding at the precision of the format. Overflow follows R50's nearest row, since RM has no effect
(DEDUCED, log entry 22). -/
def Fmt.roundStoch (f : Fmt) (sat : Bool) (rnd : Nat) (v : FVal) : Nat × Nat :=
  match v with
  | .num neg m e =>
    if m = 0 then (f.withSign neg 0, 0)
    else
      let top := (topBit m : Int) + e
      let q := (if top < f.emin then f.emin else top) - f.mw
      let inexact := (roundAt 1 neg m e q).2
      let n := stochAt rnd neg m e q
      if f.top < f.code n q then (f.overflow 0 sat neg, flOF + flNX)
      else
        (f.withSign neg (f.code n q), (if inexact then flNX else 0) +
          (if f.stochTiny rnd neg m e && inexact then flUF else 0))
  | _ => f.round fpNearest sat v

/-! ## MX blocks (R44, R45) -/

/-- R45 step 3: emax. -/
def mxEmax : ETy → Int
  | .e4 => 8
  | .e5 => 15
  | .e2 => 2
  | _ => 0

/-- A finite value times a power of two. -/
def FVal.scale (v : FVal) (k : Int) : FVal :=
  match v with
  | .num neg m e => .num neg m (e + k)
  | _ => v

/-- floor(log2 |x|) of a finite value that is not zero. -/
def FVal.log2 : FVal → Option Int
  | .num _ m e => if m = 0 then none else some (topBit m + e)
  | _ => none

/-- R45 step 4: one element. -/
def mxElem (dst : ETy) (c : FpCtl) (q : Int) (v : FVal) : Nat × Nat :=
  match dst, v with
  | .s8, .num neg m e =>
    let (n, inexact) := roundAt c.rm neg m e (q - 6)
    let i : Int := if neg then -(n : Int) else n
    if i < intMin .s8 || intMax .s8 < i then (satInt .s8 i, flOF + flNX)
    else (wrapInt .s8 i, if inexact then flNX else 0)
  | _, _ => (fmtOf dst).round c true (v.scale (-q))

/-- R45: the elements, the scale and the flags of a block. -/
def mxPack (dst : ETy) (c : FpCtl) (vs : List FVal) : List Nat × Nat × Nat :=
  let finite := vs.all (fun v => match v with
    | .num _ _ _ => true
    | _ => false)
  if !finite then (vs.map (fun _ => 0), 0xFF, vs.foldl (fun acc v => acc ||| v.sigFlag) 0)
  else
    match vs.filterMap FVal.log2 with
    | [] => (vs.map (fun _ => 0), 0, 0)
    | l0 :: rest =>
      let top := rest.foldl (fun a b => if a < b then b else a) l0
      let q0 := top - mxEmax dst
      let q := if q0 < -127 then -127 else if 127 < q0 then 127 else q0
      let r := vs.map (mxElem dst c q)
      (r.map Prod.fst, (q + 127).toNat, r.foldl (fun acc e => acc ||| e.2) 0)

/-- R44: the value of an MX element under a scale. -/
def mxVal (t : ETy) (scale bits : Nat) : FVal :=
  if scale = 0xFF then .nan false
  else
    match t with
    | .s8 => (FVal.ofInt (intOf .s8 bits)).scale (-6 + ((scale : Int) - 127))
    | _ => ((fmtOf t).decode bits).scale ((scale : Int) - 127)

/-! ## Special functions (R58)

Each function is computed in fixed point with `specBits` bits, far more than a correct rounding to 24 bits needs,
cut, with a sticky bit for the irrational rest; the exact cases are told apart first. -/

def specBits : Nat := 256

/-- ln 2 × 2^256, cut. -/
def ln2Fix : Nat := 80260960185991308862233904206310070533990667611589946606122867505419956976171
/-- π × 2^256, cut. -/
def piFix : Nat := 363771576891766324280234942777729862653393377328392429958772151117938894466185

/-- A fixed-point product. -/
def fixMul (a b : Nat) : Nat := a * b / 2 ^ specBits

/-- Σ x^k / k! for k up to `n` more terms, from the term `t` with number `k`. -/
def expSeries (x : Nat) : Nat → Nat → Nat → Nat
  | 0, _, _ => 0
  | n + 1, k, t => t + expSeries x n (k + 1) (fixMul t x / (k + 1))

/-- 2^f × 2^256 for f = x / 2^256 below 1. -/
def exp2Frac (x : Nat) : Nat := expSeries (fixMul x ln2Fix) 80 0 (2 ^ specBits)

/-- A value of fixed point with a sticky bit, times 2^k. -/
def stickyFix (neg : Bool) (v : Nat) (k : Int) : FVal := .num neg (2 * v + 1) (k - specBits - 1)

/-- A dyadic value m × 2^e as an integer part and a fraction of 256 bits, both cut. -/
def splitFix (m : Nat) (e : Int) : Nat × Nat :=
  let v := (roundAt 1 false m e (-(specBits : Int))).1
  (v / 2 ^ specBits, v % 2 ^ specBits)

/-- R58: 2^x. -/
def FVal.exp2 (v : FVal) : FVal × Nat :=
  match v with
  | .nan _ => (.nan false, v.sigFlag)
  | .inf neg => (if neg then .num false 0 0 else .inf false, 0)
  | .num neg m e =>
    if m = 0 then (.num false 1 0, 0)
    else if 13 < (topBit m : Int) + e then (.num false 1 (if neg then -8192 else 8192), 0)
    else
      let (n, f) := splitFix m e
      let exact := decide (0 ≤ e + specBits)
      if f = 0 && exact then (.num false 1 (if neg then -(n : Int) else n), 0)
      else if neg then (stickyFix false (exp2Frac (2 ^ specBits - f)) (-(n : Int) - 1), 0)
      else (stickyFix false (exp2Frac f) n, 0)

/-- Σ z^(2k+1) / (2k+1), for z in fixed point. -/
def atanhSeries (z2 : Nat) : Nat → Nat → Nat → Nat
  | 0, _, _ => 0
  | n + 1, k, t => t / (2 * k + 1) + atanhSeries z2 n (k + 1) (fixMul t z2)

/-- log2 of m / 2^topBit m, in fixed point, cut. -/
def log2Frac (m : Nat) : Nat :=
  let one := 2 ^ topBit m
  let z := (m - one) * 2 ^ specBits / (m + one)
  2 * atanhSeries (fixMul z z) 100 0 z * 2 ^ specBits / ln2Fix

/-- R58: log2 x. -/
def FVal.log2f (v : FVal) : FVal × Nat :=
  match v with
  | .nan _ => (.nan false, v.sigFlag)
  | .inf neg => if neg then (.nan false, flNV) else (.inf false, 0)
  | .num neg m e =>
    if m = 0 then (.inf true, flDZ)
    else if neg then (.nan false, flNV)
    else
      let k := (topBit m : Int) + e
      if m = 2 ^ topBit m then (FVal.ofInt k, 0)
      else
        let w := k * 2 ^ specBits + log2Frac m
        if 0 ≤ w then (stickyFix false w.toNat 0, 0) else (stickyFix true ((-w).toNat - 1) 0, 0)

/-- R58: 1/x. -/
def FVal.rcp (v : FVal) : FVal × Nat := FVal.div (.num false 1 0) v

/-- R58: 1/√x. -/
def FVal.rsqrt (v : FVal) : FVal × Nat :=
  match v with
  | .nan _ => (.nan false, v.sigFlag)
  | .inf neg => if neg then (.nan false, flNV) else (.num false 0 0, 0)
  | .num neg m e =>
    if m = 0 then (.inf neg, flDZ)
    else if neg then (.nan false, flNV)
    else
      let (m1, e1) := evenExp m e
      let sh := 2 * (specBits + topBit m1)
      let n := 2 ^ sh / m1
      let r := isqrt n
      (.num false (2 * r + (if r * r * m1 = 2 ^ sh then 0 else 1)) (-(e1 / 2) - (specBits + topBit m1) - 1), 0)

/-- Σ (−1)^k t2^k / (2k+1)!, in fixed point, as the sum of the terms of even k less those of odd k. -/
def sinSeries (t2 : Nat) : Nat → Nat → Nat → Int
  | 0, _, _ => 0
  | n + 1, k, t => (t : Int) - sinSeries t2 n (k + 1) (fixMul t t2 / ((2 * k + 2) * (2 * k + 3)))

/-- sin(π × u / 2^(f+1)) for 0 < u < 2^f: relative to π u, so that small arguments keep their precision. -/
def sinPiSmall (neg : Bool) (u f : Nat) : FVal :=
  let t := piFix * u / 2 ^ (f + 1)
  let s := (sinSeries (fixMul t t) 60 0 (2 ^ specBits)).toNat
  .num neg (2 * (u * fixMul piFix s) + 1) (-((f : Int) + 1) - specBits - 1)

/-- |x| as u / 2^(f+1), with f at least 1. -/
def halfUnits (m : Nat) (e : Int) : Nat × Nat :=
  let f := (-e).toNat
  (m * 2 ^ (e + f + 1).toNat * 2, f + 1)

/-- R58: sin(πx), from the units of half: the argument is reduced exactly. `c` adds a quarter turn. -/
def sinPi (neg0 : Bool) (m : Nat) (e : Int) (c : Bool) : FVal :=
  let (u0, f) := halfUnits m e
  -- u0 / 2^(f+1) = |x|; one turn is 2^(f+2) units, a quarter 2^f
  let neg := neg0 && !c
  let w := (if c then u0 + 2 ^ f else u0) % 2 ^ (f + 2)
  let quad := w / 2 ^ f
  let r := w % 2 ^ f
  let sign := neg != decide (2 ≤ quad)
  let v := if quad % 2 = 0 then r else 2 ^ f - r
  if v = 0 then .num (if c then false else neg0) 0 0
  else if v = 2 ^ f then .num sign 1 0
  else sinPiSmall sign v f

/-- R58: VSIN. -/
def FVal.sin (v : FVal) : FVal × Nat :=
  match v with
  | .nan _ => (.nan false, v.sigFlag)
  | .inf _ => (.nan false, flNV)
  | .num neg m e => if m = 0 then (.num neg 0 0, 0) else (sinPi neg m e false, 0)

/-- R58: VCOS. -/
def FVal.cos (v : FVal) : FVal × Nat :=
  match v with
  | .nan _ => (.nan false, v.sigFlag)
  | .inf _ => (.nan false, flNV)
  | .num _ m e => if m = 0 then (.num false 1 0, 0) else (sinPi false m e true, 0)

/-- 1 / ln 2 in fixed point, cut. -/
def log2eFix : Nat := 2 ^ (2 * specBits) / ln2Fix

/-- e^−y for y = m × 2^e, as a fixed-point value q and an exponent n: q × 2^(−n), q in (1/2, 1]. -/
def expNeg (m : Nat) (e : Int) : Nat × Nat :=
  let v := (roundAt 1 false (m * log2eFix) (e - specBits) (-(specBits : Int))).1
  let n := v / 2 ^ specBits
  let f := v % 2 ^ specBits
  (exp2Frac (2 ^ specBits - f) / 2, n)

/-- The fixed-point value q × 2^(−n). -/
def shiftFix (p : Nat × Nat) : Nat := p.1 / 2 ^ p.2

/-- Σ y^k/(k+1)! for the relative part of e^y − 1. -/
def expm1Series (y : Nat) : Nat → Nat → Nat → Nat
  | 0, _, _ => 0
  | n + 1, k, t => t + expm1Series y n (k + 1) (fixMul t y / (k + 2))

/-- R58: VTANH. -/
def FVal.tanh (v : FVal) : FVal × Nat :=
  match v with
  | .nan _ => (.nan false, v.sigFlag)
  | .inf neg => (.num neg 1 0, 0)
  | .num neg m e =>
    let top := (topBit m : Int) + e
    if m = 0 then (.num neg 0 0, 0)
    else if 7 < top then (stickyFix neg (2 ^ specBits - 1) 0, 0)
    else if top < 0 then
      -- y = 2|x| < 2: (e^y − 1) = y E, tanh = y E / (y E + 2) = |x| E / (|x| E + 1)
      let y := (roundAt 1 false m (e + 1) (-(specBits : Int))).1
      let ee := expm1Series y 100 0 (2 ^ specBits)
      let den := fixMul (y / 2) ee + 2 ^ specBits
      (.num neg (2 * (m * (ee * 2 ^ specBits / den)) + 1) (e - specBits - 1), 0)
    else
      let q := shiftFix (expNeg m (e + 1))
      (stickyFix neg ((2 ^ specBits - q) * 2 ^ specBits / (2 ^ specBits + q)) 0, 0)

/-- R58: VSIGM. -/
def FVal.sigm (v : FVal) : FVal × Nat :=
  match v with
  | .nan _ => (.nan false, v.sigFlag)
  | .inf neg => (if neg then .num false 0 0 else .num false 1 0, 0)
  | .num neg m e =>
    if m = 0 then (.num false 1 (-1), 0)
    else if 9 < (topBit m : Int) + e then
      (if neg then .num false 1 (-8192) else stickyFix false (2 ^ specBits - 1) 0, 0)
    else
      let p := expNeg m e
      let q := shiftFix p
      if neg then (stickyFix false (p.1 * 2 ^ specBits / (2 ^ specBits + q)) (-(p.2 : Int)), 0)
      else (stickyFix false (2 ^ (2 * specBits) / (2 ^ specBits + q)) 0, 0)

end Sys2Proof.Machine
end

