-- ==== Sys2Proof/Machine/Operands.lean ====
section
/-! DEFINITION. The operands of vector instructions: elements, masks, register groups, bound streams, and the
frame in which a vector instruction reads everything before it writes anything (R19, R85 to R87, R104 to R107). -/

namespace Sys2Proof.Machine

/-! ## Elements (R19, R85) -/

/-- The elements of `w` bits of a register, lowest first. -/
def elems (w : Nat) (v : VReg) : List Nat := (List.range (256 / w)).map (fun i => v.toNat / 2 ^ (w * i) % 2 ^ w)

/-- Elements of `w` bits as one number, lowest first. -/
def joinNat (w : Nat) : List Nat → Nat
  | [] => 0
  | e :: r => e % 2 ^ w + 2 ^ w * joinNat w r

/-- A register from its elements; bytes above them are zero. -/
def joinElems (w : Nat) (l : List Nat) : VReg := BitVec.ofNat 256 (joinNat w l)

/-- R85: which of `n` elements are active; the 64 elements of .e2 share bits in pairs. -/
def active (mv : Option (BitVec 32)) (n : Nat) : List Bool :=
  (List.range n).map (fun i => match mv with
    | none => true
    | some v => v.getLsbD (if n = 64 then i / 2 else i))

/-- The value of the mask operand. -/
def Ctx.maskVal (c : Ctx) (m : Mask) : Option (BitVec 32) := m.map (fun e => c.getM e.1)

/-- R85: the mask register that a mask operand reads. -/
def maskReads (m : Mask) : List RRef :=
  match m with
  | some e => [.m e.1]
  | none => []

/-- R85: masked-off elements keep the old value. -/
def Mask.merges (m : Mask) : Bool :=
  match m with
  | some e => !e.2
  | none => false

/-- R85: the elements of the result; masked-off ones are zero or old. -/
def mergeElems (m : Mask) (act : List Bool) (old new : List Nat) : List Nat :=
  (List.range new.length).map (fun i =>
    if act.getD i true then new.getD i 0 else if Mask.merges m then old.getD i 0 else 0)

/-! ## Streams (R104, R106, R107) -/

/-- R104: how many elements a stream holds. -/
def StreamB.total (b : StreamB) : Nat := b.count.foldl (fun a c => a * c) 1

/-- R104: the address of element `j`. -/
def StreamB.addr (b : StreamB) (j : Nat) : Word :=
  let c0 := b.count.getD 0 1
  let c1 := b.count.getD 1 1
  let l0 := j % c0
  let l1 := j / c0 % c1
  let l2 := j / (c0 * c1)
  b.base + BitVec.ofInt 64 ((l0 : Int) * b.stride.getD 0 0 + (l1 : Int) * b.stride.getD 1 0 +
    (l2 : Int) * b.stride.getD 2 0)

/-- R106: how many elements the next pop or append takes. -/
def StreamB.next (b : StreamB) : Nat := Nat.min (32 / 2 ^ b.esz) (b.total - b.pos)

/-- R106: the addresses of the next elements. -/
def StreamB.nextAddrs (b : StreamB) : List Word := (List.range b.next).map (fun m => b.addr (b.pos + m))

/-- The stream that a register is bound to. -/
def Ctx.stream (c : Ctx) (r : Reg) : Option StreamB := c.streams.lookup r.toNat

def Ctx.setStream (c : Ctx) (r : Reg) (b : StreamB) : Ctx :=
  { c with streams := c.streams.map (fun e => if e.1 = r.toNat then (e.1, b) else e) }

/-- R107: KTVAL of a stream fault. -/
def streamTval (reason : Nat) (r : Reg) : Word := BitVec.ofNat 64 (reason * 256 + r.toNat)

/-- R87: the head goes on unless a register of a group is bound. KTVAL names the lowest of several bound registers, those of
a source group before those of a destination group (DESIGN CHOICE, log entry 69). -/
def State.withGroup (s : State) (r : Reg) (g : Nat) (k : State → State) : State :=
  let regs := (List.range g).map (fun i => BitVec.ofNat 5 (r.toNat + i))
  match regs.find? (fun q => (s.c.stream q).isSome) with
  | some q => s.trap 0x0F (streamTval 5 q)
  | none => k s

/-! ## Lists of accesses -/

/-- The checks of R71, steps 1 to 3, for some addresses in order; the first failure traps. -/
def State.checkAll (s : State) (f : Form) (align len : Nat) : List Word → MRes (List (Word × Target))
  | [] => .ok [] s
  | va :: rest =>
    (s.resolve s.headWho f va align len).bind (fun t s1 =>
      match t with
      | .fail c => .stop (s1.trap c va)
      | _ => (s1.checkAll f align len rest).bind (fun l s2 => .ok ((va, t) :: l) s2))

/-- Reads at checked addresses, in order; a failure traps. -/
def State.loadAll (s : State) (len : Nat) : List (Word × Target) → MRes (List Nat)
  | [] => .ok [] s
  | e :: rest =>
    (s.loadTarget s.headWho e.2 len .memo 0 e.1).bind (fun g s1 =>
      match g with
      | .fail c => .stop (s1.trap c e.1)
      | .data v => (s1.loadAll len rest).bind (fun l s2 => .ok (v :: l) s2))

/-- R88, R89, R106: a store at one checked address is one access, of the bytes of one line. Which of its units of R237
another thread sees first stays out of the model (DEDUCED, log entry 74). -/
def storeOf (va : Word) (h : Home) (gpa type : Nat) (bs : List Byte) : RestStore := ⟨va, gpa, type, some h, bs⟩

/-- Writes at checked addresses: those of the local window are made at once, and the others are left to the operation in
flight, in order (R86). A refused destination is recorded in its turn (R72). -/
def State.storeAll (s : State) : List ((Word × Target) × List Byte) → State
  | [] => s
  | ((va, t), bs) :: rest =>
    (match t with
      | .window cl off => s.lmemWrite cl off bs
      | .line h gpa type => s.updC (fun c => { c with rest := c.rest ++ [storeOf va h gpa type bs] })
      | _ => s.updC (fun c => { c with rest := c.rest ++ [(⟨va, 0, 0, none, []⟩ : RestStore)] })).storeAll rest

/-! ## Reading vector registers (R86, R106) -/

/-- What reading the vector operands has given: values and new positions. -/
structure VRead where
  vals : List (Reg × VReg) := []
  pos : List (Reg × Nat) := []

def VRead.get (r : VRead) (q : Reg) : VReg := (r.vals.lookup q).getD 0

/-- R106, R225: one register read: its value, or one pop of the read stream it is bound to. Elements on a device page are refused at
step 3, as other vector accesses are (DESIGN CHOICE, log entry 69). -/
def State.readV (s : State) (r : Reg) : MRes (VReg × Option Nat) :=
  match s.c.stream r with
  | none => .ok (s.c.getV r, none) s
  | some b =>
    if b.write then .stop (s.trap 0x0F (streamTval 2 r))
    else if b.next = 0 then .stop (s.trap 0x0F (streamTval 1 r))
    else
      let e := 2 ^ b.esz
      (s.checkAll { kind := .load, device := false } e e b.nextAddrs).bind (fun ts s1 =>
        (s1.loadAll e ts).bind (fun vs s2 => .ok (joinElems (8 * e) vs, some (b.pos + b.next)) s2))

/-- The registers read, in ascending order and once each. -/
def State.readVs (s : State) : List Reg → MRes VRead
  | [] => .ok {} s
  | r :: rest =>
    (s.readV r).bind (fun v s1 =>
      (s1.readVs rest).bind (fun acc s2 =>
        .ok { vals := (r, v.1) :: acc.vals,
              pos := (match v.2 with
                | some p => (r, p) :: acc.pos
                | none => acc.pos) } s2))

/-- Register numbers in ascending order and once each. -/
def sortRegs (l : List Reg) : List Reg := (List.range 32).filterMap (fun n =>
  if l.any (fun r => r.toNat = n) then some (BitVec.ofNat 5 n) else none)

/-! ## Writing vector registers (R86, R106) -/

/-- What a vector instruction changes. -/
structure VRes where
  writes : List (Reg × VReg) := []
  flags : Nat := 0
  upd : Ctx → Ctx := id
  /-- what it changes outside the context -/
  glob : State → State := id

/-- What the appends of a list of writes will do: stores, and new positions. -/
structure VAppend where
  stores : List ((Word × Target) × List Byte) := []
  pos : List (Reg × Nat) := []

/-- R106, R225: the checks of the appends, made for every element before any store. Elements on a device page are refused at
step 3 (DESIGN CHOICE, log entry 69). -/
def State.checkWrites (s : State) : List (Reg × VReg) → MRes VAppend
  | [] => .ok {} s
  | (r, v) :: rest =>
    match s.c.stream r with
    | none => s.checkWrites rest
    | some b =>
      if !b.write then .stop (s.trap 0x0F (streamTval 2 r))
      else if b.next = 0 then .stop (s.trap 0x0F (streamTval 1 r))
      else
        let e := 2 ^ b.esz
        (s.checkAll { kind := .store, device := false } e e b.nextAddrs).bind (fun ts s1 =>
          let bytes := leBytes 32 v.toNat
          let st := ts.zipIdx.map (fun t => (t.1, (bytes.drop (e * t.2)).take e))
          (s1.checkWrites rest).bind (fun acc s2 =>
            .ok { stores := st ++ acc.stores, pos := (r, b.pos + b.next) :: acc.pos } s2))

/-- The context after the writes: registers, positions, and the flags of the operation in flight (R48, R86). -/
def Ctx.vecDone (c : Ctx) (pos : List (Reg × Nat)) (r : VRes) : Ctx :=
  let c1 := pos.foldl (fun (x : Ctx) p => match x.stream p.1 with
    | some b => x.setStream p.1 { b with pos := p.2 }
    | none => x) c
  let c2 := r.writes.foldl (fun (x : Ctx) w => if (x.stream w.1).isSome then x else x.setV w.1 w.2) c1
  { (r.upd c2).opDone with inflight := some r.flags }

/-- R86: the level of the heads that a vector operation with stores in flight precedes. -/
def State.markLevel (s : State) : State := s.updC (fun c => if c.rest.isEmpty then c else { c with lvl := s.level })

/-- Nominal cycles of a vector operation (R111); they carry no meaning (DESIGN CHOICE, log entry 75). -/
def vecCycles : Nat := 2

/-- The vector instruction completes: appends are stored, and everything else is written. -/
def State.vecFinish (s : State) (pops : List (Reg × Nat)) (r : VRes) : State :=
  (s.checkWrites r.writes).fin (fun a s1 =>
    let s2 := (s1.storeAll a.stores).markLevel
    ((r.glob (s2.updC (fun c => c.vecDone (pops ++ a.pos) r))).after vecCycles .vectorOpComplete
      { x := s2.cur.core, y := s2.cur.ctx, z := s2.c.uid }).advance)

/-! ## The frame of a vector instruction -/

/-- What a vector instruction reads and writes: scalar and mask registers read (`xs`) and written (`xd`), vector
registers read (`vs`) and written (`vd`), and whether it reads the old value of those it writes (`old`). -/
structure VPlan where
  xs : List RRef := []
  xd : List RRef := []
  vs : List Reg := []
  vd : List Reg := []
  old : Bool := false

/-- R18, R187: the group of a vector register. -/
def groupOf (r : Reg) : Nat := r.toNat / 8

/-- R86: a vector instruction: parity and pending results (R344, R318), accesses that an interrupt has left under way, banks
(R187), pops, and then what `k` makes of the operands, which may be a trap or a wait. -/
def State.vecM (s : State) (p : VPlan) (k : State → (Reg → VReg) → MRes VRes) : State :=
  let plain := fun (r : Reg) => (s.c.stream r).isNone
  let olds := if p.old then p.vd.filter plain else []
  s.withRegs (p.xs ++ (p.vs.filter plain).map .v ++ olds.map .v) (p.xd ++ (p.vd.filter plain).map .v) (fun t0 => t0.afterOwn (fun t =>
    t.withBanks ((p.vd.filter plain).map groupOf) (((p.vs.filter plain) ++ olds).map groupOf) (fun u =>
      (u.readVs (sortRegs p.vs)).fin (fun r u1 => (k u1 r.get).fin (fun q u2 => u2.vecFinish r.pos q)))))

/-- R86: a vector instruction that makes no access of its own. -/
def State.vec (s : State) (p : VPlan) (k : State → (Reg → VReg) → VRes) : State :=
  s.vecM p (fun t g => .ok (k t g) t)

/-- R106: the old value of a destination; that of a bound register reads as zero. -/
def State.oldV (s : State) (d : Reg) : VReg := if (s.c.stream d).isSome then 0 else s.c.getV d

/-- An elementwise instruction: destination `d` with elements of `w` bits made of the operands `vs`; `f` gives
element `i` and its flags. Masked-off elements raise no flag (R85). -/
def State.elementwise (s : State) (d : Reg) (vs : List Reg) (m : Mask) (n w : Nat)
    (f : State → (Reg → VReg) → Nat → Nat × Nat) : State :=
  s.vec { xs := maskReads m, vs := vs, vd := [d], old := Mask.merges m } (fun t g =>
    let act := active (t.c.maskVal m) n
    let r := (List.range n).map (fun i => if act.getD i true then f t g i else (0, 0))
    { writes := [(d, joinElems w (mergeElems m act (elems w (t.oldV d)) (r.map Prod.fst)))],
      flags := r.foldl (fun acc e => acc ||| e.2) 0 })

/-- Element `i` of `w` bits of a register. -/
def elem (w : Nat) (v : VReg) (i : Nat) : Nat := v.toNat / 2 ^ (w * i) % 2 ^ w

/-! ## Completion (R86, R333) -/

/-- The operation in flight of a context as the maker of accesses. -/
def restWho (core id : Nat) (c : Ctx) : Who :=
  { owner := ⟨core, 7, id⟩, core := core, asid := c.asid, level := c.lvl, root := none,
    resume := some (.vectorOpComplete, { x := core, y := id, z := c.uid }) }

/-- A store of the operation in flight is over; its failure is recorded (R72). -/
def State.restDone (s : State) (core id : Nat) (r : RestStore) (fail : Option Nat) : State :=
  { (s.updCtx core id (fun c =>
      let c1 := { c with rest := c.rest.drop 1 }.late
      match fail with
      | some cause => c1.recordStore r.va cause
      | none => c1)).dropMemo (restWho core id {}).owner with accs := 0 }

/-- R86, R333: the remaining stores of the operation in flight are performed in order, and then its flags are ORed into
FPSTAT. While the context has no slot, no further store begins. -/
def State.restRun (core id : Nat) : Nat → State → State
  | 0, s => s
  | n + 1, s =>
    let c := s.ctx core id
    let w := restWho core id c
    if !s.holds core id && (s.memo w.owner).isEmpty then s
    else
      match c.rest with
      | [] => s.updCtx core id Ctx.opDone
      | r :: _ =>
        match r.home with
        | none => State.restRun core id n (s.restDone core id r (some 0x09))
        | some h =>
          (s.writeLine w h r.gpa r.bytes r.type .memo r.va).fin (fun g s1 =>
            State.restRun core id n (s1.restDone core id r (match g with
              | .fail cause => some cause
              | _ => none)))

/-- R85, R86: VECTOR_OP_COMPLETE of context `y` of core `x`, `z` its serial number: what its operation in flight has left is
performed. An operation whose context has left its slot completes when the context resumes (R333); one whose block has bad
parity does not complete (R344). -/
def execVectorOpComplete (s : State) : Out :=
  let c := s.ctx s.arg.x s.arg.y
  if c.uid != s.arg.z || (c.pob && c.bad.contains (4, 0)) then .next s
  else .next (State.restRun s.arg.x s.arg.y 64 s)

end Sys2Proof.Machine
end

