-- ==== Sys2Proof/Machine/VectorArith.lean ====
section
/-! DEFINITION. Vector integer arithmetic (R90), floating arithmetic and compares (R91, R92). -/

namespace Sys2Proof.Machine

/-! ## Integer arithmetic (R90) -/

/-- An integer instruction of two operands on elements of type `t`; `f` gives the exact result, which wraps. -/
def vecInt (s : State) (d a b : Reg) (t : ETy) (m : Mask) (f : Int → Int → Int) : Out :=
  .next (s.elementwise d [a, b] m (256 / t.width) t.width (fun _ g i =>
    (wrapInt t (f (intOf t (elem t.width (g a) i)) (intOf t (elem t.width (g b) i))), 0)))

/-- An integer instruction of two operands on the bits of elements. -/
def vecBits (s : State) (d a b : Reg) (t : ETy) (m : Mask) (f : Nat → Nat → Nat) : Out :=
  .next (s.elementwise d [a, b] m (256 / t.width) t.width (fun _ g i =>
    (f (elem t.width (g a) i) (elem t.width (g b) i) % 2 ^ t.width, 0)))

/-- An integer instruction of one operand. -/
def vecInt1 (s : State) (d a : Reg) (t : ETy) (m : Mask) (f : Int → Int) : Out :=
  .next (s.elementwise d [a] m (256 / t.width) t.width (fun _ g i =>
    (wrapInt t (f (intOf t (elem t.width (g a) i))), 0)))

/-- R90: sat. -/
def clampInt (t : ETy) (v : Int) : Int := if v < intMin t then intMin t else if intMax t < v then intMax t else v

/-- R90: the arithmetic right shift of an element, for either signedness. -/
def sraBits (w x k : Nat) : Nat :=
  let sh := if w ≤ k then w else k
  if x < 2 ^ (w - 1) then x / 2 ^ sh else (2 ^ w - 1) - (2 ^ w - 1 - x) / 2 ^ sh

/-- R90: VADD. -/
def execVadd (d a b : Reg) (t : ETy) (m : Mask) (s : State) : Out := vecInt s d a b t m (fun x y => x + y)

/-- R90: VSUB. -/
def execVsub (d a b : Reg) (t : ETy) (m : Mask) (s : State) : Out := vecInt s d a b t m (fun x y => x - y)

/-- R90: VMUL. -/
def execVmul (d a b : Reg) (t : ETy) (m : Mask) (s : State) : Out := vecInt s d a b t m (fun x y => x * y)

/-- R90: VMULH. -/
def execVmulh (d a b : Reg) (t : ETy) (m : Mask) (s : State) : Out := vecInt s d a b t m (fun x y => x * y / 2 ^ t.width)

/-- R90: VMIN. -/
def execVmin (d a b : Reg) (t : ETy) (m : Mask) (s : State) : Out := vecInt s d a b t m (fun x y => if x ≤ y then x else y)

/-- R90: VMAX. -/
def execVmax (d a b : Reg) (t : ETy) (m : Mask) (s : State) : Out := vecInt s d a b t m (fun x y => if x ≤ y then y else x)

/-- R90: VAND. -/
def execVand (d a b : Reg) (t : ETy) (m : Mask) (s : State) : Out := vecBits s d a b t m (fun x y => x &&& y)

/-- R90: VOR. -/
def execVor (d a b : Reg) (t : ETy) (m : Mask) (s : State) : Out := vecBits s d a b t m (fun x y => x ||| y)

/-- R90: VXOR. -/
def execVxor (d a b : Reg) (t : ETy) (m : Mask) (s : State) : Out := vecBits s d a b t m (fun x y => x ^^^ y)

/-- R90: VANDN. -/
def execVandn (d a b : Reg) (t : ETy) (m : Mask) (s : State) : Out := vecBits s d a b t m (fun x y => x &&& (2 ^ t.width - 1 - y))

/-- R90: VSLL. -/
def execVsll (d a b : Reg) (t : ETy) (m : Mask) (s : State) : Out := vecBits s d a b t m (fun x k => if t.width ≤ k then 0 else x * 2 ^ k)

/-- R90: VSRL. -/
def execVsrl (d a b : Reg) (t : ETy) (m : Mask) (s : State) : Out := vecBits s d a b t m (fun x k => if t.width ≤ k then 0 else x / 2 ^ k)

/-- R90: VSRA. -/
def execVsra (d a b : Reg) (t : ETy) (m : Mask) (s : State) : Out := vecBits s d a b t m (fun x k => sraBits t.width x k)

/-- R90: VABS. -/
def execVabs (d a : Reg) (t : ETy) (m : Mask) (s : State) : Out := vecInt1 s d a t m (fun x => if x < 0 then -x else x)

/-- R90: VNEG. -/
def execVneg (d a : Reg) (t : ETy) (m : Mask) (s : State) : Out := vecInt1 s d a t m (fun x => -x)

/-- R90: VADDS. -/
def execVadds (d a b : Reg) (t : ETy) (m : Mask) (s : State) : Out := vecInt s d a b t m (fun x y => clampInt t (x + y))

/-- R90: VSUBS. -/
def execVsubs (d a b : Reg) (t : ETy) (m : Mask) (s : State) : Out := vecInt s d a b t m (fun x y => clampInt t (x - y))

/-- R90: VAVG. -/
def execVavg (d a b : Reg) (t : ETy) (m : Mask) (s : State) : Out := vecInt s d a b t m (fun x y => (x + y + 1) / 2)

/-- R90: VMAC, which reads V[d]. -/
def execVmac (d a b : Reg) (t : ETy) (m : Mask) (s : State) : Out :=
  .next (s.elementwise d [a, b, d] m (256 / t.width) t.width (fun _ g i =>
    (wrapInt t (intOf t (elem t.width (g d) i) +
      intOf t (elem t.width (g a) i) * intOf t (elem t.width (g b) i)), 0)))

/-! ## Floating arithmetic (R91) -/

/-- FPCTL of the context being executed. -/
def State.fp (s : State) : FpCtl := fpCtl s.c.fpctl

/-- The result of an exact operation, rounded once, with the flags of both. -/
def rounded (f : Fmt) (c : FpCtl) (r : FVal × Nat) : Nat × Nat :=
  let o := f.round c false r.1
  (o.1, o.2 ||| r.2)

/-- A floating instruction of two operands. -/
def vecF2 (s : State) (d a b : Reg) (t : ETy) (m : Mask) (f : FpCtl → FVal → FVal → FVal × Nat) : Out :=
  .next (s.elementwise d [a, b] m (256 / t.width) t.width (fun u g i =>
    let c := u.fp
    rounded (fmtOf t) c (f c ((fmtOf t).read c.ftz (elem t.width (g a) i)) ((fmtOf t).read c.ftz (elem t.width (g b) i)))))

/-- R53: x × y + z, rounded once, with `np` and `nz` negating the product and the addend. -/
def fusedAdd (c : FpCtl) (np nz : Bool) (x y z : FVal) : FVal × Nat :=
  let p := x.mul y
  let q := (if np then p.1.negate else p.1).add c.rm (if nz then z.negate else z)
  (q.1, p.2 ||| q.2)

/-- A fused floating instruction. -/
def vecF3 (s : State) (d a b e : Reg) (t : ETy) (m : Mask) (np nz : Bool) : Out :=
  .next (s.elementwise d [a, b, e] m (256 / t.width) t.width (fun u g i =>
    let c := u.fp
    let x := fun (r : Reg) => (fmtOf t).read c.ftz (elem t.width (g r) i)
    rounded (fmtOf t) c (fusedAdd c np nz (x a) (x b) (x e))))

/-- R91: VFABS and VFNEG: only the sign bit changes; a NaN gives the canonical NaN. -/
def signOp (f : Fmt) (op : Nat → Nat) (x : Nat) : Nat × Nat :=
  let v := f.decode x
  if v.isNan then (f.nanCode, v.sigFlag) else (op x, 0)


/-- R91: VFADD. -/
def execVfadd (d a b : Reg) (t : ETy) (m : Mask) (s : State) : Out := vecF2 s d a b t m (fun c x y => x.add c.rm y)

/-- R91: VFSUB. -/
def execVfsub (d a b : Reg) (t : ETy) (m : Mask) (s : State) : Out := vecF2 s d a b t m (fun c x y => x.add c.rm y.negate)

/-- R91: VFMUL. -/
def execVfmul (d a b : Reg) (t : ETy) (m : Mask) (s : State) : Out := vecF2 s d a b t m (fun _ x y => x.mul y)

/-- R91: VFDIV. -/
def execVfdiv (d a b : Reg) (t : ETy) (m : Mask) (s : State) : Out := vecF2 s d a b t m (fun _ x y => x.div y)

/-- R91: VFMA. -/
def execVfma (d a b c : Reg) (t : ETy) (m : Mask) (s : State) : Out := vecF3 s d a b c t m false false

/-- R91: VFMS. -/
def execVfms (d a b c : Reg) (t : ETy) (m : Mask) (s : State) : Out := vecF3 s d a b c t m false true

/-- R91: VFNMA. -/
def execVfnma (d a b c : Reg) (t : ETy) (m : Mask) (s : State) : Out := vecF3 s d a b c t m true false

/-- R91: VFMIN. -/
def execVfmin (d a b : Reg) (t : ETy) (m : Mask) (s : State) : Out := vecF2 s d a b t m (fun _ x y => x.minmax false y)

/-- R91: VFMAX. -/
def execVfmax (d a b : Reg) (t : ETy) (m : Mask) (s : State) : Out := vecF2 s d a b t m (fun _ x y => x.minmax true y)

/-- R91: VFABS. -/
def execVfabs (d a : Reg) (t : ETy) (m : Mask) (s : State) : Out :=
  .next (s.elementwise d [a] m (256 / t.width) t.width (fun _ g i =>
    signOp (fmtOf t) (fun x => x % (fmtOf t).sign) (elem t.width (g a) i)))

/-- R91: VFNEG. -/
def execVfneg (d a : Reg) (t : ETy) (m : Mask) (s : State) : Out :=
  .next (s.elementwise d [a] m (256 / t.width) t.width (fun _ g i =>
    signOp (fmtOf t) (fun x => x ^^^ (fmtOf t).sign) (elem t.width (g a) i)))

/-- R91: VFSQRT. -/
def execVfsqrt (d a : Reg) (t : ETy) (m : Mask) (s : State) : Out :=
  .next (s.elementwise d [a] m (256 / t.width) t.width (fun u g i =>
    rounded (fmtOf t) u.fp ((fmtOf t).read u.fp.ftz (elem t.width (g a) i)).sqrt))

/-! ## Compares (R92) -/

/-- R92: a comparison of two values: `f` decides from their order, `nan` is the result with a NaN, and `loud` sets
NV for any NaN. -/
def cmpVals (nan loud : Bool) (f : Int → Bool) (x y : FVal) : Bool × Nat :=
  if x.isNan || y.isNan then (nan, if loud then flNV else x.sigFlag ||| y.sigFlag)
  else (f (x.order y), 0)

/-- R92: one bit per element into mask register `d`; bits above the elements are zero. -/
def vecCmp (s : State) (d : BitVec 3) (a b : Reg) (t : ETy) (m : Mask) (nan loud : Bool) (f : Int → Bool) : Out :=
  .next (s.vec { xs := maskReads m ++ (if Mask.merges m then [.m d] else []), xd := [.m d], vs := [a, b] } (fun u g =>
    let n := 256 / t.width
    let act := active (u.c.maskVal m) n
    let ftz := u.fp.ftz
    let r := (List.range n).map (fun i =>
      if act.getD i true then
        cmpVals nan loud f (elemVal t ftz (elem t.width (g a) i)) (elemVal t ftz (elem t.width (g b) i))
      else (Mask.merges m && (u.getM d).getLsbD i, 0))
    { flags := r.foldl (fun acc e => acc ||| e.2) 0,
      upd := fun c => c.setM d (BitVec.ofNat 32 (joinNat 1 (r.map (fun e => if e.1 then 1 else 0)))) }))

/-- R92: VCMP_EQ. -/
def execVcmpEq (d : BitVec 3) (a b : Reg) (t : ETy) (m : Mask) (s : State) : Out :=
  vecCmp s d a b t m false false (fun o => o = 0)

/-- R92: VCMP_NE. -/
def execVcmpNe (d : BitVec 3) (a b : Reg) (t : ETy) (m : Mask) (s : State) : Out :=
  vecCmp s d a b t m true false (fun o => o != 0)

/-- R92: VCMP_LT. -/
def execVcmpLt (d : BitVec 3) (a b : Reg) (t : ETy) (m : Mask) (s : State) : Out :=
  vecCmp s d a b t m false true (fun o => decide (o < 0))

/-- R92: VCMP_LE. -/
def execVcmpLe (d : BitVec 3) (a b : Reg) (t : ETy) (m : Mask) (s : State) : Out :=
  vecCmp s d a b t m false true (fun o => decide (o ≤ 0))

/-- R92: VCMP_GT. -/
def execVcmpGt (d : BitVec 3) (a b : Reg) (t : ETy) (m : Mask) (s : State) : Out :=
  vecCmp s d a b t m false true (fun o => decide (0 < o))

/-- R92: VCMP_GE. -/
def execVcmpGe (d : BitVec 3) (a b : Reg) (t : ETy) (m : Mask) (s : State) : Out :=
  vecCmp s d a b t m false true (fun o => decide (0 ≤ o))

/-- R92: VCMP_UNORD. -/
def execVcmpUnord (d : BitVec 3) (a b : Reg) (t : ETy) (m : Mask) (s : State) : Out :=
  vecCmp s d a b t m true false (fun _ => false)

end Sys2Proof.Machine
end

