-- ==== Sys2Proof/Machine/VectorConvert.lean ====
section
/-! DEFINITION. Vector conversions (R93 to R96), dot products and reductions (R97, R98, R57), special functions
(R58, R100). -/

namespace Sys2Proof.Machine

/-! ## Conversions -/

/-- R93: VCVT and VCVT.sat: the low elements, in the destination's width. -/
def vecCvt (s : State) (d a : Reg) (src dst : ETy) (m : Mask) (sat : Bool) : Out :=
  .next (s.elementwise d [a] m (256 / Nat.max src.width dst.width) dst.width (fun u g i =>
    convElem src dst u.fp sat (elem src.width (g a) i)))

/-- R93: VCVT. -/
def execVcvt (d a : Reg) (src dst : ETy) (m : Mask) (s : State) : Out := vecCvt s d a src dst m false

/-- R93: VCVT.sat. -/
def execVcvtSat (d a : Reg) (src dst : ETy) (m : Mask) (s : State) : Out := vecCvt s d a src dst m true

/-- R94: VCVTSR and VCVTSR.sat. -/
def vecCvtSr (s : State) (d a b : Reg) (src dst : ETy) (m : Mask) (sat : Bool) : Out :=
  .next (s.elementwise d [a, b] m (256 / Nat.max src.width dst.width) dst.width (fun u g i =>
    (fmtOf dst).roundStoch sat (elem 16 (g b) i) (elemVal src u.fp.ftz (elem src.width (g a) i))))

/-- R94: VCVTSR. -/
def execVcvtsr (d a b : Reg) (src dst : ETy) (m : Mask) (s : State) : Out := vecCvtSr s d a b src dst m false

/-- R94: VCVTSR.sat. -/
def execVcvtsrSat (d a b : Reg) (src dst : ETy) (m : Mask) (s : State) : Out := vecCvtSr s d a b src dst m true

/-- The registers of a group (R87). -/
def groupRegs (r : Reg) (g : Nat) : List Reg := (List.range g).map (fun i => BitVec.ofNat 5 (r.toNat + i))

/-- R95, R96: how many registers hold 32 elements of a type. -/
def mxRegs (t : ETy) : Nat := t.width / 8

/-- R95: VMXPACK. -/
def execVmxpack (d a : Reg) (src dst : ETy) (s : State) : Out :=
  let g := mxRegs src
  let e := BitVec.ofNat 5 (d.toNat + 1)
  .next (s.withGroup a g (fun s1 => s1.withGroup d 2 (fun s2 =>
    s2.vec { vs := e :: groupRegs a g, vd := [d, e] } (fun u v =>
      let bits := (groupRegs a g).flatMap (fun r => elems src.width (v r))
      let r := mxPack dst u.fp (bits.map (elemVal src u.fp.ftz))
      { writes := [(d, joinElems dst.width r.1),
                   (e, BitVec.ofNat 256 ((v e).toNat / 256 * 256 + r.2.1))],
        flags := r.2.2 }))))

/-- R96: VMXUNPK. A NaN scale or element sets no flag. -/
def execVmxunpk (d a : Reg) (src dst : ETy) (s : State) : Out :=
  let g := mxRegs dst
  let e := BitVec.ofNat 5 (a.toNat + 1)
  .next (s.withGroup a 2 (fun s1 => s1.withGroup d g (fun s2 =>
    s2.vec { vs := [a, e], vd := groupRegs d g } (fun u v =>
      let scale := (v e).toNat % 256
      let r := ((elems src.width (v a)).take 32).map (fun x => (fmtOf dst).round u.fp false (mxVal src scale x))
      let n := 256 / dst.width
      { writes := (groupRegs d g).zipIdx.map (fun q =>
          (q.1, joinElems dst.width (((r.map Prod.fst).drop (n * q.2)).take n))),
        flags := r.foldl (fun acc x => acc ||| x.2) 0 }))))

/-! ## Dot products (R97) -/

/-- R97: a dot product into eight lanes of 32 bits; `f` makes a lane of the old lane and its elements. -/
def vecDot (s : State) (d a b : Reg) (t : ETy) (m : Mask) (f : State → Nat → List (Nat × Nat) → Nat × Nat) : Out :=
  let p := 32 / t.width
  .next (s.elementwise d [a, b, d] m 8 32 (fun u g i =>
    f u (elem 32 (g d) i) ((List.range p).map (fun k => (elem t.width (g a) (p * i + k), elem t.width (g b) (p * i + k))))))

/-- R97: the exact sum of some values, NaN rules applied; the flags of R53. -/
def sumExact (rm : Nat) (l : List (FVal × Nat)) : FVal × Nat :=
  let fl := l.foldl (fun acc e => acc ||| e.2) 0
  let isInf := fun (n : Bool) => l.any (fun e => e.1 = FVal.inf n)
  if l.any (fun e => e.1.isNan) then (.nan false, l.foldl (fun acc e => acc ||| e.1.sigFlag) fl)
  else if isInf true && isInf false then (.nan false, fl ||| flNV)
  else if isInf true then (.inf true, fl)
  else if isInf false then (.inf false, fl)
  else
    match l.map Prod.fst with
    | [] => (.num false 0 0, fl)
    | v :: rest =>
      let sum := rest.foldl (fun acc x => (acc.add 0 x).1) v
      let same := (v :: rest).all (fun x => x.isNeg = v.isNeg)
      match sum with
      | .num _ 0 e => (.num (if same then v.isNeg else rm = 2) 0 e, fl)
      | _ => (sum, fl)

/-- R97: a floating lane: FTZ concerns the accumulator only. -/
def dotLane (t : ETy) (u : State) (old : Nat) (l : List (Nat × Nat)) : Nat × Nat :=
  let c := u.fp
  let prods := l.map (fun e => ((fmtOf t).decode e.1).mul ((fmtOf t).decode e.2))
  rounded fmtF c (sumExact c.rm ((fmtF.read c.ftz old, 0) :: prods))

/-- R97: VDOT. -/
def execVdot (d a b : Reg) (t : ETy) (m : Mask) (s : State) : Out :=
  vecDot s d a b t m (fun (_ : State) (old : Nat) (l : List (Nat × Nat)) =>
    let sum : Int := (l.map (fun (e : Nat × Nat) => intOf t e.1 * intOf t e.2)).sum
    ((((old : Int) + sum) % 2 ^ 32).toNat, 0))

/-- R97: VDOTF. -/
def execVdotf (d a b : Reg) (t : ETy) (m : Mask) (s : State) : Out := vecDot s d a b t m (dotLane t)

/-- R97: VDOTF8. -/
def execVdotf8 (d a b : Reg) (t : ETy) (m : Mask) (s : State) : Out := vecDot s d a b t m (dotLane t)

/-! ## Reductions (R57, R98) -/

/-- R57: one level of the tree. -/
def pairUp (op : Nat → Nat → Nat × Nat) : List Nat → List Nat × Nat
  | a :: b :: rest =>
    let x := op a b
    let r := pairUp op rest
    (x.1 :: r.1, x.2 ||| r.2)
  | l => (l, 0)

/-- R57: the tree, over at most 2^k elements. -/
def treeOf (op : Nat → Nat → Nat × Nat) : Nat → List Nat → Nat × Nat
  | 0, l => (l.headD 0, 0)
  | k + 1, l =>
    let x := pairUp op l
    let r := treeOf op k x.1
    (r.1, x.2 ||| r.2)

/-- R98: a reduction writes element 0 and clears the rest. -/
def vecReduce (s : State) (d a : Reg) (t : ETy) (mk : Option (BitVec 3)) (ident : Nat)
    (f : State → List Nat → Nat × Nat) (enter : State → Nat → Nat × Nat) : Out :=
  let xs : List RRef := match mk with
    | some r => [.m r]
    | none => []
  .next (s.vec { xs := xs, vs := [a], vd := [d] } (fun u g =>
    let act := active (mk.map u.getM) (256 / t.width)
    let l := (elems t.width (g a)).zipIdx.map (fun e => if act.getD e.2 true then enter u e.1 else (ident, 0))
    let r := f u (l.map Prod.fst)
    { writes := [(d, BitVec.ofNat 256 r.1)], flags := l.foldl (fun acc e => acc ||| e.2) r.2 }))

/-- R57: an integer reduction. -/
def intReduce (s : State) (d a : Reg) (t : ETy) (mk : Option (BitVec 3)) (ident : Int) (op : Int → Int → Int) : Out :=
  vecReduce s d a t mk (wrapInt t ident)
    (fun _ l => treeOf (fun x y => (wrapInt t (op (intOf t x) (intOf t y)), 0)) 5 l) (fun _ x => (x, 0))

/-- R57: the format of the nodes: FP16 and BF16 elements compute in FP32. -/
def nodeFmt (t : ETy) : Fmt :=
  match t with
  | .d => fmtD
  | _ => fmtF

/-- R57: a floating reduction. -/
def floatReduce (s : State) (d a : Reg) (t : ETy) (mk : Option (BitVec 3)) (ident : Nat)
    (op : FpCtl → FVal → FVal → FVal × Nat) : Out :=
  let nf := nodeFmt t
  let narrow := t = .h || t = .bf
  vecReduce s d a t mk ident
    (fun u l =>
      let c := u.fp
      let r := treeOf (fun x y => rounded nf c (op c (nf.read c.ftz x) (nf.read c.ftz y))) 5 l
      if narrow then
        let o := (fmtOf t).round c false (nf.read c.ftz r.1)
        (o.1, o.2 ||| r.2)
      else r)
    (fun _ x => if narrow then nf.round fpNearest false ((fmtOf t).decode x) else (x, 0))

/-- R98: VRSUM. -/
def execVrsum (d a : Reg) (t : ETy) (m : Option (BitVec 3)) (s : State) : Out :=
  intReduce s d a t m 0 (fun x y => x + y)

/-- R98: VRMIN. -/
def execVrmin (d a : Reg) (t : ETy) (m : Option (BitVec 3)) (s : State) : Out :=
  intReduce s d a t m (intMax t) (fun x y => if x ≤ y then x else y)

/-- R98: VRMAX. -/
def execVrmax (d a : Reg) (t : ETy) (m : Option (BitVec 3)) (s : State) : Out :=
  intReduce s d a t m (intMin t) (fun x y => if x ≤ y then y else x)

/-- R98: VRFSUM. -/
def execVrfsum (d a : Reg) (t : ETy) (m : Option (BitVec 3)) (s : State) : Out :=
  floatReduce s d a t m (nodeFmt t).sign (fun c x y => x.add c.rm y)

/-- R98: VRFMIN. -/
def execVrfmin (d a : Reg) (t : ETy) (m : Option (BitVec 3)) (s : State) : Out :=
  floatReduce s d a t m (nodeFmt t).infCode (fun _ x y => x.minmax false y)

/-- R98: VRFMAX. -/
def execVrfmax (d a : Reg) (t : ETy) (m : Option (BitVec 3)) (s : State) : Out :=
  floatReduce s d a t m ((nodeFmt t).infCode + (nodeFmt t).sign) (fun _ x y => x.minmax true y)

/-! ## Special functions (R58, R100) -/

/-- R58: a special function of each element, rounded to nearest even. -/
def vecSpecial (s : State) (d a : Reg) (t : ETy) (m : Mask) (f : FVal → FVal × Nat) : Out :=
  .next (s.elementwise d [a] m (256 / t.width) t.width (fun u g i =>
    rounded (fmtOf t) { rm := 0, ftz := u.fp.ftz } (f ((fmtOf t).read u.fp.ftz (elem t.width (g a) i)))))

/-- R58, R100: VEXP2. -/
def execVexp2 (d a : Reg) (t : ETy) (m : Mask) (s : State) : Out := vecSpecial s d a t m FVal.exp2

/-- R58, R100: VLOG2. -/
def execVlog2 (d a : Reg) (t : ETy) (m : Mask) (s : State) : Out := vecSpecial s d a t m FVal.log2f

/-- R58, R100: VRCP. -/
def execVrcp (d a : Reg) (t : ETy) (m : Mask) (s : State) : Out := vecSpecial s d a t m FVal.rcp

/-- R58, R100: VRSQRT. -/
def execVrsqrt (d a : Reg) (t : ETy) (m : Mask) (s : State) : Out := vecSpecial s d a t m FVal.rsqrt

/-- R58, R100: VSIN. -/
def execVsin (d a : Reg) (t : ETy) (m : Mask) (s : State) : Out := vecSpecial s d a t m FVal.sin

/-- R58, R100: VCOS. -/
def execVcos (d a : Reg) (t : ETy) (m : Mask) (s : State) : Out := vecSpecial s d a t m FVal.cos

/-- R58, R100: VTANH. -/
def execVtanh (d a : Reg) (t : ETy) (m : Mask) (s : State) : Out := vecSpecial s d a t m FVal.tanh

/-- R58, R100: VSIGM. -/
def execVsigm (d a : Reg) (t : ETy) (m : Mask) (s : State) : Out := vecSpecial s d a t m FVal.sigm

end Sys2Proof.Machine
end

