-- ==== Sys2Proof/Machine/VectorMove.lean ====
section
/-! DEFINITION. Vector memory access (R88, R89), moves of elements (R99), accumulator rows (R101), mask
operations (R103), streams (R104 to R109). -/

namespace Sys2Proof.Machine

/-! ## Vector memory access -/

/-- R88: VLD. -/
def execVld (d a : Reg) (imm : BitVec 11) (s : State) : Out :=
  .next (s.vecM { xs := [.x a], vd := [d] } (fun u _ =>
    let va := u.getX a + 32 * sx imm
    (u.loadAt u.headWho { kind := .load, device := false } va 32 32 .memo 0).bind (fun g u1 =>
      match g with
      | .data v => .ok { writes := [(d, BitVec.ofNat 256 v)] } u1
      | .fail c => .stop (u1.trap c va))))

/-- R88, R72: VST. -/
def execVst (r a : Reg) (imm : BitVec 11) (s : State) : Out :=
  .next (s.vecM { xs := [.x a], vs := [r] } (fun u g =>
    let va := u.getX a + 32 * sx imm
    (u.resolve u.headWho { kind := .store, device := false } va 32 32).bind (fun t u1 =>
      match t with
      | .fail c => .stop (u1.trap c va)
      | _ => .ok {} (u1.storeAll [((va, t), leBytes 32 (g r).toNat)]))))

/-- R89: the addresses of the active elements, in ascending order, with the elements. -/
def gatherAddrs (base : Word) (w : Nat) (idx : VReg) (act : List Bool) : List (Nat × Word) :=
  (List.range (256 / w)).filterMap (fun i =>
    if act.getD i true then
      some (i, base + BitVec.ofInt 64 ((BitVec.ofNat w (elem w idx i)).toInt * ((w / 8 : Nat) : Int)))
    else none)

/-- R89: the elements of a gather, every step of R71 taken for each in turn. -/
def State.gather (s : State) (e : Nat) : List (Nat × Word) → MRes (List (Nat × Nat))
  | [] => .ok [] s
  | (i, va) :: rest =>
    (s.loadAt s.headWho { kind := .load, device := false } va e e .memo 0).bind (fun g s1 =>
      match g with
      | .fail c => .stop (s1.trap c va)
      | .data v => (s1.gather e rest).bind (fun l s2 => .ok ((i, v) :: l) s2))

/-- R89: VGATH. -/
def execVgath (d a b : Reg) (t : ETy) (m : Mask) (s : State) : Out :=
  .next (s.vecM { xs := .x a :: maskReads m, vs := [b], vd := [d], old := Mask.merges m } (fun u g =>
    let n := 256 / t.width
    let act := active (u.c.maskVal m) n
    (u.gather (t.width / 8) (gatherAddrs (u.getX a) t.width (g b) act)).bind (fun l u1 =>
      let new := (List.range n).map (fun i => (l.lookup i).getD 0)
      .ok { writes := [(d, joinElems t.width (mergeElems m act (elems t.width (u1.oldV d)) new))] } u1)))

/-- R89: VSCAT. -/
def execVscat (d a b : Reg) (t : ETy) (m : Mask) (s : State) : Out :=
  .next (s.vecM { xs := .x a :: maskReads m, vs := [d, b] } (fun u g =>
    let e := t.width / 8
    let l := gatherAddrs (u.getX a) t.width (g b) (active (u.c.maskVal m) (256 / t.width))
    (u.checkAll { kind := .store, device := false } e e (l.map Prod.snd)).bind (fun ts u1 =>
      let stores := (l.zip ts).map (fun q => (q.2, leBytes e (elem t.width (g d) q.1.1)))
      .ok {} (u1.storeAll stores))))

/-! ## Moves of elements (R99) -/

/-- R99: VMOV. Its field b has no function. -/
def execVmov (d a _b : Reg) (t : ETy) (m : Mask) (s : State) : Out :=
  .next (s.elementwise d [a] m (256 / t.width) t.width (fun _ g i => (elem t.width (g a) i, 0)))

/-- R99: VPERM. -/
def execVperm (d a b : Reg) (t : ETy) (m : Mask) (s : State) : Out :=
  let n := 256 / t.width
  .next (s.elementwise d [a, b] m n t.width (fun _ g i =>
    (elem t.width (g a) (elem t.width (g b) i % n), 0)))

/-- R99: VBCAST. -/
def execVbcast (d a : Reg) (t : ETy) (m : Mask) (s : State) : Out :=
  .next (s.vec { xs := .x a :: maskReads m, vd := [d], old := Mask.merges m } (fun u _ =>
    let n := 256 / t.width
    let act := active (u.c.maskVal m) n
    let new := List.replicate n ((u.getX a).toNat % 2 ^ t.width)
    { writes := [(d, joinElems t.width (mergeElems m act (elems t.width (u.oldV d)) new))] }))

/-- R99: VINS. The old elements of a register bound to a write stream read as zero, as in merging (R106; DESIGN CHOICE, log
entry 69). -/
def execVins (d a b : Reg) (t : ETy) (s : State) : Out :=
  .next (s.vec { xs := [.x a, .x b], vd := [d], old := true } (fun u _ =>
    let i := (u.getX b).toNat % (256 / t.width)
    let l := elems t.width (u.oldV d)
    { writes := [(d, joinElems t.width (l.set i ((u.getX a).toNat % 2 ^ t.width)))] }))

/-- R99: VEXT. -/
def execVext (d a b : Reg) (t : ETy) (s : State) : Out :=
  .next (s.vec { xs := [.x b], xd := [.x d], vs := [a] } (fun u g =>
    let v := elem t.width (g a) ((u.getX b).toNat % (256 / t.width))
    let r : Word := match t with
      | .s8 | .s16 | .s32 | .s64 => BitVec.ofInt 64 (intOf t v)
      | _ => BitVec.ofNat 64 v
    { upd := fun c => c.setX d r }))

/-- R99: VSLIDE. -/
def execVslide (d a b : Reg) (t : ETy) (m : Mask) (s : State) : Out :=
  let n := 256 / t.width
  .next (s.elementwise d [a, b] m n t.width (fun _ g i =>
    (if i < n / 2 then elem t.width (g a) (i + n / 2) else elem t.width (g b) (i - n / 2), 0)))

/-- R99: VZIP. -/
def execVzip (d a b : Reg) (t : ETy) (m : Mask) (s : State) : Out :=
  .next (s.elementwise d [a, b] m (256 / t.width) t.width (fun _ g i =>
    (elem t.width (g (if i % 2 = 0 then a else b)) (i / 2), 0)))

/-- R99: VUNZIP. -/
def execVunzip (d a b : Reg) (t : ETy) (m : Mask) (s : State) : Out :=
  let n := 256 / t.width
  .next (s.elementwise d [a, b] m n t.width (fun _ g i =>
    (if i < n / 2 then elem t.width (g a) (2 * i) else elem t.width (g b) (2 * (i - n / 2)), 0)))

/-! ## Accumulator rows (R101) -/

def Cluster.acc (c : Cluster) (k : Bool) : Acc := if k then c.acc1 else c.acc0
def Cluster.setAcc (c : Cluster) (k : Bool) (a : Acc) : Cluster :=
  if k then { c with acc1 := a } else { c with acc0 := a }

/-- R112: a word of an accumulator. -/
def Acc.word (a : Acc) (row col : Nat) : BitVec 32 := mget 0 a.words (128 * row + col)

/-- R342: some of `n` words from a column on are uncorrectable. -/
def Acc.isBad (a : Acc) (row col n : Nat) : Bool :=
  a.bad.any (fun b => b / 64 = row && col ≤ b % 64 * 2 + 1 && b % 64 * 2 < col + n)

/-- Words written from a column on; a 64-bit word that is written whole has good data. -/
def Acc.put (a : Acc) (row col : Nat) (l : List (BitVec 32)) : Acc :=
  { words := (List.range l.length).foldl (fun w k => mset 0 w (128 * row + col + k) (l.getD k 0)) a.words,
    bad := a.bad.filter (fun b => !(b / 64 = row && col ≤ b % 64 * 2 && b % 64 * 2 + 2 ≤ col + l.length)) }

/-- R101, R344: VARD; an uncorrectable word is tested for (R345) and traps. -/
def execVard (d a b : Reg) (acc : Bool) (s : State) : Out :=
  .next (s.withRegs [.x a, .x b] [] (fun u =>
    let row := (u.getX a).toNat % 128
    let col := 8 * ((u.getX b).toNat % 16)
    let k := if acc then 1 else 0
    let src := (u.cluster u.clu).acc acc
    if src.isBad row col 8 then
      (u.post .errorDetected { x := 1, body := .place (.accRow u.clu k row) }).trap 0x12
        (parityTval 5 (128 * k + row))
    else
      u.vec { vd := [d] } (fun _ _ =>
        { writes := [(d, joinElems 32 ((List.range 8).map (fun i => (src.word row (col + i)).toNat)))] })))

/-- R101: VAWR. -/
def execVawr (d a b : Reg) (acc : Bool) (s : State) : Out :=
  .next (s.vec { xs := [.x a, .x b], vs := [d] } (fun u g =>
    let row := (u.getX a).toNat % 128
    let col := 8 * ((u.getX b).toNat % 16)
    let l := (elems 32 (g d)).map (BitVec.ofNat 32)
    { glob := fun t => t.updCluster u.clu (fun c => c.setAcc acc ((c.acc acc).put row col l)) }))

/-! ## Mask operations (R103) -/

/-- A mask operation of two masks. -/
def maskOp (s : State) (d a b : BitVec 3) (f : BitVec 32 → BitVec 32 → BitVec 32) : Out :=
  .next (s.withRegs [.m a, .m b] [.m d] (fun u => (u.setM d (f (u.getM a) (u.getM b))).advance))

/-- R103: MAND. -/
def execMand (d a b : BitVec 3) (s : State) : Out := maskOp s d a b (fun x y => x &&& y)
/-- R103: MOR. -/
def execMor (d a b : BitVec 3) (s : State) : Out := maskOp s d a b (fun x y => x ||| y)
/-- R103: MXOR. -/
def execMxor (d a b : BitVec 3) (s : State) : Out := maskOp s d a b (fun x y => x ^^^ y)
/-- R103: MNOT. -/
def execMnot (d a : BitVec 3) (s : State) : Out := maskOp s d a a (fun x _ => ~~~x)
/-- R103: MANDN. -/
def execMandn (d a b : BitVec 3) (s : State) : Out := maskOp s d a b (fun x y => x &&& ~~~y)

/-- A mask operation that writes a scalar register. -/
def maskToX (s : State) (d : Reg) (a : BitVec 3) (f : BitVec 32 → Word) : Out :=
  .next (s.withRegs [.m a] [.x d] (fun u => (u.setX d (f (u.getM a))).advance))

/-- R103: MPOPC. -/
def execMpopc (d : Reg) (a : BitVec 3) (s : State) : Out :=
  maskToX s d a (fun v => BitVec.ofNat 64 ((List.range 32).filter (fun i => v.getLsbD i)).length)
/-- R103: MFIRST. -/
def execMfirst (d : Reg) (a : BitVec 3) (s : State) : Out :=
  maskToX s d a (fun v => BitVec.ofNat 64 (((List.range 32).find? (fun i => v.getLsbD i)).getD 32))
/-- R103: MSET. -/
def execMset (d : BitVec 3) (a : Reg) (s : State) : Out :=
  .next (s.withRegs [.x a] [.m d] (fun u => (u.setM d ((u.getX a).setWidth 32)).advance))
/-- R103: MGET. -/
def execMget (d : Reg) (a : BitVec 3) (s : State) : Out := maskToX s d a (fun v => zx v)

/-! ## Streams (R104, R105, R108, R109) -/

/-- R104, R105: the stream that a descriptor describes; `none` when it is invalid. -/
def streamOf (ws : List Word) : Option StreamB :=
  let w1 := wd ws 1
  let lv := [wd ws 2, wd ws 3, wd ws 4]
  let b : StreamB := ⟨wd ws 0, wbit w1 8, wbits w1 2 0, lv.map (fun w => (BitVec.ofNat 32 (wbits w 63 32)).toInt),
    lv.map (fun w => wbits w 31 0), (wd ws 6).toNat⟩
  if wbits w1 63 9 ≠ 0 ∨ wbits w1 7 3 ≠ 0 ∨ wd ws 5 ≠ 0 ∨ wd ws 7 ≠ 0 ∨ 4 ≤ b.esz ∨ b.total < b.pos then none
  else some b

/-- R105: SBIND. -/
def execSbind (v : BitVec 2) (a : Reg) (s : State) : Out :=
  .next (s.withRegs [.x a] [] (fun u =>
    let va := u.getX a
    let r := (vreg v).toNat
    (u.image64 u.headWho va).fin (fun g u1 =>
      match g.1 with
      | .fail c => u1.trap c va
      | .data _ =>
        (match streamOf g.2 with
          | none => u1.trap 0x0F va
          | some b =>
            (u1.updC (fun c => { c with streams := minsert r b (c.streams.filter (fun e => e.1 != r)) })).advance))))

/-- The binding of a register ends; the register reads as zero. -/
def Ctx.unbind (c : Ctx) (r : Reg) : Ctx :=
  ({ c with streams := c.streams.filter (fun e => e.1 != r.toNat) }).setV r 0

/-- R108: SUNBIND. A register whose bank has been spilled is restored first, so that its image holds the zero. -/
def execSunbind (v : BitVec 2) (a : Reg) (s : State) : Out :=
  match s.c.stream (vreg v) with
  | none => .next s.advance
  | some b =>
    let done := fun (t : State) => t.withBanks [] [groupOf (vreg v)] (fun u => (u.updC (fun c => c.unbind (vreg v))).advance)
    if a = 0 then .next (done s)
    else
      .next (s.withRegs [.x a] [] (fun u0 => u0.afterOwn (fun u =>
        let va := u.getX a + 48
        (u.storeAt u.headWho { kind := .store, control := true } va 8 (leBytes 8 b.pos) .memo).fin (fun q u1 =>
          match q.1, q.2 with
          | .fail c, _ => u1.trap c va
          | _, .data _ => done u1
          | _, .fail c => done (u1.updC (fun x => x.recordStore va c))))))

/-- R109: a branch on the stream bound to a register. -/
def streamBranch (s : State) (v : BitVec 2) (t : BTarget) (f : Nat → Nat → Bool) : Out :=
  match s.c.stream (vreg v) with
  | none => .next (s.trap 0x0F (streamTval 4 (vreg v)))
  | some b => .next (if f b.pos b.total then s.jump (s.c.target t) else s.advance)

/-- R109: BSDONE. -/
def execBsdone (v : BitVec 2) (t : BTarget) (s : State) : Out := streamBranch s v t (fun p n => p = n)
/-- R109: BSMORE. -/
def execBsmore (v : BitVec 2) (t : BTarget) (s : State) : Out := streamBranch s v t (fun p n => p < n)

end Sys2Proof.Machine
end

