-- ==== Sys2Proof/Machine/Matrix.lean ====
section
/-! DEFINITION. The Borage matrix engine's arithmetic (R55, R56) and the work of one row of MMA, AMZERO, AMIN and
AMOUT (R122 to R126). -/

namespace Sys2Proof.Machine

/-- R20: the element type of a code. -/
def etyOf (code : Nat) : ETy :=
  match code with
  | 0 => .s8 | 1 => .s16 | 2 => .s32 | 3 => .s64 | 4 => .z8 | 5 => .z16 | 6 => .z32 | 7 => .z64
  | 8 => .h | 9 => .bf | 0xA => .f | 0xB => .d | 0xC => .e4 | 0xD => .e5 | _ => .e2

/-! ## The matrix word (R122) -/

def mwMx (w : Word) : Bool := wbit w 20
def mwType (w : Word) : Nat := wbits w 19 16
def mwRows (w : Word) : Nat := wbits w 14 8 + 1
def mwRow0 (w : Word) : Nat := wbits w 6 0

/-- R123: the row size in bytes of 128 elements. -/
def rowBytes (t : ETy) : Nat := 16 * t.width

/-- R19, R41: the elements of a row of bytes. -/
def rowElems (t : ETy) (bs : List Byte) : List Nat :=
  if t.width = 4 then bs.flatMap (fun b => [b.toNat % 16, b.toNat / 16])
  else
    let e := t.width / 8
    (List.range (bs.length / e)).map (fun i => leNat ((bs.drop (e * i)).take e))

/-- The bytes of elements of 8 bits or more. -/
def elemBytes (e : Nat) (l : List Nat) : List Byte := l.flatMap (leBytes e)

/-! ## The block-exact sum (R55, R56) -/

/-- R124: the value of an operand's element: MXINT8 with a scale, an integer or a floating value else. -/
def operandVal (t : ETy) (mx : Bool) (bits : Nat) : FVal :=
  if mx && t = .s8 then mxVal .s8 127 bits else elemVal t false bits

/-- R55: p of one block. -/
def blockSum (a b : List FVal) (sa sb : Nat) : FVal :=
  if sa = 0xFF || sb = 0xFF then .nan false
  else
    match (sumExact 0 ((a.zip b).map (fun e => e.1.mul e.2))).1 with
    | .num n m e => if m = 0 then .num false 0 0 else (FVal.num n m e).scale ((sa : Int) - 127 + ((sb : Int) - 127))
    | v => v

/-- R55: one step: the block is added to the accumulator with one rounding. -/
def mmaStep (acc : BitVec 32) (p : FVal) : BitVec 32 :=
  BitVec.ofNat 32 (fmtF.round fpNearest false (((fmtF.decode acc.toNat).add 0 p).1)).1

/-- R124: whether A and the array are both integer without scales. -/
def bothInteger (ta : ETy) (mxa : Bool) (w : WArr) : Bool :=
  !mxa && !w.mx && (ta = .s8 || ta = .z8) && (w.ty = .s8 || w.ty = .z8)

/-- R112: an element of a weight array. -/
def WArr.elem (w : WArr) (row col : Nat) : Nat := mget 0 w.elems (128 * row + col) % 2 ^ w.ty.width

/-- R112: a scale of a weight array, 127 without scales. -/
def WArr.scale (w : WArr) (kb col : Nat) : Nat := if w.mx then mget 0 w.scales (128 * kb + col) else 127

/-- R124: the new word of column `j`; `a` holds row i of A, `sa` its scales. -/
def mmaWord (ta : ETy) (mxa : Bool) (a sa : List Nat) (w : WArr) (acc : BitVec 32) (j : Nat) : BitVec 32 :=
  if bothInteger ta mxa w then
    let s : Int := ((List.range 128).map (fun k => intOf ta (a.getD k 0) * intOf w.ty (w.elem k j))).sum
    acc + BitVec.ofInt 32 s
  else
    (List.range 4).foldl (fun x kb =>
      let ks := (List.range 32).map (fun k => 32 * kb + k)
      let av := ks.map (fun k => operandVal ta mxa (a.getD k 0))
      let bv := ks.map (fun k => operandVal w.ty w.mx (w.elem k j))
      mmaStep x (blockSum av bv (if mxa then sa.getD kb 0 else 127) (w.scale kb j))) acc

/-! ## Access to local memory by rows (R136, R189, R381) -/

/-- What a part of an engine command has come to: done, or a fault. -/
inductive URes where
  | done (s : State)
  | fault (f : EFault) (s : State)

def Cluster.warr (c : Cluster) (k : Bool) : WArr := if k then c.w1 else c.w0
def Cluster.setWarr (c : Cluster) (k : Bool) (w : WArr) : Cluster := if k then { c with w1 := w } else { c with w0 := w }

/-- R136: the rules of the carve-out and of the firewall refuse a range of the window. -/
def State.rowBlocked (s : State) (cl : Nat) (c : Cmd) (off n : Nat) : Bool :=
  s.carveBlocks cl off n c.level || s.fwBlocks cl off c.level || s.fwBlocks cl (off + n - 1) c.level

/-- A fault of a matrix command at row `i` (R328). -/
def rowFault (cause addr i : Nat) (resumable : Bool) : EFault := ⟨cause, addr, i, 0, resumable⟩

/-- R344, R345: an engine has met an error of a place. -/
def State.engineError (s : State) (pl : Place) : State := s.post .errorDetected { x := 1, body := .place pl }

/-- R344: an engine reads local memory; a bad word starts the test of its core. -/
def State.engineRead (s : State) (cl off n : Nat) : Option (List Byte) × State :=
  match s.lmemRead cl off n with
  | (some bs, _, s1) => (some bs, s1)
  | (none, word, s1) =>
    let own := lmemCore (word / 0x20000) (word % 0x20000 * 4)
    (none, (s1.updCore own (fun c => { c with testing := true })).engineError (lmemPlace word))

/-- The window offset of X[d] plus some bytes. -/
def Cmd.offAt (c : Cmd) (n : Nat) : Nat := c.vd.toNat + n - winBase

/-- The accumulator rows of a command at the cluster. -/
def State.accRow (s : State) (cl : Nat) (c : Cmd) : Acc := (s.cluster cl).acc c.sel0

def State.putRow (s : State) (cl : Nat) (c : Cmd) (row : Nat) (l : List (BitVec 32)) : State :=
  s.updCluster cl (fun k => k.setAcc c.sel0 ((k.acc c.sel0).put row 0 l))

/-- The number of an accumulator as a place: 2 acc0, 3 acc1 (R349). -/
def accPlace (cl : Nat) (k : Bool) (row : Nat) : Place := .accRow cl (if k then 1 else 0) row

/-! ## The rows -/

/-- R123, R124: row `i` of an MMA. -/
def State.mmaRow (s : State) (cl : Nat) (c : Cmd) (i : Nat) : URes :=
  let t := etyOf (mwType c.va)
  let mx := mwMx c.va
  let rb := rowBytes t
  let row := mwRow0 c.va + i
  let off := c.offAt (rb * i)
  let soff := c.offAt (rb * mwRows c.va + 4 * i)
  let w := (s.cluster cl).warr c.sel1
  let acc := s.accRow cl c
  if s.rowBlocked cl c off rb || (mx && s.rowBlocked cl c soff 4) then
    .fault (rowFault 0x08 (winBase + off) i true) s
  else
    match w.badRows with
    | r :: _ => .fault (rowFault 0x12 0 i false) (s.engineError (.weightRow cl (if c.sel1 then 1 else 0) r))
    | [] =>
      if acc.isBad row 0 128 then .fault (rowFault 0x12 0 i false) (s.engineError (accPlace cl c.sel0 row))
      else
        match s.engineRead cl off rb with
        | (none, s1) => .fault (rowFault 0x12 0 i true) s1
        | (some bs, s1) =>
          (match (if mx then s1.engineRead cl soff 4 else (some [], s1)) with
            | (none, s2) => .fault (rowFault 0x12 0 i true) s2
            | (some sb, s2) =>
              let a := rowElems t bs
              let sa := sb.map BitVec.toNat
              .done (s2.putRow cl c row ((List.range 128).map (fun j => mmaWord t mx a sa w (acc.word row j) j))))

/-- R126: a memory element as an accumulator word. -/
def widenWord (t : ETy) (bits : Nat) : BitVec 32 :=
  match t with
  | .h | .bf => BitVec.ofNat 32 (fmtF.round fpNearest false ((fmtOf t).decode bits)).1
  | _ => BitVec.ofNat 32 bits

/-- R126: an accumulator word as a memory element. -/
def narrowWord (t : ETy) (w : BitVec 32) : Nat :=
  match t with
  | .h | .bf => ((fmtOf t).round fpNearest false (fmtF.decode w.toNat)).1
  | _ => w.toNat

/-- R126: row `i` of an AMIN. -/
def State.aminRow (s : State) (cl : Nat) (c : Cmd) (i : Nat) : URes :=
  let t := etyOf (mwType c.va)
  let n := 16 * t.width
  let off := c.offAt (n * i)
  if s.rowBlocked cl c off n then .fault (rowFault 0x08 (winBase + off) i true) s
  else
    match s.engineRead cl off n with
    | (none, s1) => .fault (rowFault 0x12 0 i true) s1
    | (some bs, s1) => .done (s1.putRow cl c (mwRow0 c.va + i) ((rowElems t bs).map (widenWord t)))

/-- R126: row `i` of an AMOUT, with its clearing. -/
def State.amoutRow (s : State) (cl : Nat) (c : Cmd) (i : Nat) : URes :=
  let t := etyOf (mwType c.va)
  let n := 16 * t.width
  let off := c.offAt (n * i)
  let row := mwRow0 c.va + i
  let acc := s.accRow cl c
  if s.rowBlocked cl c off n then .fault (rowFault 0x08 (winBase + off) i true) s
  else if acc.isBad row 0 128 then .fault (rowFault 0x12 0 i false) (s.engineError (accPlace cl c.sel0 row))
  else
    let l := (List.range 128).map (fun j => narrowWord t (acc.word row j))
    let s1 := s.lmemWrite cl off (elemBytes (t.width / 8) l)
    .done (if c.sel1 then s1.putRow cl c row (List.replicate 128 0) else s1)

/-- R124 to R126: row `i` of a matrix command. -/
def State.matrixRow (s : State) (cl : Nat) (c : Cmd) (i : Nat) : URes :=
  match c.op with
  | 0x40 => s.mmaRow cl c i
  | 0x41 => .done (s.putRow cl c (mwRow0 c.va + i) (List.replicate 128 0))
  | 0x42 => s.aminRow cl c i
  | _ => s.amoutRow cl c i

end Sys2Proof.Machine
end

