-- ==== Sys2Proof/Machine/Engine.lean ====
section
/-! DEFINITION. The engines of a cluster (R112 to R121, R127 to R130, R136 to R139, R328, R329): acceptance,
start, the work of the copy engine chunk by chunk, faults and their records, signals and completion messages, ESTAT,
ECANCEL and ERESUME. -/

namespace Sys2Proof.Machine

/-! ## Commands by number -/

def State.cmd (s : State) (cl num : Nat) : Option Cmd := (s.cluster cl).cmds.find? (fun c => c.num = num)

def State.updCmd (s : State) (cl num : Nat) (f : Cmd → Cmd) : State :=
  s.updCluster cl (fun k => { k with cmds := k.cmds.map (fun c => if c.num = num then f c else c) })

def State.dropCmd (s : State) (cl num : Nat) : State :=
  s.updCluster cl (fun k => { k with cmds := k.cmds.filter (fun c => c.num != num) })

/-- R127: the maker of the accesses of a command: the issuing context's ASID at the level of acceptance; its walks
start at the root to which the tile binds the ASID (DEDUCED, log entry 23). -/
def Cmd.who (c : Cmd) (cl : Nat) : Who :=
  { owner := engineOwner cl c.num, core := c.core, asid := c.asid, level := c.level, root := none,
    resume := some (.engineCommandComplete, { x := cl, y := c.num }) }

/-- The results of a command's accesses are forgotten. -/
def State.cmdBoundary (s : State) (cl num : Nat) : State := { s.dropMemo (engineOwner cl num) with accs := 0 }

/-! ## Acceptance (R113, R116, R118) -/

/-- R122: the types of MMA and TCOPYW, and those that take scales. -/
def mmaType (t : Nat) : Bool := [0x0, 0x4, 0x8, 0x9, 0xC, 0xD, 0xE].contains t
def mxType (t : Nat) : Bool := [0x0, 0xC, 0xD, 0xE].contains t

/-- R118: `n` bytes from an address lie wholly within the local window. -/
def windowHolds (va : Word) (n : Nat) : Bool := winBase ≤ va.toNat && va.toNat + n ≤ winBase + 0x80000

/-- R118, R122 to R126: the reason for which a matrix command is not accepted; 0 is none. -/
def matrixReason (op : Nat) (d a : Word) : Nat :=
  let t := mwType a
  let n := mwRows a
  let typeOk := match op with
    | 0x40 => mmaType t && (!mwMx a || mxType t)
    | 0x41 => !mwMx a && t = 0
    | _ => !mwMx a && [0x2, 0x8, 0x9, 0xA].contains t
  let extent := if op = 0x40 then rowBytes (etyOf t) * n + (if mwMx a then 4 * n else 0) else 16 * (etyOf t).width * n
  if wbits a 63 21 ≠ 0 ∨ wbit a 15 ∨ wbit a 7 then 0x01
  else if !typeOk then 0x02
  else if 128 < mwRow0 a + n then 0x03
  else if op = 0x41 then 0
  else if d.toNat % 64 ≠ 0 then 0x04
  else if !windowHolds d extent then 0x05
  else 0

/-- R118, R128 to R131: the reason for which a copy or collective command is not accepted; 0 is none. -/
def copyReason (op : Nat) (d a b : Word) : Nat :=
  let dOdd := d.toNat % 16 ≠ 0
  let aOdd := a.toNat % 16 ≠ 0
  match op with
  | 0x44 => if dOdd ∨ aOdd then 0x04 else 0
  | 0x45 =>
    if wbits b 63 32 ≠ 0 ∨ wbits b 15 5 ≠ 0 then 0x01
    else if !mmaType (wbits b 3 0) ∨ (wbit b 4 ∧ !mxType (wbits b 3 0)) then 0x02
    else if aOdd ∨ (wbit b 4 ∧ dOdd) then 0x04 else 0
  | 0x46 => if wbits b 63 48 ≠ 0 then 0x01 else if a.toNat % 8 ≠ 0 ∨ dOdd then 0x04 else 0
  | 0x47 => if wbits b 47 32 ≠ 0 then 0x01 else if dOdd then 0x04 else 0
  | _ =>
    let opTy := if op = 0x48 then wbits b 19 16 ≤ 2 && [0x2, 0x3, 0x6, 0x7, 0xA].contains (wbits b 15 12)
      else wbits b 19 16 = 0 && wbits b 15 12 = 0
    if wbits b 63 48 ≠ 0 then 0x01
    else if !opTy then 0x02
    else if aOdd ∨ dOdd then 0x04
    else if (wbits b 39 20 + 1) % 16 ≠ 0 then 0x06 else 0

/-- R118: the reason for which a command is not accepted; 0 is none. -/
def acceptReason (op : Nat) (d a b : Word) : Nat := if op ≤ 0x43 then matrixReason op d a else copyReason op d a b

/-! ## Collective groups at this cube (R296, R297) -/

def groupOff (g : Nat) : Nat := 0x4030000 + 16 * g
def State.groupWord (s : State) (g : Nat) : Word := s.csrAt (groupOff g)

/-- R131: the fields of the collective word. -/
def cwGroup (b : Word) : Nat := wbits b 11 0
def cwType (b : Word) : Nat := wbits b 15 12
def cwOp (b : Word) : Nat := wbits b 19 16
def cwBytes (b : Word) : Nat := wbits b 39 20 + 1
def cwSem (b : Word) : Nat := wbits b 47 40

/-- R297: the group admits commands of a cluster and an ASID. -/
def State.groupAdmits (s : State) (g cl asid : Nat) : Bool :=
  let w := s.groupWord g
  wbit w 63 && wbit w 62 && wbits w 53 44 = cl && s.partOfAsid asid = some (wbits w 5 0)

/-- R113: the head is accepted; a CRED at its member port takes its instance (R132). -/
def State.acceptCmd (s : State) (c : Cmd) : State :=
  let cl := s.clu
  let n := (s.cluster cl).accNum
  let joins := c.op = 0x48 && s.groupAdmits (cwGroup c.vb) cl c.asid
  let g := cwGroup c.vb
  let s1 := s.updCluster cl (fun k =>
    { k with accNum := (n + 1) % 2 ^ 64,
             cmds := k.cmds ++ [{ c with num := n, use := if joins then (s.group g).uses + 1 else 0 }] })
  if joins then s1.updGroup g (fun x => { x with uses := x.uses + 1 }) else s1

/-- R119: the threshold of a wait field. -/
def waitOf (s : State) (wt : EWait) : Option (Nat × Nat) :=
  match wt with
  | .none => none
  | .atLeast sem n => some (sem.toNat, n.toNat)
  | .atLeastReg sem c _ => some (sem.toNat, (s.getX c).toNat)

/-- R113, R118: an engine command's head. -/
def engineHead (s : State) (i : Instr) (op : Nat) (d a b : Reg) (sel0 sel1 : Bool) (wt : EWait) (sg : ESignal) : Out :=
  .next (s.withRegs [.x d, .x a, .x b, .x wt.reg] [] (fun t =>
    let vd := t.getX d
    let va := t.getX a
    let vb := t.getX b
    let r := acceptReason op vd va vb
    if r ≠ 0 then t.trapFull 1 0x11 t.c.pc (BitVec.ofNat 64 r)
    else if t.queueFull t.clu (queueOf op) then t.stall { kind := .engineQueue, what := queueOf op }
    else
      let e := (encode i).getD (0, 0)
      (t.acceptCmd { num := 0, op := op, head := e.1, tail := e.2, vd := vd, va := va, vb := vb, vc := t.getX wt.reg,
                     sel0 := sel0, sel1 := sel1, wait := waitOf t wt, sig := sg, core := t.cur.core,
                     slot := t.cur.slot, ctx := t.cur.ctx, uid := t.c.uid, asid := t.c.asid,
                     level := t.level }).advance))

/-- R124: MMA. -/
def execMma (acc w : Bool) (d a : Reg) (wt : EWait) (sg : ESignal) (s : State) : Out :=
  engineHead s (.mma acc w d a wt sg) 0x40 d a 0 acc w wt sg
/-- R125: AMZERO. -/
def execAmzero (acc : Bool) (a : Reg) (wt : EWait) (sg : ESignal) (s : State) : Out :=
  engineHead s (.amzero acc a wt sg) 0x41 0 a 0 acc false wt sg
/-- R126: AMIN. -/
def execAmin (acc : Bool) (d a : Reg) (wt : EWait) (sg : ESignal) (s : State) : Out :=
  engineHead s (.amin acc d a wt sg) 0x42 d a 0 acc false wt sg
/-- R126: AMOUT. -/
def execAmout (acc : Bool) (d a : Reg) (wt : EWait) (sg : ESignal) (s : State) : Out :=
  engineHead s (.amout acc d a wt sg) 0x43 d a 0 acc false wt sg
/-- R126: AMOUT.clr. -/
def execAmoutClr (acc : Bool) (d a : Reg) (wt : EWait) (sg : ESignal) (s : State) : Out :=
  engineHead s (.amoutClr acc d a wt sg) 0x43 d a 0 acc true wt sg
/-- R128: TCOPY. -/
def execTcopy (d a b : Reg) (wt : EWait) (sg : ESignal) (s : State) : Out :=
  engineHead s (.tcopy d a b wt sg) 0x44 d a b false false wt sg
/-- R129: TCOPYW. -/
def execTcopyw (w : Bool) (d a b : Reg) (wt : EWait) (sg : ESignal) (s : State) : Out :=
  engineHead s (.tcopyw w d a b wt sg) 0x45 d a b w false wt sg
/-- R130: TGATH. -/
def execTgath (d a b : Reg) (wt : EWait) (sg : ESignal) (s : State) : Out :=
  engineHead s (.tgath d a b wt sg) 0x46 d a b false false wt sg
/-- R128: TFILL. -/
def execTfill (d a b : Reg) (wt : EWait) (sg : ESignal) (s : State) : Out :=
  engineHead s (.tfill d a b wt sg) 0x47 d a b false false wt sg
/-- R133: CRED. -/
def execCred (d a b : Reg) (wt : EWait) (sg : ESignal) (s : State) : Out :=
  engineHead s (.cred d a b wt sg) 0x48 d a b false false wt sg
/-- R135: CMCAST. -/
def execCmcast (d a b : Reg) (wt : EWait) (sg : ESignal) (s : State) : Out :=
  engineHead s (.cmcast d a b wt sg) 0x49 d a b false false wt sg

/-! ## Completion (R120, R121) -/

/-- R121: the words of a completion message. -/
def Cmd.message (c : Cmd) (gcid status : Nat) : Message :=
  { words := [BitVec.ofNat 64 (status * 65536 + queueOf c.op * 256 + c.op),
      BitVec.ofNat 64 (c.slot * 2 ^ 44 + gcid * 65536 + c.asid), BitVec.ofNat 64 c.num, c.vd, c.va, c.vb,
      BitVec.ofNat 64 c.done, 0],
    asid := c.asid, sender := gcid, completion := true, ctx := c.ctx, uid := c.uid }

/-- R121: the inbox of a core takes a completion message now. -/
def State.inboxTakes (s : State) (cl core : Nat) : Bool :=
  !s.inboxFull core 4 && !((s.cluster cl).pending.any (fun e => e.1 = core))

/-- R121: some final command of the cluster still holds its message. -/
def State.posting (s : State) (cl : Nat) : Bool :=
  (s.cluster cl).cmds.any (fun c => match c.st with
    | .posting _ => true
    | _ => false)

/-- A message enters an inbox; that of a fenced core is gone (R337). -/
def State.intoInbox (s : State) (core : Nat) (m : Message) : State :=
  if s.fenced core then s else s.updCore core (fun k => { k with messages := k.messages ++ [m] })

/-- R121: a message goes to its inbox, or into the pending-message buffer; `none` while that is full. -/
def State.postMessage (s : State) (cl core : Nat) (m : Message) : Option State :=
  if 16 ≤ (s.cluster cl).pending.length then none
  else if s.inboxTakes cl core then some (s.intoInbox core m)
  else some (s.updCluster cl (fun k => { k with pending := k.pending ++ [(core, m)] }))

/-- R121, R337: whether a command posts a message; that of a fenced core is discarded. -/
def Cmd.notifies (c : Cmd) : Bool :=
  !c.orphan && (match c.sig with
    | some (_, ss) => ss = 255
    | none => false)

/-- R120, R121: a command is final: 0 completed, 1 cancelled, 2 failed. A completion whose message finds no room
stays running; the message of the others waits in their queue entry. -/
def State.finishCmd (s : State) (cl : Nat) (c : Cmd) (status : Nat) : State :=
  let s0 := s.cmdBoundary cl c.num
  let gone := s0.dropCmd cl c.num
  if c.notifies then
    let m := c.message (s.gcid c.core) status
    let r := if s.posting cl then none else gone.postMessage cl c.core m
    match r with
    | some s1 => s1
    | none =>
      if status = 0 then s0
      else gone.updCluster cl (fun k => { k with cmds := k.cmds ++ [{ c with st := .posting status }] })
  else
    match c.sig with
    | some (k, ss) => if status = 0 && ss != 255 then gone.semAdd (.cluster cl) ss.toNat k.toNat c.core else gone
    | none => gone

/-- R121: what the pending-message buffer can do next: a message whose inbox has room, or a waiting final command. -/
def State.pendingNext (s : State) (cl : Nat) : Option (Nat × Message) :=
  (s.cluster cl).pending.find? (fun e => !s.inboxFull e.1 4 || s.fenced e.1)

def State.pendingReady (s : State) (cl : Nat) : Bool :=
  (s.pendingNext cl).isSome || (s.posting cl && (s.cluster cl).pending.length < 16)

/-! ## Start (R114, R115, R119) -/

/-- R115: the weight array that a command uses, and whether it writes it. -/
def Cmd.array (c : Cmd) : Option (Bool × Bool) :=
  match c.op with
  | 0x40 => some (c.sel1, false)
  | 0x45 => some (c.sel0, true)
  | _ => none

def Cmd.final (c : Cmd) : Bool :=
  match c.st with
  | .posting _ => true
  | _ => false

/-- R115: an earlier command holds the weight array. -/
def State.interlocked (s : State) (cl : Nat) (c : Cmd) : Bool :=
  match c.array with
  | none => false
  | some (w, wr) => (s.cluster cl).cmds.any (fun o => o.num < c.num && !o.final && (match o.array with
      | some (w', wr') => w' = w && wr' != wr
      | none => false))

/-- R114: the front command of a queue. -/
def State.frontCmd (s : State) (cl q : Nat) : Option Cmd :=
  (s.cluster cl).cmds.find? (fun c => queueOf c.op = q && c.st = .queued)

/-- R345: an engine row of the cluster is being tested. -/
def State.rowTesting (s : State) (cl : Nat) : Bool :=
  s.tests.any (fun t => match t.place with
    | .weightRow k _ _ => k = cl
    | .accRow k _ _ => k = cl
    | _ => false)

/-- R114, R136: the queue may start a command. -/
def State.queueFree (s : State) (cl q : Nat) : Bool :=
  let run := (s.cluster cl).cmds.filter (fun c => queueOf c.op = q && c.st = .running)
  (if q = 2 then decide (run.length < 8) && run.all (fun c => c.fault.isNone) else run.isEmpty) &&
    !(q = 0 && s.rowTesting cl)

/-- R119: the wait of a command is satisfied. It is tested when the command starts, and nothing is kept of a test
before that: a semaphore that was high enough and has been lowered again by then holds the command back (DESIGN CHOICE,
log entry 71). -/
def State.waitMet (s : State) (cl : Nat) (c : Cmd) : Bool :=
  c.passed || (match c.wait with
    | none => true
    | some (sem, n) => n ≤ (s.sem (.cluster cl) sem).toNat)

/-- R114: the queue can start its front command. -/
def State.engineReady (s : State) (cl q : Nat) : Bool :=
  match s.frontCmd cl q with
  | none => false
  | some c => s.queueFree cl q && s.waitMet cl c && !s.interlocked cl c

/-- Nominal cycles between two parts of a command (R140); they carry no meaning (DESIGN CHOICE, log entry 75). -/
def engineCycles : Nat := 8

/-- R348: once the spare rows of the engine are used up, a matrix command faults at its start. -/
def State.startFault (s : State) (cl : Nat) (c : Cmd) : Option EFault :=
  if (s.cluster cl).matrixOff && c.op ≤ 0x43 then some (rowFault 0x12 0 c.cursor false) else none

/-- R114, R129: ENGINE_COMMAND_START of queue `y` of cluster `x`. A TCOPYW sets the type and MX of its array when it
starts at its first chunk, and not when it is resumed further on (DESIGN CHOICE, log entry 71). The 8 cycles to its first part
are the model's own (log entry 75). -/
def execEngineCommandStart (s : State) : Out :=
  let cl := s.arg.x
  if !s.engineReady cl s.arg.y then .next s
  else
    match s.frontCmd cl s.arg.y with
    | none => .next s
    | some c =>
      let s1 := s.updCmd cl c.num (fun x => { x with st := .running, passed := true })
      let s2 := if c.op = 0x45 && c.cursor = 0 then
          s1.updCluster cl (fun k => k.setWarr c.sel0 { k.warr c.sel0 with
            ty := etyOf (wbits c.vb 3 0), mx := wbit c.vb 4 })
        else s1
      match s.startFault cl c with
      | some f => .next (s2.post .engineFault { x := cl, y := c.num, body := .fault f })
      | none => .next (s2.after engineCycles .engineCommandComplete { x := cl, y := c.num })

/-! ## Faults and records (R136, R328, R329) -/

/-- R136, R244: the underlying cause of a failure. -/
def engineCause (c : Nat) : Nat := if [0x04, 0x05, 0x06, 0x08, 0x09, 0x11, 0x12].contains c then c else 0x08

/-- R328: the words of a record. -/
def Cmd.record (c : Cmd) (gcid : Nat) (f : EFault) : List Word :=
  [BitVec.ofNat 64 (2 ^ 63 + (if f.resumable then 2 ^ 62 else 0) + queueOf c.op * 2 ^ 60 + c.slot * 2 ^ 58 +
      c.level * 2 ^ 56 + f.cause * 2 ^ 48 + c.asid * 2 ^ 32 + gcid),
    encodingWord c.head c.tail, c.vd, c.va, c.vb, c.vc, BitVec.ofNat 64 f.addr,
    BitVec.ofNat 64 (f.rcube * 2 ^ 50 + f.cursor)]

/-- R136: the lowest empty slot. -/
def State.recordSlot (s : State) (cl : Nat) : Option Nat :=
  (List.range 8).find? (fun k => !((s.cluster cl).efrec.any (fun e => e.1 = k)))

/-- R136: the record of a fault is written and raised at the issuing core, or the command waits for a slot. -/
def State.recordFault (s : State) (cl : Nat) (c : Cmd) (f : EFault) : State :=
  if c.stopping then s.dropCmd cl c.num
  else
    match s.recordSlot cl with
    | none => s.updCmd cl c.num (fun x => { x with fault := some f })
    | some k =>
      let c1 := { c with st := .faulted, fault := none, cursor := f.cursor }
      let rec_ := (k, c.record (s.gcid c.core) f, c1)
      ((s.updCmd cl c.num (fun _ => c1)).updCluster cl (fun x => { x with efrec := x.efrec ++ [rec_] })).raise c.core
        { source := 0, sub := 2, tval := BitVec.ofNat 64 (2 ^ 63 + k), slot := c.slot, mark := c.num + 1 }

/-- R136: ENGINE_FAULT of command `y` of cluster `x`. -/
def execEngineFault (s : State) : Out :=
  match s.cmd s.arg.x s.arg.y, s.arg.body with
  | some c, .fault f =>
    if c.st != .running || c.fault.isSome then .next s
    else .next ((s.cmdBoundary s.arg.x c.num).recordFault s.arg.x c f)
  | _, _ => .next s

/-- R136: a command waits for a record slot. -/
def State.recordWaiter (s : State) (cl : Nat) : Option (Cmd × EFault) :=
  (s.cluster cl).cmds.findSome? (fun c => c.fault.map (fun f => (c, f)))

/-- R136: a record can be written. -/
def State.recordReady (s : State) (cl : Nat) : Bool := (s.recordWaiter cl).isSome && (s.recordSlot cl).isSome

/-- R136: ENGINE_RECORD_WRITE at cluster `x`. -/
def execEngineRecordWrite (s : State) : Out :=
  match s.recordWaiter s.arg.x with
  | some (c, f) => if s.recordReady s.arg.x then .next (s.recordFault s.arg.x c f) else .next s
  | none => .next s

/-! ## ESTAT, ECANCEL, ERESUME (R137 to R139) -/

/-- R138: the status word of a queue. -/
def State.queueStatus (s : State) (cl q : Nat) : Nat :=
  let l := (s.cluster cl).cmds.filter (fun c => queueOf c.op = q && !c.final)
  let faulted := l.any (fun c => c.st = .faulted)
  let running := l.any (fun c => c.st = .running)
  let waiting := match s.frontCmd cl q with
    | some c => s.queueFree cl q && !s.waitMet cl c
    | none => false
  l.length % 256 * 256 + (if faulted then 4 else 0) + (if waiting then 2 else 0) + (if running then 1 else 0)

/-- R138: the records. -/
def State.recordBits (s : State) (cl : Nat) : Nat :=
  (List.range 8).foldl (fun acc k =>
    if (s.cluster cl).efrec.any (fun e => e.1 = k) then acc + 2 ^ k else acc) 0

/-- R138: ESTAT; field b is ignored. -/
def execEstat (d a _b : Reg) (s : State) : Out :=
  .next (s.withRegs [.x a] [.x d] (fun t =>
    let sel := (t.getX a).toNat % 4
    let v := if sel = 3 then t.recordBits t.clu else t.queueStatus t.clu sel
    (t.setX d (BitVec.ofNat 64 v)).advance))

/-- R329: a record is freed. -/
def State.freeRecord (s : State) (cl num : Nat) : State :=
  s.updCluster cl (fun k => { k with efrec := k.efrec.filter (fun e => e.2.2.num != num) })

/-- R139: ECANCEL; field b is ignored. -/
def execEcancel (a _b : Reg) (s : State) : Out :=
  .next (s.withRegs [.x a] [] (fun t =>
    let x := t.getX a
    let cl := t.clu
    let hit := (t.cluster cl).cmds.filter (fun c =>
      wbit x (queueOf c.op) && c.core = t.cur.core && c.asid = t.c.asid &&
        (c.st = .queued || (c.st = .faulted && wbit x 3)))
    (hit.foldl (fun u c => (u.freeRecord cl c.num).finishCmd cl c 1) t).advance))

/-- R137: ERESUME. -/
def execEresume (n : BitVec 3) (s : State) : Out :=
  .next (s.withLevel (.eresume n) (fun t =>
    let cl := t.clu
    match (t.cluster cl).efrec.find? (fun e => e.1 = n.toNat) with
    | none => t.trapFull 1 0x11 t.c.pc 0x07
    | some (_, ws, c0) =>
      let c := (t.cmd cl c0.num).getD c0
      let t1 := t.freeRecord cl c.num
      if !wbit (wd ws 0) 62 then (t1.finishCmd cl c 2).advance
      else
        ((t1.dropCmd cl c.num).updCluster cl (fun k =>
          { k with cmds := { c with st := .queued, passed := true } :: k.cmds })).advance))

/-! ## Ranges of memory by lines (R127, R243) -/

/-- A line that a range touches: its address, and the parts touched as offset and length. -/
abbrev LineParts := Word × List (Nat × Nat)

/-- The lines that pieces of at most 16 bytes touch, in the order of the first touch. -/
def linesOf (l : List (Word × Nat)) : List LineParts :=
  l.foldl (fun acc p =>
    let line := lineAddr p.1
    let part := (p.1.toNat % 64, p.2)
    if acc.any (fun e => e.1 = line) then
      acc.map (fun e => if e.1 = line then (e.1, e.2 ++ [part]) else e)
    else acc ++ [(line, [part])]) []

/-- The span of the parts of a line: first offset and length. -/
def spanOf (ps : List (Nat × Nat)) : Nat × Nat :=
  let lo := ps.foldl (fun a p => Nat.min a p.1) 64
  let hi := ps.foldl (fun a p => Nat.max a (p.1 + p.2)) 0
  (lo, hi - lo)

/-- What a range comes to: a value, or the cause of its failure. -/
abbrev ERes (α : Type) := MRes (Except Nat α)

/-- R127: the lines of a range are translated and checked (R71, R322). -/
def State.engTargets (s : State) (w : Who) (kind : AKind) : List LineParts → ERes (List (LineParts × Target))
  | [] => .ok (.ok []) s
  | e :: rest =>
    let sp := spanOf e.2
    (s.resolve w { kind := kind, device := false } (e.1 + BitVec.ofNat 64 sp.1) 1 sp.2).bind (fun t s1 =>
      match t with
      | .fail c => .ok (.error c) s1
      | .refused => .ok (.error 0x09) s1
      | _ => (s1.engTargets w kind rest).bind (fun r s2 =>
        match r with
        | .ok l => .ok (.ok ((e, t) :: l)) s2
        | .error c => .ok (.error c) s2))

/-- The parts of a line of the local window are read. -/
def State.windowParts (s : State) (cl off : Nat) (line : List Byte) : List (Nat × Nat) → Option (List Byte) × State
  | [] => (some line, s)
  | p :: rest =>
    match s.engineRead cl (off / 64 * 64 + p.1) p.2 with
    | (some bs, s1) => s1.windowParts cl off (patch line p.1 bs) rest
    | (none, s1) => (none, s1)

/-- R243.5: the lines are read: one UREAD for each. The 64 bytes of each line, zero where not read. -/
def State.engRead (s : State) (w : Who) : List (LineParts × Target) → ERes (List (Word × List Byte))
  | [] => .ok (.ok []) s
  | (e, t) :: rest =>
    let sp := spanOf e.2
    let zero := List.replicate 64 (0 : Byte)
    let more := fun (line : List Byte) (u : State) => (u.engRead w rest).bind (fun r u1 =>
      match r with
      | .ok l => MRes.ok (.ok ((e.1, line) :: l)) u1
      | .error c => .ok (.error c) u1)
    match t with
    | .window cl off =>
      (match s.windowParts cl off zero e.2 with
        | (some line, s1) => more line s1
        | (none, s1) => .ok (.error 0x12) s1)
    | .line h gpa _ =>
      (s.readLine w h gpa sp.2 1 .memo 0 (e.1 + BitVec.ofNat 64 sp.1)).bind (fun r s1 =>
        match r.got with
        | .data v => more (patch zero sp.1 (leBytes sp.2 v)) s1
        | .fail c => .ok (.error (engineCause c)) s1)
    | _ => .ok (.error 0x08) s

/-- A range is translated and read. -/
def State.engFetch (s : State) (w : Who) (l : List (Word × Nat)) : ERes (List (Word × List Byte)) :=
  (s.engTargets w .load (linesOf l)).bind (fun r s1 =>
    match r with
    | .ok ts => s1.engRead w ts
    | .error c => .ok (.error c) s1)

/-- The bytes of a piece among lines that have been read. -/
def pieceBytes (m : List (Word × List Byte)) (p : Word × Nat) : List Byte :=
  (((m.lookup (lineAddr p.1)).getD []).drop (p.1.toNat % 64)).take p.2

/-- The bytes that a line receives: a later byte replaces an earlier one at the same address (R127). -/
def lineBytes (line : Word) (l : List (Word × List Byte)) : List (Nat × Byte) :=
  let buf : List (Option Byte) := l.foldl (fun acc p =>
    if lineAddr p.1 = line then
      (List.range p.2.length).foldl (fun b i => b.set (p.1.toNat % 64 + i) (p.2[i]?)) acc
    else acc) (List.replicate 64 none)
  buf.zipIdx.filterMap (fun e => e.1.map (fun b => (e.2, b)))

/-- R243.5: bytes of one line are written at its home by one UWRITE. -/
def State.writeSparse (s : State) (w : Who) (h : Home) (gpa : Nat) (bs : List (Nat × Byte)) (va : Word) : MRes AccRes :=
  s.request w .memo 0 va (s.numberers w 1) (fun own t =>
    t.uncached .uwrite { accMsg w t h gpa bs.length 1 own with bytes := bs })

/-- R134: the home of a line of another cube is asked whether it would refuse a write. -/
def State.askSparse (s : State) (w : Who) (h : Home) (gpa : Nat) (bs : List (Nat × Byte)) (va : Word) : MRes AccRes :=
  s.request w .memo 0 va (s.numberers w 1) (fun own t =>
    t.uncached .uwrite { accMsg w t h gpa bs.length 1 own with bytes := bs, probe := true })

/-- The lines of a range are written; the first failure ends it, with the address of its line's first byte. -/
def State.engWrite (s : State) (w : Who) (data : List (Word × List Byte)) :
    List (LineParts × Target) → MRes (Option (Nat × Word))
  | [] => .ok none s
  | (e, t) :: rest =>
    let va := e.1 + BitVec.ofNat 64 (spanOf e.2).1
    let bs := lineBytes e.1 data
    match t with
    | .window cl off =>
      (bs.foldl (fun u b => u.lmemWrite cl (off / 64 * 64 + b.1) [b.2]) s).engWrite w data rest
    | .line h gpa _ =>
      (s.writeSparse w h gpa bs va).bind (fun r s1 =>
        match r.got with
        | .data _ => s1.engWrite w data rest
        | .fail c => .ok (some (engineCause c, va)) s1)
    | _ => .ok (some (0x08, va)) s

/-! ## The copy engine by chunks (R127 to R130) -/

/-- Bytes `from` to `to` of a row, in pieces of at most 16 bytes, as offsets and lengths. -/
def rowPieces (lo hi : Nat) : List (Nat × Nat) :=
  if hi ≤ lo then []
  else (List.range ((hi - 1) / 16 + 1 - lo / 16)).map (fun k =>
    let a := Nat.max lo (16 * (lo / 16 + k))
    (a, Nat.min hi (16 * (lo / 16 + k) + 16) - a))

/-- The rows of `len` bytes that bytes `lo` to `hi` of a transfer touch: row, first and last byte in it. -/
def chunkRows (len lo hi : Nat) : List (Nat × Nat × Nat) :=
  (List.range ((hi - 1) / len + 1 - lo / len)).map (fun k =>
    let i := lo / len + k
    (i, Nat.max lo (i * len) - i * len, Nat.min hi ((i + 1) * len) - i * len))

/-- The lowest of some addresses. -/
def lowest (l : List Word) : Nat := (l.map BitVec.toNat).foldl Nat.min (2 ^ 64 - 1)

/-- The pieces of rows from an address on. -/
def piecesAt (base : Word) (lo hi : Nat) : List (Word × Nat) :=
  (rowPieces lo hi).map (fun p => (base + BitVec.ofNat 64 p.1, p.2))

/-- R128 to R130: length of a row in the transfer order, and the number of rows. -/
def Cmd.rowLen (c : Cmd) : Nat :=
  if c.op = 0x45 then rowBytes (etyOf (wbits c.vb 3 0))
  else (wbits c.vb 31 12 + 1) + (if c.op = 0x46 then 8 else 0)
def Cmd.rowCount (c : Cmd) : Nat := if c.op = 0x45 then 128 else wbits c.vb 11 0 + 1

/-- The length of a copy command's transfer order in bytes. -/
def Cmd.total (c : Cmd) : Nat := c.rowLen * c.rowCount + (if c.op = 0x45 && wbit c.vb 4 then 512 else 0)

def chunkSize : Nat := 16384

/-- What a part of a command that makes accesses comes to. -/
abbrev UStep := MRes (Option EFault)

/-- R328: a fault at the state reached. -/
def faultAt (s : State) (cause addr q : Nat) : UStep := .ok (some ⟨cause, addr, q, 0, true⟩) s

/-- The destination row address of TCOPY, TGATH and TFILL. -/
def Cmd.dstRow (c : Cmd) (i : Nat) : Word :=
  let stride := if c.op = 0x46 then wbits c.vb 47 32 else wbits c.vb 63 48
  c.vd + BitVec.ofNat 64 (16 * stride * i)

/-- R127: a chunk's destination is translated and written. -/
def State.putChunk (s : State) (w : Who) (c : Cmd) (q : Nat) (data : List (Word × List Byte)) : UStep :=
  let low := lowest (data.map Prod.fst)
  (s.engTargets w .store (linesOf (data.map (fun p => (p.1, p.2.length))))).bind (fun r s1 =>
    match r with
    | .error e => faultAt s1 e low q
    | .ok ts => (s1.engWrite w data ts).bind (fun f s2 =>
      match f with
      | some (e, _) => faultAt s2 e low q
      | none => .ok none (s2.updCmd (clusterOf c.core) c.num (fun x =>
          { x with done := x.done + (data.map (fun p => p.2.length)).sum }))))

/-- R128: chunk `q` of a TCOPY. -/
def State.tcopyChunk (s : State) (w : Who) (c : Cmd) (q lo hi : Nat) : UStep :=
  let rows := chunkRows c.rowLen lo hi
  let src := rows.flatMap (fun r => piecesAt (c.va + BitVec.ofNat 64 (16 * wbits c.vb 47 32 * r.1)) r.2.1 r.2.2)
  let dst := rows.flatMap (fun r => piecesAt (c.dstRow r.1) r.2.1 r.2.2)
  (s.engFetch w src).bind (fun r s1 =>
    match r with
    | .error e => faultAt s1 e (lowest (src.map Prod.fst)) q
    | .ok m => s1.putChunk w c q ((src.zip dst).map (fun p => (p.2.1, pieceBytes m p.1))))

/-- R128: chunk `q` of a TFILL. -/
def State.tfillChunk (s : State) (w : Who) (c : Cmd) (q lo hi : Nat) : UStep :=
  let pat := leBytes 8 c.va.toNat
  let dst := (chunkRows c.rowLen lo hi).flatMap (fun r => piecesAt (c.dstRow r.1) r.2.1 r.2.2)
  s.putChunk w c q (dst.map (fun p => (p.1, (List.range p.2).map (fun i => pat.getD ((p.1.toNat + i) % 8) 0))))

/-- R129: the elements of a row of a weight array; a row written whole has good data. -/
def WArr.putRow (w : WArr) (k : Nat) (l : List Nat) : WArr :=
  { w with elems := (List.range 128).foldl (fun m j => mset 0 m (128 * k + j) (l.getD j 0)) w.elems,
           badRows := w.badRows.filter (fun r => r != k) }

/-- R129: chunk `q` of a TCOPYW: rows, and scales at the end of the transfer order. -/
def State.tcopywChunk (s : State) (w : Who) (c : Cmd) (q lo hi : Nat) : UStep :=
  let t := etyOf (wbits c.vb 3 0)
  let rb := c.rowLen
  let rows := if lo < 128 * rb then chunkRows rb lo (Nat.min hi (128 * rb)) else []
  let cl := clusterOf c.core
  let src := rows.flatMap (fun r => piecesAt (c.va + BitVec.ofNat 64 (16 * wbits c.vb 31 16 * r.1)) 0 rb)
  let scales := if 128 * rb < hi then piecesAt c.vd 0 512 else []
  (s.engFetch w src).bind (fun r s1 =>
    match r with
    | .error e => faultAt s1 e (lowest (src.map Prod.fst)) q
    | .ok m =>
      (s1.engFetch w scales).bind (fun r2 s2 =>
        match r2 with
        | .error e => faultAt s2 e c.vd.toNat q
        | .ok ms =>
          let bytes := src.flatMap (pieceBytes m)
          let sb := scales.flatMap (pieceBytes ms)
          let rowData := rows.zipIdx.map (fun r => (r.1.1, rowElems t ((bytes.drop (rb * r.2)).take rb)))
          .ok none ((s2.updCluster cl (fun k =>
            let a := rowData.foldl (fun a r => a.putRow r.1 r.2) (k.warr c.sel0)
            k.setWarr c.sel0 (if sb.isEmpty then a else
              { a with scales := (List.range 512).foldl (fun x i => mset 0 x i (sb.getD i 0).toNat) a.scales }))).updCmd
            cl c.num (fun x => { x with done := x.done + bytes.length + sb.length }))))

/-- R130: a row of a TGATH within a chunk: its number, the bytes of its list entry (first the part that an earlier
chunk has read), and the bytes of the row itself. -/
structure GRow where
  row : Nat
  entLo : Nat
  entHi : Nat
  lo : Nat
  hi : Nat

def gRows (len lo hi : Nat) : List GRow :=
  (chunkRows len lo hi).map (fun r =>
    { row := r.1, entLo := Nat.min r.2.1 8, entHi := Nat.min r.2.2 8, lo := Nat.max r.2.1 8 - 8,
      hi := Nat.max r.2.2 8 - 8 })

/-- R130: the rows of a chunk are read, each from its listed address. -/
def State.gatherRows (s : State) (w : Who) (c : Cmd) (q : Nat) : List (GRow × List Byte) →
    MRes (Except EFault (List (Word × List Byte)))
  | [] => .ok (.ok []) s
  | (g, ent) :: rest =>
    if ent.length < 8 then s.gatherRows w c q rest
    else
      let base := BitVec.ofNat 64 (leNat ent)
      let src := piecesAt base g.lo g.hi
      let dst := piecesAt (c.dstRow g.row) g.lo g.hi
      if base.toNat % 16 ≠ 0 then .ok (.error ⟨0x04, (base + BitVec.ofNat 64 g.lo).toNat, q, 0, true⟩) s
      else
        (s.engFetch w src).bind (fun r s1 =>
          match r with
          | .error e => .ok (.error ⟨e, lowest (src.map Prod.fst), q, 0, true⟩) s1
          | .ok m => (s1.gatherRows w c q rest).bind (fun r2 s2 =>
            match r2 with
            | .ok l => .ok (.ok ((src.zip dst).map (fun p => (p.2.1, pieceBytes m p.1)) ++ l)) s2
            | .error f => .ok (.error f) s2))

/-- R130: chunk `q` of a TGATH. -/
def State.tgathChunk (s : State) (w : Who) (c : Cmd) (q lo hi : Nat) : UStep :=
  let rows := gRows c.rowLen lo hi
  let listed := rows.filter (fun g => g.entLo < g.entHi)
  let at_ := fun (g : GRow) => (c.va + BitVec.ofNat 64 (8 * g.row + g.entLo), g.entHi - g.entLo)
  let ents := listed.map at_
  (s.engFetch w ents).bind (fun r s1 =>
    match r with
    | .error e => faultAt s1 e (lowest (ents.map Prod.fst)) q
    | .ok m =>
      let full := rows.zipIdx.map (fun g =>
        let fresh := if g.1.entLo < g.1.entHi then pieceBytes m (at_ g.1) else []
        (g.1, (if g.2 = 0 then c.carry else []) ++ fresh))
      (s1.gatherRows w c q full).bind (fun r2 s2 =>
        match r2 with
        | .error f => .ok (some f) s2
        | .ok data =>
          (s2.putChunk w c q data).bind (fun f s3 =>
            match f with
            | some f => .ok (some f) s3
            | none =>
              let last := match full.getLast? with
                | some g => if hi % c.rowLen = 0 then [] else g.2
                | none => []
              .ok none (s3.updCmd (clusterOf c.core) c.num (fun x => { x with carry := last })))))

/-- R127: chunk `q` of a copy command. -/
def State.copyChunk (s : State) (cl : Nat) (c : Cmd) (q : Nat) : UStep :=
  let lo := chunkSize * q
  let hi := Nat.min c.total (lo + chunkSize)
  let w := c.who cl
  match c.op with
  | 0x44 => s.tcopyChunk w c q lo hi
  | 0x45 => s.tcopywChunk w c q lo hi
  | 0x46 => s.tgathChunk w c q lo hi
  | _ => s.tfillChunk w c q lo hi

/-- The chunks of `n` bytes. -/
def chunksOf (n : Nat) : Nat := (n + chunkSize - 1) / chunkSize

/-! ## Going on with a command -/

/-- The part of a command at its cursor is done: it goes on with the next, or completes. -/
def State.nextPart (s : State) (cl num parts : Nat) : State :=
  let s1 := (s.cmdBoundary cl num).updCmd cl num (fun x => { x with cursor := x.cursor + 1 })
  match s1.cmd cl num with
  | some c =>
    if c.stopping then s1.dropCmd cl num
    else if c.cursor < parts then s1.after engineCycles .engineCommandComplete { x := cl, y := num }
    else s1.finishCmd cl c 0
  | none => s1

/-- A part of a command ended with a fault, or is done. -/
def State.endPart (s : State) (cl num parts : Nat) (f : Option EFault) : State :=
  match f with
  | some e => (s.cmdBoundary cl num).post .engineFault { x := cl, y := num, body := .fault e }
  | none => s.nextPart cl num parts

/-- R124 to R126: the next row of a matrix command. -/
def State.matrixPart (s : State) (cl : Nat) (c : Cmd) : State :=
  match s.matrixRow cl c c.cursor with
  | .done s1 => (s1.updCmd cl c.num (fun x => { x with done := x.done + 1 })).nextPart cl c.num (mwRows c.va)
  | .fault f s1 => s1.endPart cl c.num (mwRows c.va) (some f)

/-- R127: the next chunk of a copy command. -/
def State.copyPart (s : State) (cl : Nat) (c : Cmd) : State :=
  (s.copyChunk cl c c.cursor).fin (fun f s1 => s1.endPart cl c.num (chunksOf c.total) f)

/-- The parts of a command: rows, or chunks. -/
def Cmd.parts (c : Cmd) : Nat :=
  if c.op ≤ 0x43 then mwRows c.va else if c.op ≤ 0x47 then chunksOf c.total else chunksOf (cwBytes c.vb)

/-- R121: the running commands that are only held back by their message try again; that of a fenced core needs none any more
(R337). -/
def State.retryDone (s : State) (cl : Nat) : State :=
  ((s.cluster cl).cmds.filter (fun c => c.st = .running && (c.notifies || c.orphan) && c.parts ≤ c.cursor)).foldl (fun t c =>
    t.post .engineCommandComplete { x := cl, y := c.num }) s

/-- R121: PENDING_MESSAGE_DELIVER at cluster `x`. -/
def execPendingMessageDeliver (s : State) : Out :=
  let cl := s.arg.x
  let s1 := match s.pendingNext cl with
    | some e => (s.updCluster cl (fun k => { k with pending := k.pending.erase e })).intoInbox e.1 e.2
    | none => s
  let waiting := (s1.cluster cl).cmds.findSome? (fun c => match c.st with
    | .posting n => some (c, n)
    | _ => none)
  match waiting with
  | some (c, n) =>
    if (s1.cluster cl).pending.length < 16 then
      .next ((s1.dropCmd cl c.num).updCluster cl (fun k =>
        { k with pending := k.pending ++ [(c.core, c.message (s1.gcid c.core) n)] }))
    else .next s1
  | none => .next (s1.retryDone cl)

end Sys2Proof.Machine
end

