-- ==== Sys2Proof/Machine/Ranges.lean ====
section
/-! DEFINITION. Protocol ranges and tables: the checker (R250), PTLOAD (R177, R261), PRSET (R176, R259, R260). -/

namespace Sys2Proof.Machine

/-! ## The checker (R250) -/

/-- R242: the classes of events for R250: 0 REQ and CTL, 1 FWD, 2 RSP, 3 LOC, 4 reserved. -/
def evClass (e : Nat) : Nat :=
  if e = 7 then 2 else if e < 7 then 3 else if e ≤ 0x10 then 0 else if e < 0x14 then 4
  else if e ≤ 0x19 then 1 else 2

def undefMarker : Nat := 0xC0000000

/-- HMASK or AMASK. -/
def imgMask (img : List Byte) (agent : Bool) : Nat := le32 img (if agent then 0xC else 8)

def attrDef (a : Nat) : Bool := bitsOf a 0 0 = 1
def attrExcl (a : Nat) : Bool := bitsOf a 2 2 = 1
def attrData (a : Nat) : Bool := bitsOf a 3 3 = 1
def attrWr (a : Nat) : Bool := bitsOf a 5 5 = 1

/-- The answers that a home's FWDs bring to the home (R242, R248). -/
def awaited (act : Nat) : Option Nat :=
  if act = 5 || act = 6 || act = 0x0B then some 0x1F
  else if act = 7 || act = 8 || act = 0x0A then some 0x1E else none

/-- The defined entries of a table that enter a state: event and actions. -/
def entering (img : List Byte) (agent : Bool) (st : Nat) : List (Nat × Nat) :=
  (List.range 16).flatMap (fun p => (List.range 32).filterMap (fun e =>
    let n := imgEntry img agent p e
    if n = undefMarker || entDisp n = 3 || entDisp n = 2 || entNext n != st then none else some (e, n)))

/-- Whether state `st` awaits the response `e`. -/
def awaits (img : List Byte) (st e : Nat) : Bool :=
  (entering img false st).any (fun x => (entActs x.2).any (fun a => awaited a = some e))

/-- Whether `e` is stalled on the way into state `st`. -/
def stalledInto (img : List Byte) (agent : Bool) (st e : Nat) : Bool :=
  (entering img agent st).any (fun x => x.1 = e && entDisp x.2 = 1)

/-- R250: the rules of the table that an entry, or with event 0 its state, breaks. Rules about a state are
examined with its first entry (DEDUCED, log entry 18). DEDUCED (log entry 81): under rule 0x07 a FWD entry may be a fault
entry, as R253's defaults are; an entry with [31:30] = 11 that is not the marker breaks rule 0x02. -/
def brokenRules (img : List Byte) (agent : Bool) (st ev : Nat) : List Nat :=
  let a := imgAttr img agent st
  let e := imgEntry img agent st ev
  let attrOf := imgAttr img agent
  let undef := e = undefMarker
  let disp := entDisp e
  let fault := disp = 3
  let acts := if fault then [] else entActs e
  let cls := evClass ev
  let masked := (imgMask img agent).testBit ev
  let mine := fun (x : Nat) => if agent then 0x20 ≤ x && x ≤ 0x30 else x ≤ 0x13
  let sendsReq := acts.any (fun x => 0x20 ≤ x && x ≤ 0x25)
  let sendsFwd := !agent && acts.any (fun x => (5 ≤ x && x ≤ 9) || x = 0x0A || x = 0x0B)
  let sendsRsp := acts.any (fun x => if agent then 0x26 ≤ x && x ≤ 0x28 else 1 ≤ x && x ≤ 4)
  let entry : Bool := !undef
  let transient := attrDef a && !attrStable a
  let aw := !agent && transient && awaits img st ev
  let r2 := (entry && (bitsOf e 31 30 != 0 || (fault && bitsOf e 27 10 != 0))) ||
    (ev = 0 && (bitsOf a 15 9 != 0 || (if agent then bitsOf a 8 6 != 0 else bitsOf a 5 4 != 0)))
  let r3 := entry && acts.any (fun x => !mine x)
  let r4 := entry && !attrDef (attrOf (entNext e))
  let r5 := if attrDef a && masked then attrStable a && undef && !(agent && st = 0 && cls = 3) else entry
  let r6 := transient && ((aw && (undef || !attrStable (attrOf (entNext e)) || fault || disp = 2)) ||
    (undef && stalledInto img agent st ev))
  let r7 := entry && ((cls = 3 && (sendsFwd || sendsRsp)) || (cls = 0 && sendsReq) ||
    (cls = 1 && (sendsReq || sendsFwd || disp = 1 || disp = 2)) || (cls = 2 && (sendsReq || sendsFwd || sendsRsp)))
  let r8 := entry && !agent && disp = 0 && [0x9, 0xB, 0xD, 0xE, 0xF].contains ev &&
    !(acts.any (fun x => x = 2 || x = 3 || x = 4))
  let r9 := (ev = 0 && (if agent then attrWr a && !attrExcl a else attrExcl a && attrShv a)) ||
    (entry && !agent && acts.contains 2 && (!acts.contains 0x0E || !attrExcl (attrOf (entNext e))))
  let rA := entry && !agent && ((acts.any (fun x => x = 7 || x = 8 || x = 0x0F) && !attrOwnv a) ||
    (acts.any (fun x => x = 5 || x = 6 || x = 9) && !attrShv a) ||
    (acts.contains 0x0D && !attrShv (attrOf (entNext e))) || (acts.contains 0x0E && !attrOwnv (attrOf (entNext e))) ||
    (acts.contains 0x0C && ev != 0x0B && ev != 0x1E))
  let rB := entry && (if agent then ev = 6 && (acts.any (fun x => x != 0x24) || (disp = 0 && acts != [0x24]))
    else acts.contains 0x12 && (attrOwnv a || (attrShv a && !acts.contains 9)))
  let rC := entry && disp = 1 && ((cls = 0 && attrStable (attrOf (entNext e))) || cls = 1 || cls = 2)
  let rD := entry && fault && bitsOf e 9 4 != 0x08 && bitsOf e 9 4 != 0x0E
  let rE := st = 0 && ev = 0 && (!attrDef a || !attrStable a || attrExcl a || attrOwnv a || attrShv a ||
    (!agent && !attrData a))
  let rF := agent && st = 0 && cls = 3 && entry
  [(0x02, r2), (0x03, r3), (0x04, r4), (0x05, r5), (0x06, r6), (0x07, r7), (0x08, r8), (0x09, r9), (0x0A, rA),
   (0x0B, rB), (0x0C, rC), (0x0D, rD), (0x0E, rE), (0x0F, rF)].filterMap (fun x => if x.2 then some x.1 else none)

/-- R250 rule 0x01: the header. -/
def headerBad (img : List Byte) (slot : Nat) : Bool :=
  le32 img 0 != 0x4C560001 || imgProtid img = 0 || (6 ≤ slot && imgProtid img < 0x100) ||
    ((img.drop 0x10).take 0x30).any (fun b => b != 0) ||
    (List.range 32).any (fun e => ((imgMask img false).testBit e && (evClass e = 3 || evClass e = 1)) ||
      ((imgMask img true).testBit e && evClass e = 0))

/-- R250, R177: the first breach of an image as the KTVAL of PTLOAD's trap; `none` accepts it. -/
def checkImage (img : List Byte) (slot : Nat) : Option Word :=
  let code := fun (rule : Nat) (t st ev : Nat) =>
    BitVec.ofNat 64 (2 ^ 62 + rule * 2 ^ 16 + t * 2 ^ 9 + st * 2 ^ 5 + ev)
  if headerBad img slot then some (code 1 0 0 0)
  else
    [false, true].findSome? (fun agent => (List.range 16).findSome? (fun st => (List.range 32).findSome? (fun ev =>
      (brokenRules img agent st ev).head?.map (fun r => code r (if agent then 1 else 0) st ev))))

/-! ## PTLOAD (R177, R261) -/

/-- R261: `n` more lines of an image are read as 64-byte loads. -/
def State.readImage (s : State) (va : Word) (got : List Byte) : Nat → MRes (Got × List Byte × Word)
  | 0 => .ok (.data 0, got, va) s
  | n + 1 =>
    (s.image64 s.headWho va).bind (fun r s1 =>
      match r.1 with
      | .data _ => s1.readImage (va + 64) (got ++ wordBytes r.2) n
      | .fail c => .ok (.fail c, got, va) s1)

/-- R260: an entry of the slot arbiter: a PTLOAD or PRSET of a context that still lives, or one of another cube. -/
def State.arbiterHas (s : State) (slot : Nat) (e : Nat × Nat × Nat × Nat) : Bool :=
  e.1 = slot && (16384 ≤ e.2.1 || (s.ctx e.2.1 e.2.2.1).uid = e.2.2.2)

/-- R260: the head being executed stands at the slot arbiter, at its place or behind those that came before. -/
def State.loadBegin (s : State) (slot : Nat) : State :=
  let me := (slot, s.cur.core, s.cur.ctx, s.c.uid)
  if s.ptloads.contains me then s
  else
    let s1 := s.loadOver s.cur.core s.cur.ctx
    { s1 with ptloads := s1.ptloads ++ [me] }

/-- R260: an operation on a slot that came before that of the head being executed is under way at the arbiter. -/
def State.loading (s : State) (slot : Nat) : Bool :=
  (s.ptloads.takeWhile (fun e => e != (slot, s.cur.core, s.cur.ctx, s.c.uid))).any (s.arbiterHas slot)

/-- R177: PTLOAD. It waits for the operations on its slot that came before; a slot for which a PRSET in progress has reserved
entries counts as bound (R260). -/
def execPtload (a b : Reg) (s : State) : Out :=
  .next (s.withLevel (.ptload a b) (fun v => v.withRegs [.x a, .x b] [] (fun t =>
    let slot := wbits (t.getX b) 2 0
    let busy := BitVec.ofNat 64 (2 ^ 63 + slot)
    if t.level = 1 && slot < 6 then t.trap 0x08 busy
    else if t.loading slot then (t.loadBegin slot).stall { kind := .drain }
    else if ((t.image slot).isSome &&
        (t.boundBits.testBit slot || t.prsets.any (fun p => p.slot = slot))) then t.trap 0x08 busy
    else
      ((t.loadBegin slot).readImage (t.getX a) [] 66).fin (fun r u =>
        match r with
        | (.fail c, _, va) => u.trap c va
        | (.data _, img, _) =>
          match checkImage img slot with
          | some v => u.trap 0x08 v
          | none => ({ u with images := mset [] u.images slot img }.loadOver u.cur.core u.cur.ctx).advance))))

/-! ## PRSET (R176, R259) -/

/-- R176: the home tiles on this cube that hold a line of `n` blocks of 4 KiB from a GPA on. -/
def State.homesOf (s : State) (gpa : Nat) : Nat → List Nat → List Nat
  | 0, acc => acc
  | n + 1, acc =>
    if 64 ≤ acc.length then acc
    else
      match s.stripe gpa with
      | some h =>
        let t := homeTile h.la
        let acc1 := if (h.cube = s.self || h.mirror = some s.self) && !acc.contains t then acc ++ [t] else acc
        s.homesOf (gpa + 4096) n acc1
      | none => s.homesOf (gpa + 4096) n acc

/-- The halves that remain of a range once the part [b, b + 2^k) is taken out of it. -/
def splitRange (e : RangeEntry) (b k : Nat) : Nat → List RangeEntry
  | 0 => []
  | n + 1 =>
    -- the block of size 2^(k+n) that holds b, and its sibling
    let size := 2 ^ (k + n)
    let blk := b / size * size
    let sib := if b / size % 2 = 0 then blk + size else blk - size
    ⟨e.slot, sib, k + n⟩ :: splitRange e b k n

/-- R176, R224: the vault of a tile of this cube holds a line of `n` blocks of 4 KiB from a GPA on. -/
def State.holdsLine (s : State) (tile gpa : Nat) : Nat → Bool
  | 0 => false
  | n + 1 =>
    (match s.stripe gpa with
      | some h => homeTile h.la = tile && (h.cube = s.self || h.mirror = some s.self)
      | none => false) || s.holdsLine tile (gpa + 4096) n

/-- R176, R240: the entries of a home after a range has been bound; of a range that is split it keeps the halves of which
it holds a line. -/
def rebind (holds : RangeEntry → Bool) (l : List RangeEntry) (slot b k : Nat) : List RangeEntry :=
  let rest := l.flatMap (fun e =>
    if b ≤ e.base && e.base + 2 ^ e.k ≤ b + 2 ^ k then []
    else if e.base ≤ b && b + 2 ^ k ≤ e.base + 2 ^ e.k then (splitRange e b k (e.k - k)).filter holds
    else [e])
  if slot = 0 then rest else rest ++ [⟨slot, b, k⟩]

/-- The entries of a tile. -/
def State.rangesOf (s : State) (tile : Nat) : List RangeEntry := (s.tile tile).ranges.map Prod.snd

/-- R240: the home of a tile holds a line of an entry's range. -/
def State.holdsRange (s : State) (tile : Nat) (e : RangeEntry) : Bool := s.holdsLine tile e.base (2 ^ e.k / 4096)

/-- The homes of a binding in progress. -/
def State.prsetHomes (s : State) (p : PrsetRun) : List Nat := s.homesOf p.base (2 ^ p.k / 4096) []

/-- R176 phase 1: the entries that a home would hold after the bindings in progress, in order of arrival. -/
def State.reserved (s : State) (tile : Nat) (l : List PrsetRun) : List RangeEntry :=
  l.foldl (fun acc p => if (s.prsetHomes p).contains tile then rebind (s.holdsRange tile) acc p.slot p.base p.k else acc)
    (s.rangesOf tile)

/-- The GPA under which a line is in use: its state's, or, in state 0, that of an event that waits for it or of an answer
that its mirror keeps back. -/
def DirLine.usedAs (d : DirLine) : Nat :=
  if d.st != 0 then d.gpa
  else (((d.pend ++ d.mirrors.flatMap (fun w => w.owed)).head?).map (fun e => e.2.gpa / 64 * 64)).getD d.gpa

/-- The lines of this cube in a range whose directory records a copy, whose state is not 0 or for which an event or a
confirmation of the mirror is awaited, each under the GPA of its use. -/
def State.busyLines (s : State) (base k : Nat) : List (Nat × DirLine) :=
  (s.dirs.filter (fun e => base ≤ e.2.usedAs && e.2.usedAs < base + 2 ^ k &&
    (e.2.owner.isSome || !e.2.sharers.isEmpty || e.2.st != 0 || !e.2.pend.isEmpty || !e.2.mirrors.isEmpty))).map (fun e =>
      (e.1, { e.2 with gpa := e.2.usedAs }))

/-- Whether a line records a copy that is to be recalled (R243.10). -/
def State.lineRecorded (s : State) (d : DirLine) (slot : Nat) : Bool :=
  match s.image slot with
  | some img =>
    let a := imgAttr img false d.st
    (attrOwnv a && d.owner.isSome) || (attrShv a && !d.sharers.isEmpty)
  | none => false

/-- Whether a line is in a stable state. -/
def State.lineStable (s : State) (d : DirLine) (slot : Nat) : Bool :=
  match s.image slot with
  | some img => attrStable (imgAttr img false d.st)
  | none => true

/-- The slot of a line. -/
def State.lineSlot (s : State) (ln gpa : Nat) : Nat := s.rangeSlot (homeTile (ln * 64)) gpa

/-- R259 phase 2: RECALL is presented for every line of the range whose directory records a copy. What it brings back is
forwarded to the line's mirror (R222). -/
def State.recallRange (s : State) (base k : Nat) : State :=
  (s.busyLines base k).foldl (fun t e =>
    if t.lineRecorded e.2 (t.lineSlot e.1 e.2.gpa) then
      t.post .recall { body := .msg { gpa := e.2.gpa, la := e.1 * 64, level := 2, home := t.self,
                                      mirror := (t.stripe e.2.gpa).bind Home.mirror } }
    else t) s

/-- R176: PRSET. An X[a] with one of bits [63:56] set is no global physical address; it is treated as misaligned (DESIGN
CHOICE, log entry 68). Operations on its slot that came before are waited for (R260). -/
def execPrset (a b : Reg) (s : State) : Out :=
  .next (s.withLevel (.prset a b) (fun v => v.withRegs [.x a, .x b] [] (fun t =>
    if t.c.wait.any (fun w => w.kind = .prset) then
      (match t.farOf t.cur.core t.cur.ctx with
        | some r => if r.lacks then t.farDrop.trap 0x08 (BitVec.ofNat 64 (2 ^ 63 + (t.getX a).toNat)) else t.farDrop.advance
        | none => t.advance)
    else
      let base := (t.getX a).toNat
      let slot := wbits (t.getX b) 2 0
      let k := wbits (t.getX b) 8 3
      let r := bitsOf base 55 48
      let cubes := t.farHomes base k
      let p : PrsetRun := { id := t.serial, core := t.cur.core, ctx := t.cur.ctx, base := base, k := k, slot := slot,
                            going := cubes.isEmpty }
      if k < 13 || 48 < k || base % 2 ^ k != 0 || 2 ^ 56 ≤ base || !t.regionOk r ||
          (t.level < 2 && t.partOfAsid t.c.asid != some (t.regionPart r)) then t.trap 0x08 (t.getX a)
      else if t.loading slot then (t.loadBegin slot).stall { kind := .drain }
      else if (t.image slot).isNone then t.trap 0x08 (t.getX a)
      else if !t.numbersFree t.cur.core cubes.length then (t.loadBegin slot).stall { kind := .drain }
      else if (t.prsetHomes p).any (fun h => 32 < (t.reserved h (t.prsets ++ [p])).length) then
        t.trap 0x08 (BitVec.ofNat 64 (2 ^ 63 + base))
      else
        let u : State := { t with serial := t.serial + 1, prsets := t.prsets ++ [p] }
        ((if p.going then u.recallRange base k else u.farStart p.id (.reserve base k slot) cubes).loadOver t.cur.core t.cur.ctx).stall
          { kind := .prset, thr := p.id })))

/-- Earlier bindings in progress that overlap a binding go first (R176). -/
def State.prsetFirst (s : State) (p : PrsetRun) : Bool :=
  (s.prsets.takeWhile (fun q => q.id != p.id)).all (fun q =>
    q.base + 2 ^ q.k ≤ p.base || p.base + 2 ^ p.k ≤ q.base)

/-- R259: phase 2 has nothing under way for a binding. -/
def State.prsetReady (s : State) (p : PrsetRun) : Bool :=
  p.going && s.prsetFirst p && (s.busyLines p.base p.k).all (fun e =>
    e.2.pend.isEmpty && e.2.mirrors.isEmpty && s.lineStable e.2 (s.lineSlot e.1 e.2.gpa))

/-- Free numbers for the entries of a range table. -/
def numberEntries (l : List RangeEntry) : List (Nat × RangeEntry) := l.zipIdx.map (fun e => (e.2, e.1))

/-- R176: another cube's PRSET is told that the switch here is over. -/
def State.prsetTell (s : State) (p : PrsetRun) : State :=
  match p.far with
  | some src =>
    let np : NetPkt := ⟨src.gcid, ⟨s.gcid 0, 3, 0⟩, 2, false, 0, 0, 0, .farDone p.run src.seq 0⟩
    s.post .packetRoute { x := 64, body := .net np }
  | none => s

/-- R259: PRSET_SWITCH of the binding `x`: copies that are still recorded are recalled; else every line of the
range enters state 0 of the new slot, and the held events are presented in order. -/
def execPrsetSwitch (s : State) : Out :=
  match s.prsets.find? (fun p => p.id = s.arg.x) with
  | none => .next s
  | some p =>
    if !s.prsetReady p then .next s
    else if (s.busyLines p.base p.k).any (fun e => s.lineRecorded e.2 (s.lineSlot e.1 e.2.gpa)) then
      .next (s.recallRange p.base p.k)
    else
      let homes := s.prsetHomes p
      let s1 := (s.busyLines p.base p.k).foldl (fun t e => t.setDir e.1 {}) s
      let s2 := homes.foldl (fun t h => t.updTile h (fun x =>
        { x with ranges := numberEntries (rebind (s.holdsRange h) (x.ranges.map Prod.snd) p.slot p.base p.k) })) s1
      let s3 := { s2 with prsets := s2.prsets.filter (fun q => q.id != p.id) }
      let mine := fun (it : Item) => match it with
        | .event _ x => p.base ≤ x.body.theMsg.gpa && x.body.theMsg.gpa < p.base + 2 ^ p.k
        | .issue _ => false
      .next (({ s3 with held := s3.held.filter (fun it => !mine it),
                        agenda := s3.agenda ++ s3.held.filter mine } : State).prsetTell p)

/-! ## Answers of other cubes (R172, R173, R176, R326) -/

/-- R176: phase 1 has ended at every cube. Where some home lacks entries every reservation is released; else phase 2
begins everywhere. -/
def State.prsetPhase (s : State) (r : FarRun) (base k : Nat) : State :=
  let put := fun (t : State) (x : FarRun) => { t with farRuns := t.farRuns.map (fun (o : FarRun) => if o.id = r.id then x else o) }
  if r.lacks then
    (put { s with prsets := s.prsets.filter (fun (p : PrsetRun) => p.id != r.id) } r).farSend r .release r.cubes
  else
    let s1 : State := { s with prsets := s.prsets.map (fun (p : PrsetRun) => if p.id = r.id then { p with going := true } else p) }
    (((put s1 { r with op := .switch, left := r.cubes }).recallRange base k).farSend r .switch r.cubes)

/-- Cube `cube` has answered a request of run `id`: 0 done, 1 entries are lacking, 3 refused or no answer (R326), 4
declared down (R355). The last two leave the cube out (log entry 38). -/
def State.farAnswer (s : State) (id cube status : Nat) : State :=
  match s.farRuns.find? (fun r => r.id = id && r.left.contains cube) with
  | none => s
  | some r =>
    let r1 := { r with left := r.left.filter (fun c => c != cube), lacks := r.lacks || status = 1,
                       cubes := if 3 ≤ status then r.cubes.filter (fun c => c != cube) else r.cubes,
                       dead := if status = 3 && r.dead.isNone then some cube else r.dead }
    let s1 : State := { s with farRuns := s.farRuns.map (fun (o : FarRun) => if o.id = id then r1 else o) }
    if !r1.left.isEmpty then s1
    else
      match r1.op with
      | .reserve base k _ => s1.prsetPhase r1 base k
      | _ =>
        if r1.uid = (s.ctx r1.core r1.ctx).uid then s1
        else { s1 with farRuns := s1.farRuns.filter (fun (o : FarRun) => o.id != id) }

end Sys2Proof.Machine
end

