-- ==== Sys2Proof/Machine/Ports.lean ====
section
/-! DEFINITION. Chervil's ports and the choice among them (R267 to R280, R282): packets queue at a port, leave in
groups that are kept until they are acknowledged, and are refused where no permitted port is up. -/

namespace Sys2Proof.Machine

/-! ## Port registers (R269, R270) -/

def portOff (p : Nat) : Nat := 0x4050000 + 64 * p
/-- R269: STATE: 0 down, 1 training, 2 up, 3 failed. -/
def State.portState (s : State) (p : Nat) : Nat := s.csrField (portOff p + 8) 63 62
def State.portDir (s : State) (p : Nat) : Nat := s.csrField (portOff p) 61 58
def State.portNbr (s : State) (p : Nat) : Nat := s.csrField (portOff p) 57 44
def State.portHost (s : State) (p : Nat) : Bool := wbit (s.csrAt (portOff p)) 62
def State.portEn (s : State) (p : Nat) : Bool := wbit (s.csrAt (portOff p)) 63

/-- R270: a port of the fabric that is up. -/
def State.portLinked (s : State) (p : Nat) : Bool := s.portState p = 2 && s.portDir p ≤ 7 && !s.portHost p

/-- R270, R354: a port that routing and collective groups use; a cube that has taken itself down routes nothing. -/
def State.portCarries (s : State) (p : Nat) : Bool := s.portLinked p && s.mode != .down

/-- R345: a lane of the port is being tested. -/
def State.portTesting (s : State) (p : Nat) : Bool :=
  s.tests.any (fun t => match t.place with
    | .lane q _ _ => q = p
    | _ => false)

/-! ## Sizes (R273) -/

/-- R273: flits of a packet. -/
def NetPkt.flits (np : NetPkt) : Nat :=
  match np.body with
  | .coh ev m =>
    if ev = .amor then 1 + (m.constituents.length + 1) / 2
    else if !m.data.isEmpty || !m.bytes.isEmpty then 3 else 1
  | .task _ => 3
  | .returned _ => 3
  | .coll c => 1 + (c.bytes.length + 31) / 32
  | .mctp b => 1 + (b.length + 31) / 32
  | _ => 1

/-- R276: flits queued at a port in a class. -/
def State.queuedFlits (s : State) (p cls : Nat) : Nat :=
  (((s.port p).queue.filter (fun e => e.2.2.cls = cls)).map (fun e => NetPkt.flits e.2.2)).sum

/-- R276, R278: the buffer slots of a class at the far end of a port that are in use, over its four virtual channels. -/
def State.farFlits (s : State) (p cls : Nat) : Nat :=
  ((List.range 4).map (fun v => mget 0 (s.port p).credits (4 * cls + v))).sum

/-! ## Cube coordinates and directions (R272, R276) -/

/-- A dimension of the torus: coordinate of this cube, of the destination, size, and the code of +. -/
structure Dim where
  own : Nat
  dst : Nat
  size : Nat
  plus : Nat

def State.dims (s : State) (cube : Nat) : List Dim :=
  let r := s.csrAt 0x4050300
  [⟨bitsOf s.self 4 0, bitsOf cube 4 0, wbits r 47 43 + 1, 0⟩,
   ⟨bitsOf s.self 9 5, bitsOf cube 9 5, wbits r 42 38 + 1, 2⟩,
   ⟨bitsOf s.self 13 10, bitsOf cube 13 10, wbits r 37 34 + 1, 4⟩]

/-- R276: the minimal directions of a dimension; none when it is done. -/
def Dim.minimal (d : Dim) : List Nat :=
  let k := (d.dst + d.size - d.own) % d.size
  if k = 0 then [] else if 2 * k < d.size then [d.plus] else if d.size < 2 * k then [d.plus + 1]
  else [d.plus, d.plus + 1]

/-- The ports of a direction, whatever their state. -/
def State.portsOf (s : State) (dir : Nat) : List Nat :=
  (List.range 12).filter (fun p => s.portDir p = dir && !s.portHost p)

/-! ## Choosing a port (R276 to R278) -/

/-- R276: the port of an ordered packet in a torus. -/
def State.orderedPort (s : State) (np : NetPkt) : Option Nat :=
  match (s.dims (gcidCube np.dest)).findSome? (fun d => d.minimal.head?) with
  | none => none
  | some dir =>
    let l := s.portsOf dir
    let odd := (np.src.gcid ^^^ np.dest) % 2 = 1
    ((if odd then l.reverse else l).find? s.portCarries)

/-- R276: the port of an adaptive packet in a torus: the fewest flits queued, then the most free buffer slots at the far
end, then the lower number. The buffers of all far ends are of one size (DEDUCED, log entry 49). -/
def State.adaptivePort (s : State) (np : NetPkt) : Option Nat :=
  let dirs := (s.dims (gcidCube np.dest)).flatMap Dim.minimal
  let l := (List.range 12).filter (fun p => s.portCarries p && dirs.contains (s.portDir p))
  let low := l.foldl (fun a p => Nat.min a (s.queuedFlits p np.cls)) (2 ^ 64)
  let best := l.filter (fun p => s.queuedFlits p np.cls = low)
  let used := best.foldl (fun a p => Nat.min a (s.farFlits p np.cls)) (2 ^ 64)
  best.find? (fun p => s.farFlits p np.cls = used)

/-- R277: the port of a packet in a dragonfly. -/
def State.dragonflyPort (s : State) (cube : Nat) : Option Nat :=
  let g := bitsOf cube 13 3
  let here := bitsOf s.self 13 3
  let localTo := fun (c : Nat) => (s.portsOf 6).find? (fun p => s.portCarries p && s.portNbr p = c)
  if g = here then localTo cube
  else
    let k := wbits (s.csrAt (0x4050308 + 8 * (g / 16))) (4 * (g % 16) + 2) (4 * (g % 16))
    if k = bitsOf s.self 2 0 then
      (s.portsOf 7).find? (fun p => s.portCarries p && bitsOf (s.portNbr p) 13 3 = g)
    else localTo (here * 8 + k)

/-- R278: a packet that follows the ordered rule. -/
def NetPkt.ordered (np : NetPkt) : Bool := np.ord || 2 ≤ np.vc

/-- R276 to R278: the port that a packet for another cube takes. -/
def State.routePort (s : State) (np : NetPkt) : Option Nat :=
  match s.csrField 0x4050300 63 62 with
  | 1 => if NetPkt.ordered np then s.orderedPort np else s.adaptivePort np
  | 2 => s.dragonflyPort (gcidCube np.dest)
  | _ => none

/-- R278: the dateline bit of a packet that leaves on port `p`. -/
def State.datelineBit (s : State) (np : NetPkt) (p : Nat) : Nat :=
  let dir := s.portDir p
  let inp := np.inp
  if s.csrField 0x4050300 63 62 = 2 then (if dir = 7 then 1 else np.vc % 2)
  else
    match (s.dims s.self)[dir / 2]? with
    | none => np.vc % 2
    | some d =>
      let turned := inp = 0 || s.portDir (inp - 1) / 2 != dir / 2
      let crosses := if dir % 2 = 0 then d.own = d.size - 1 else d.own = 0
      if crosses then 1 else if turned then 0 else np.vc % 2

/-! ## Queues and groups (R268, R278, R280) -/

/-- R280: the packet after some cycles at a router. -/
def NetPkt.older (np : NetPkt) (cycles : Nat) : NetPkt := { np with age := np.age + cycles }

/-- R280: the age at which a packet is discarded. -/
def ageLimit : Nat := 100 * cyclesPerUs

/-- R278: the packet as it leaves on a port: its dateline bit is set for that link. -/
def State.onLink (s : State) (p : Nat) (np : NetPkt) : NetPkt :=
  { np with vc := np.vc / 2 * 2 + s.datelineBit np p }

/-- R268: the groups of 8 flits that packets fill, each as the packets that end in it; `fill` flits of the group that stands
open are taken, and `open_` are the packets that end there. A last group that is not full leaves as it is (log entry 49). -/
def packGroups : Nat → List NetPkt → List NetPkt → List (List NetPkt)
  | _, open_, [] => [open_]
  | fill, open_, np :: rest =>
    let n := fill + NetPkt.flits np
    if n ≤ 8 then packGroups n (open_ ++ [np]) rest
    else open_ :: (List.replicate ((n - 1) / 8 - 1) [] ++ packGroups (n - 8 * ((n - 1) / 8)) [np] rest)

/-- R268: the groups that packets travel in. -/
def groupsOf (l : List NetPkt) : List (List NetPkt) := if l.isEmpty then [] else packGroups 0 [] l

/-- R268: groups numbered from `n` on. -/
def numberGroups (n : Nat) (l : List (List NetPkt)) : List (Nat × List NetPkt) :=
  (l.zip (List.range l.length)).map (fun e => ((n + e.2) % 4096, e.1))

/-- The packets at the head of a queue that fit into some flits, and the rest. -/
def leaving : Nat → List (Nat × Nat × NetPkt) → List (Nat × Nat × NetPkt) × List (Nat × Nat × NetPkt)
  | _, [] => ([], [])
  | room, e :: rest =>
    if NetPkt.flits e.2.2 ≤ room then
      let (out, stay) := leaving (room - NetPkt.flits e.2.2) rest
      (e :: out, stay)
    else ([], e :: rest)

/-- R268: packets leave a port that is up in groups of 8 flits, at most 128 of them unacknowledged. -/
def State.transmit (s : State) (p : Nat) : State :=
  if s.portLinked p && !s.portTesting p then
    let (out, stay) := leaving (8 * (128 - (s.port p).unacked.length)) (s.port p).queue
    let l := out.map (fun e => s.onLink p (NetPkt.older e.2.2 (s.now - e.2.1)))
    s.updPort p (fun q =>
      { q with queue := stay, txSeq := (q.txSeq + (groupsOf l).length) % 4096,
               unacked := q.unacked ++ numberGroups q.txSeq (groupsOf l),
               credits := l.foldl (fun c np =>
                 let v := 4 * np.cls + np.vc % 4
                 mset 0 c v (mget 0 c v + NetPkt.flits np)) q.credits })
  else s

/-- R354: a cube that has taken itself down stops driving a port once its notices have left. -/
def State.stopDriving (s : State) (p : Nat) : State :=
  if s.mode = .down && ((s.port p).queue.isEmpty || !s.portLinked p) then s.setCsrField (portOff p + 8) 63 62 0 else s

/-- R278, R280: a packet queues at a port; what cannot leave at once is timed. -/
def State.portEnqueue (s : State) (p : Nat) (np : NetPkt) : State :=
  let n := (s.port p).serial
  let s1 := (s.updPort p (fun q =>
    { q with serial := n + 1, queue := q.queue ++ [(n, s.now, np)] }))
  let s2 := s1.transmit p
  if (s2.port p).queue.any (fun e => e.1 = n) then
    let s3 := if NetPkt.ordered np then s2 else s2.after cyclesPerUs .escapeTimeout { x := p, y := n }
    s3.after (ageLimit - np.age) .ageExpire { x := p, y := n }
  else s2

/-! ## Refusal (R282, R292) -/

/-- R292: a reply that finds no record, or whose RET router cannot be reached, goes back to its home. -/
def State.orphan (s : State) (r : Nat) (m : Msg) : State :=
  let s1 := s.bumpCsr (0x4020000 + 32 * r + 8) 47 32
  let tile := homeTile m.la
  if m.home = s1.self then s1.post .journalSplit { x := tile, body := .msg m }
  else s1.post .packetRoute { x := 64, body := .net ⟨m.home * 16384 + tileCore tile, m.src, 2, false, 0, 0, 0, .orphan m⟩ }

/-- A request of another cube's TLBINV, ICINV or PRSET, or one of this cube that was refused on its way, is answered. -/
def State.farReply (s : State) (np : NetPkt) (id status : Nat) : State :=
  if gcidCube np.src.gcid = s.self then
    ({ s with outst := s.outst.filter (fun (o : Outst) => o.pkt.src != np.src) } : State).farAnswer id (gcidCube np.dest) status
  else
    let back : NetPkt := ⟨np.src.gcid, ⟨s.gcid 0, 3, 0⟩, 2, false, 0, 0, 0, .farDone id np.src.seq status⟩
    s.post .packetRoute { x := 64, body := .net back }

/-- R282: a router refuses a packet. A response or FWD that finds no path is lost; a lost reply to a router is an
orphan. -/
def State.refuseNet (s : State) (r : Nat) (np : NetPkt) : State :=
  match np.body with
  | .coh ev m =>
    if ev.cls = 0 then s.reply .flt { m with cause := 0x09 }
    else if m.ret % 128 != 127 && ev = .datu then s.orphan r m
    else s
  | .task p =>
    (match p.kind with
      | .send _ _ => s.answerSend p 2
      | _ => s.sendBack p 1)
  | .far _ id _ _ => s.farReply np id 3
  | _ => s

/-- A packet for another cube goes to the port that it takes. -/
def State.routeOut (s : State) (np : NetPkt) : State :=
  match s.routePort np with
  | none => s.refuseNet 64 np
  | some p => s.portEnqueue p np

/-- R278: ESCAPE_TIMEOUT of entry `y` at port `x`: the packet moves to the escape channels. -/
def execEscapeTimeout (s : State) : Out :=
  match (s.port s.arg.x).queue.find? (fun e => e.1 = s.arg.y) with
  | none => .next s
  | some (n, t, np) =>
    let np1 := { np with vc := np.vc % 2 + 2 }
    let keep := fun (q : Port) => { q with queue := q.queue.map (fun e => if e.1 = n then (n, t, np1) else e) }
    match s.routePort np1 with
    | some p =>
      if p = s.arg.x then .next (s.updPort p keep)
      else
        .next ((s.updPort s.arg.x (fun q => { q with queue := q.queue.filter (fun e => e.1 != n) })).portEnqueue p
          (NetPkt.older np1 (s.now - t)))
    | none =>
      .next ((s.updPort s.arg.x (fun q => { q with queue := q.queue.filter (fun e => e.1 != n) })).refuseNet 64 np1)

/-- R280: AGE_EXPIRE of entry `y` at port `x`: the packet is discarded. -/
def execAgeExpire (s : State) : Out :=
  .next (s.updPort s.arg.x (fun q => { q with queue := q.queue.filter (fun e => e.1 != s.arg.y) }))

end Sys2Proof.Machine
end

