-- ==== Sys2Proof/Machine/System.lean ====
section
/-! DEFINITION. Fences, traps and returns, control registers, translation and instruction caches, contexts and
the drain of a partition (R167 to R178, R306 to R334). -/

namespace Sys2Proof.Machine

/-! ## FENCE, TRAP, WFI -/

/-- R167: FENCE. Accesses are performed in program order in this model, so that ld and st wait only for accesses
that an interrupt left unanswered (R318). -/
def execFence (sc : Scope) (ld st eng : Bool) (s : State) : Out :=
  let slow := fun (t : State) => (ld || st) && t.c.ownPending
  let go := fun (t : State) =>
    if slow t || (eng && t.engBusy t.cur.core t.cur.ctx) then
      t.stall { kind := .fence, what := if eng then 1 else 0 }
    else t.advance
  .next (s.withRegs (scopeReads sc) [] (fun t =>
    if st then t.withStoreFail (fun u => u.withScope sc go) else t.withScope sc go))

/-- R169: TRAP. -/
def execTrap (imm : BitVec 11) (s : State) : Out := .next (s.trapFull 0 0x10 s.c.nextPc (zx imm))

/-- R170: a kernel-priority packet has arrived since the WFI began to wait. -/
def Ctx.wfiEnded (c : Ctx) : Bool :=
  match c.wait with
  | some w => w.kind = .wfi && w.got.isSome
  | none => false

/-- R170, R316: WFI. -/
def execWfi (s : State) : Out :=
  .next (s.withLevel .wfi (fun t =>
    if t.wfiDone t.cur.core t.cur.slot || t.c.wfiEnded then t.advance else t.stall { kind := .wfi }))

/-! ## Returns (R309, R318, R331) -/

/-- R81, R318: a context goes on at its PC at a level. A wait that an interrupt left registered for the head
there is taken up: a result that has come completes the head. -/
def Ctx.takeUp (c : Ctx) (lvl : Nat) : Ctx :=
  let isData := fun (w : Wait) => match w.got with
    | some (.data _) => true
    | _ => false
  let over_ := fun (w : Wait) => w.level = lvl && (isData w || w.got = some .waiting)
  let c0 := { c with line := none, wait := none, st := .running }
  match c.hung.find? (fun w => w.level = lvl && w.pc = c.pc) with
  | none => { c0 with hung := c.hung.filter (fun w => !over_ w) }
  | some w =>
    let rest := (c.hung.erase w).filter (fun o => !over_ o)
    if isData w then { c0 with hung := rest, pc := w.next }
    else { c0 with hung := rest, wait := some w,
                   st := if w.kind.blocks && w.got.isNone then .blocked else .running }

/-- The return of the context in the slot to a PC at a level. R334: a drained context ends at its return to user
level. -/
def State.comeBack (s : State) (epc : Word) (lvl : Nat) : State :=
  let s0 := { s.dropMemo (headOwner s.cur.core s.cur.ctx) with accs := 0 }
  if lvl = 0 && s0.sl.doomed then s0.endCtx s0.cur.core s0.cur.ctx
  else s0.updC (fun c => { c with pc := epc }.takeUp lvl)

/-- R331: the outgoing context, whose resume PC is `out`, leaves the slot. -/
def State.leaveSlot (s : State) (out : Word) (lvl : Nat) : State :=
  let s0 := { s.dropMemo (headOwner s.cur.core s.cur.ctx) with accs := 0 }
  if lvl = 0 && s0.sl.doomed then s0.endCtx s0.cur.core s0.cur.ctx
  else
    let s1 := s0.updC (fun c => { ({ c with pc := out }.takeUp lvl).saveOp with parkedAt := s.now, lvl := lvl })
    if s1.c.wait.any (fun w => w.got.isNone) then s1.updC (fun c => { c with st := .parked })
    else s1.becomeReady s.cur.core s.cur.ctx

/-- R331: context `id` is installed in the slot at user level; a wait that is still registered for it goes on when
the PC is that of its waiting head, and a saved operation completes first (R333). -/
def State.install (s : State) (id : Nat) (epc : Word) : State :=
  let core := s.cur.core
  let k := s.cur.slot
  let s1 := if (s.ctx core id).pc = epc then s else s.strike core id
  let s2 := (s1.readScalar core id).updCtx core id (fun c =>
    let blocked : Bool := match c.wait with
      | some w => w.kind.blocks && w.got.isNone && c.st = .parked
      | none => false
    { c with pc := epc, line := none, sbank := .resident, imageRefused := false, imageStale := false, lvl := 0,
             st := if blocked then .blocked else .running })
  (s2.seat core k id 0).resumeOp core id

/-- R309: the context that CTXSW named is still there. Where two slots have named one context, the KRET that comes second finds
it installed and traps as for one that has ended (DESIGN CHOICE, log entry 77). -/
def State.namedAlive (s : State) (core id uid : Nat) : Bool :=
  let c := s.ctx core id
  c.uid = uid && (c.st = .parked || c.st = .readyParked)

/-- The status after a return: IE takes PIE, and PIE is 1. -/
def statusOnReturn (st : Word) : Word := setBits (setBits st 0 0 (wbits st 1 1)) 1 1 1

/-- R309, R170: KRET. -/
def execKret (s : State) : Out :=
  .next (s.withLevel .kret (fun t =>
    let st := t.sl.k.status
    let lvl := wbits st 2 2
    let epc := t.sl.k.epc
    let back := fun (u : State) => u.updSl (fun x =>
      { x with level := lvl, csw := none, depth := x.depth - 1, k := { x.k with status := statusOnReturn st } })
    match t.sl.csw with
    | none => (back t).comeBack epc lvl
    | some (id, uid, out) =>
      if !t.namedAlive t.cur.core id uid then
        (t.updSl (fun x => { x with csw := none })).trap 0x08 (BitVec.ofNat 64 id)
      else
        let room := if (t.ctx t.cur.core id).sbank.isResident then (true, t) else t.scalarRoom t.cur.core
        if room.1 then ((back room.2).leaveSlot out lvl).install id epc
        else room.2.stall { kind := .bank, what := 1 }))

/-- R309, R170: FRET. A switch that CTXSW named waits for the next KRET (R174). -/
def execFret (s : State) : Out :=
  .next (s.withLevel .fret (fun t =>
    let st := t.sl.f.status
    let lvl := wbits st 3 2
    (t.updSl (fun x => { x with level := lvl, depth := x.depth - 1, f := { x.f with status := statusOnReturn st } })).comeBack
      t.sl.f.epc lvl))

/-! ## Control registers (R171, R21, R310 to R312) -/

/-- R310: a status register as a read returns it: PEND and POB are live. -/
def State.statusRead (s : State) (st : Word) : Word :=
  let pend := (List.range 5).foldl (fun acc k => if s.pendingSource s.cur.core k then acc + 2 ^ k else acc) 0
  setBits (setBits st 20 16 pend) 5 5 (if s.c.pob then 1 else 0)

/-- R328: a word of a fault record; an empty slot reads zero. -/
def State.efrecWord (s : State) (cl slot w : Nat) : Word :=
  match (s.cluster cl).efrec.find? (fun e => e.1 = slot) with
  | some e => wd e.2.1 w
  | none => 0

/-- A trap register of a level by its place in the K and F blocks. -/
def State.trapReg (s : State) (t : TrapRegs) (fw : Bool) (k : Nat) : Word :=
  let core := s.core s.cur.core
  match k with
  | 0 => s.statusRead t.status
  | 1 => t.epc
  | 2 => t.cause
  | 3 => t.tval
  | 4 => if fw then core.fvbase else core.kvbase
  | 9 => if fw then core.ftimer else core.ktimer
  | 10 => if fw then core.fspillptr else core.spillptr
  | 11 => if fw then s.c.fptbase else s.c.ptbase
  | 12 => core.waitlim
  | 13 => (s.cluster s.clu).semerr
  | _ => wd t.scratch (k - 5)

/-- R171: a control register as CRRD returns it. -/
def State.crRead (s : State) (n : Nat) : Word :=
  if n = 0 then s.c.fpctl
  else if n = 1 then s.c.fpstat
  else if n = 2 then BitVec.ofNat 64 s.now
  else if n = 3 then BitVec.ofNat 64 (s.gcid s.cur.core)
  else if n = 4 then BitVec.ofNat 64 s.cur.slot
  else if n = 5 then BitVec.ofNat 64 s.c.asid
  else if n < 0x440 then s.trapReg s.sl.k false (n - 0x400)
  else if n < 0x480 then s.efrecWord s.clu ((n - 0x440) / 8) (n % 8)
  else s.trapReg s.sl.f true (n - 0x800)

/-- A register with the masked bits replaced. -/
def masked (old v : Word) (mask : Nat) : Word :=
  let m := BitVec.ofNat 64 mask
  (old &&& ~~~m) ||| (v &&& m)

/-- R310: KSTATUS, or FSTATUS, in which PL never becomes 3. -/
def statusWrite (fw : Bool) (old v : Word) : Word :=
  if fw then masked old v (maskBits 12 8 + 3 + (if wbits v 3 2 = 3 then 0 else 12))
  else masked old v (maskBits 12 8 + 7)

/-- A trap register of a level written. -/
def TrapRegs.write (t : TrapRegs) (fw : Bool) (k : Nat) (v : Word) : TrapRegs :=
  match k with
  | 0 => { t with status := statusWrite fw t.status v }
  | 1 => { t with epc := v }
  | 2 => { t with cause := masked t.cause v (maskBits 63 62 + maskBits 15 0) }
  | 3 => { t with tval := v }
  | _ => if 5 ≤ k && k < 9 then { t with scratch := t.scratch.set (k - 5) v } else t

/-- R158: the W1C bits of SEMERR. -/
def semerrWrite (old v : Word) : Word := old &&& ~~~(v &&& BitVec.ofNat 64 (maskBits 25 24))

/-- R315: a new KTIMER is compared at once, and again when CYCLE reaches it. -/
def State.setKtimer (s : State) (v : Word) : State :=
  let s1 := s.updCore s.cur.core (fun c => { c with ktimer := v })
  if v = 0 then s1 else s1.after (v.toNat - s1.now) .ktimerExpire { x := s.cur.core }

/-- R171: a write of a control register. -/
def State.crWrite (s : State) (n : Nat) (v : Word) : State :=
  let n0 := s.cur.core
  if n = 0 then s.updC (fun c => { c with fpctl := v &&& 7 })
  else if n = 1 then s.updC (fun c => { c with fpstat := v &&& 0x1F })
  else if n = 0x404 then s.updCore n0 (fun c => { c with kvbase := masked 0 v (maskBits 63 12) })
  else if n = 0x409 then s.setKtimer v
  else if n = 0x40A then s.updCore n0 (fun c => { c with spillptr := masked 0 v (maskBits 63 8) })
  else if n = 0x40B then s.updC (fun c => { c with ptbase := masked 0 v (maskBits 55 12) })
  else if n = 0x40C then s.updCore n0 (fun c => { c with waitlim := v })
  else if n = 0x40D then s.updCluster s.clu (fun c => { c with semerr := semerrWrite c.semerr v })
  else if n = 0x804 then s.updCore n0 (fun c => { c with fvbase := masked 0 v (maskBits 63 12) })
  else if n = 0x809 then s.updCore n0 (fun c => { c with ftimer := v })
  else if n = 0x80A then s.updCore n0 (fun c => { c with fspillptr := masked 0 v (maskBits 63 8) })
  else if n = 0x80B then s.updC (fun c => { c with fptbase := masked 0 v (maskBits 55 12) })
  else if 0x400 ≤ n && n < 0x409 then s.updSl (fun t => { t with k := t.k.write false (n - 0x400) v })
  else if 0x800 ≤ n && n < 0x809 then s.updSl (fun t => { t with f := t.f.write true (n - 0x800) v })
  else s

/-- R48, R86: FPSTAT is read and written after the vector operation in flight has completed; a head waits for one whose
stores are still to be performed. -/
def State.fpSettled (s : State) (n : Nat) (k : State → State) : State :=
  if n = 1 then (if s.c.rest.isEmpty then k (s.updC Ctx.opDone) else s.stall { kind := .operand }) else k s

/-- R171: CRRD. -/
def execCrrd (d : Reg) (n : BitVec 12) (s : State) : Out :=
  .next (s.withLevel (.crrd d n) (fun t => t.withRegs [] [.x d] (fun u =>
    u.fpSettled n.toNat (fun v => (v.setX d (v.crRead n.toNat)).advance))))

/-- R171: CRWR. -/
def execCrwr (a : Reg) (n : BitVec 12) (s : State) : Out :=
  .next (s.withLevel (.crwr a n) (fun t => t.withRegs [.x a] [] (fun u =>
    u.fpSettled n.toNat (fun v => (v.crWrite n.toNat (u.getX a)).advance))))

/-! ## Translation and instruction caches (R172, R173) -/

/-- The cores of this cube that a rectangle word covers. -/
def State.scopeHas (s : State) (w : Word) (n : Nat) : Bool :=
  match rectKind w with
  | 0 => rectCube w = s.self && rectHas w n
  | 1 => true
  | 2 => true
  | _ => false

/-- R172: whether an entry is removed. -/
def tlbHit (va ctl : Word) (e : TlbEntry) : Bool :=
  let size := wbits ctl 53 52
  let all := wbit ctl 55 || size = 3
  let sh := 14 + 9 * Nat.max size e.lvl
  (wbit ctl 54 || e.asid = wbits ctl 51 36 || wbit e.pte 6) &&
    (all || e.page * 2 ^ (14 + 9 * e.lvl) / 2 ^ sh = va.toNat / 2 ^ sh)

/-- R172: some core of a cluster, or of a tile, lies in a scope. -/
def State.clusterIn (s : State) (w : Word) (cl : Nat) : Bool := (List.range 16).any (fun q => s.scopeHas w (coreAt cl q))
def State.tileIn (s : State) (w : Word) (t : Nat) : Bool :=
  (List.range 256).any (fun j => s.scopeHas w (mkCore (16 * (t / 8) + j / 16) (16 * (t % 8) + j % 16)))

/-- R172, R326: the translations and the walk-cache entries in a scope are removed, and, with ALLVA, the ASID bindings. -/
def State.tlbRemove (s : State) (va ctl : Word) : State :=
  let rect := masked 0 ctl (maskBits 35 0)
  let all := wbit ctl 55 || wbits ctl 53 52 = 3
  let mine := fun (asid : Nat) => wbit ctl 54 || asid = wbits ctl 51 36
  let keep := fun (l : List TlbEntry) => l.filter (fun e => !tlbHit va ctl e)
  let cores : SMap CoreSt := s.cores.map (fun e => if s.scopeHas rect e.1 then (e.1, { e.2 with tlb := keep e.2.tlb }) else e)
  let clusters : SMap Cluster := s.clusters.map (fun e =>
    if s.clusterIn rect e.1 then (e.1, { e.2 with tlb := keep e.2.tlb }) else e)
  let clear := fun (t : Tile) =>
    { t with walks := t.walks.filter (fun e => !mine e.asid),
             asids := if all then t.asids.filter (fun a => !mine a.1) else t.asids }
  let tiles : SMap Tile := s.tiles.map (fun e => if s.tileIn rect e.1 then (e.1, clear e.2) else e)
  { s with cores := cores.filter (fun e => decide (e.2 ≠ ({} : CoreSt))),
           clusters := clusters.filter (fun e => decide (e.2 ≠ ({} : Cluster))),
           tiles := tiles.filter (fun e => decide (e.2 ≠ ({} : Tile))) }

/-- The GPAs that an owner's accesses under way have been translated to. -/
def Memo.places (m : Memo) : List Nat :=
  m.results.filterMap (fun r => match r with
    | .place g _ _ _ => some g
    | _ => none)

/-- R172: an owner has an access under way that uses a translation that TLBINV removes, or a walk. -/
def Memo.uses (m : Memo) (va ctl : Word) : Bool := m.walk.isSome || (viaOf m.results).any (tlbHit va ctl)

/-- R172: a context has an access under way that uses a removed translation: that of its waiting head (the issuing context,
`own`, has none), one that an interrupt left unanswered, or a store of the vector operation in flight. -/
def State.ctxUses (s : State) (core id : Nat) (va ctl : Word) (own : Bool) : Bool :=
  let c := s.ctx core id
  let going := !own && (match c.wait with
    | none => true
    | some w => w.kind = .response || w.kind = .backoff || w.kind = .fullEmpty)
  c.hung.any (fun w => w.got = none && w.via.any (tlbHit va ctl)) ||
    c.rest.any (fun r => tlbHit va ctl ⟨c.asid, r.va.toNat / 2 ^ 32, 2, 0⟩) ||
    (going && s.memos.any (fun m => m.owner = headOwner core id && m.uses va ctl))

/-- R134, R172: a member port holds a removed translation for a packet that has not been delivered to it. -/
def Cmd.holdUses (c : Cmd) (va ctl : Word) : Bool :=
  c.st = .running && c.hold.any (fun h => tlbHit va ctl h &&
    (List.range (Nat.min (64 * c.cursor) ((wbits c.vb 39 20 + 256) / 256))).any (fun i =>
      let p := c.vd + BitVec.ofNat 64 (256 * i)
      !c.delivered.contains i && (h.hits c.asid p || h.hits c.asid (p + 255))))

/-- R172: an access under way in the scope uses a translation that TLBINV removes; `own` is the key of the issuing
context, of which those count that an interrupt left under way. -/
def State.tlbInUse (s : State) (va ctl : Word) (own : Option Nat) : Bool :=
  let rect := masked 0 ctl (maskBits 35 0)
  s.ctxs.any (fun e => s.scopeHas rect (e.1 / 256) && s.ctxUses (e.1 / 256) (e.1 % 256) va ctl (some e.1 = own)) ||
    s.memos.any (fun m => ((1 ≤ m.owner.agent && m.owner.agent ≤ 3 && s.clusterIn rect m.owner.gcid) ||
      (m.owner.agent = 6 && s.scopeHas rect m.owner.gcid)) && m.uses va ctl) ||
    s.clusters.any (fun k => s.clusterIn rect k.1 && k.2.cmds.any (fun c => c.holdUses va ctl))

/-- R172, R326: TLBINV. It comes after the thread's earlier stores, and completes once no access that uses a removed translation is under way (log entry 61) and the
other cubes of its scope have answered. -/
def execTlbinv (a b : Reg) (s : State) : Out :=
  .next (s.withLevel (.tlbinv a b) (fun v => v.withRegs [.x a, .x b] [] (fun t =>
    let va := t.getX a
    let ctl := t.getX b
    if t.farWaits then t.farEnd
    else if !rectLegal ctl then t.trap 0x0A ctl
    else if t.c.ownPending then t.stall { kind := .own }
    else if t.tlbInUse va ctl (some (ctxKey t.cur.core t.cur.ctx)) then t.stall { kind := .drain }
    else (t.tlbRemove va ctl).farThen (.tlb va ctl) (t.farScope (masked 0 ctl (maskBits 35 0))))))

/-- R173: a fetch of a line by another context than that of the key `own` is under way. -/
def State.fetchUnderWay (s : State) (gpa : Nat) (hit : Nat → Bool) (own : Option Nat) : Bool :=
  s.ctxs.any (fun e => some e.1 != own && hit (e.1 / 256) && e.2.line.isNone &&
    s.memos.any (fun m => m.owner = headOwner (e.1 / 256) (e.1 % 256) && m.places.any (fun g => g / 64 = gpa / 64)))

/-- R173: the copies of a line leave the instruction caches of some cores. -/
def State.icacheDrop (s : State) (gpa : Nat) (hit : Nat → Bool) : State :=
  let drop := fun (c : CoreSt) => { c with icache := c.icache.filter (fun e => e.1 != gpa / 64) }
  let cores : SMap CoreSt := s.cores.map (fun e => if hit e.1 then (e.1, drop e.2) else e)
  { s with cores := cores.filter (fun e => decide (e.2 ≠ ({} : CoreSt))) }

/-- R173: the cores of this cube whose copies an ICINV removes. -/
def State.icinvHas (s : State) (b : Reg) (rect : Word) (n : Nat) : Bool :=
  if b = 0 then n = s.cur.core else s.scopeHas rect n

/-- R173: ICINV. It comes after the thread's earlier stores. The thread fetches its next head afresh. A fetch of the line that is under way ends first (log
entry 61), and other cubes of the scope answer first. -/
def execIcinv (a b : Reg) (s : State) : Out :=
  .next (s.withRegs [.x a, .x b] [] (fun t =>
    let va := t.getX a
    let rect := t.getX b
    let afresh := fun (v : State) => if v.farWaits then v else v.updC (fun c => { c with line := none })
    if t.farWaits then afresh t.farEnd
    else if t.c.ownPending then t.stall { kind := .own }
    else (t.resolve t.headWho { kind := .fetch, window := false } va 1 1).fin (fun tg u =>
      let go := fun (v : State) (gpa : Nat) =>
        let hit := v.icinvHas b rect
        if v.fetchUnderWay gpa hit (some (ctxKey v.cur.core v.cur.ctx)) then v.stall { kind := .drain }
        else
          afresh ((v.icacheDrop gpa hit).farThen (.icache (gpa / 64) rect) (if b = 0 then [] else v.farScope rect))
      match tg with
      | .fail c => u.trap c va
      | _ =>
        if b != 0 && !rectLegal rect then u.trap 0x0A rect
        else
          match tg with
          | .line _ gpa _ => go u gpa
          | .refused => u.trap 0x09 va
          | _ => u.trap 0x08 va)))

/-! ## Contexts (R174, R175, R331, R332) -/

/-- The maker of accesses to overflow areas: the head, without translation and partition check (R191). -/
def State.areaWho (s : State) : Who := { s.headWho with level := 2 }

/-- `n` lines read from a GPA on; `none` when one is refused. -/
def State.readArea (s : State) (gpa : Nat) (got : List Byte) : Nat → MRes (Option (List Byte))
  | 0 => .ok (some got) s
  | n + 1 =>
    match s.stripe gpa with
    | none => .ok none s
    | some h =>
      (s.readLine s.areaWho h gpa 64 1 .memo 0 (BitVec.ofNat 64 gpa)).bind (fun r s1 =>
        match r with
        | .data v => s1.readArea (gpa + 64) (got ++ leBytes 64 v) n
        | _ => .ok none s1)

/-- `n` lines of bytes written from a GPA on. -/
def State.writeLines (s : State) (gpa : Nat) (bs : List Byte) : Nat → MRes Bool
  | 0 => .ok true s
  | n + 1 =>
    match s.stripe gpa with
    | none => .ok false s
    | some h =>
      (s.writeLine s.areaWho h gpa (bs.take 64) 1 .memo (BitVec.ofNat 64 gpa)).bind (fun r s1 =>
        match r with
        | .data _ => s1.writeLines (gpa + 64) (bs.drop 64) n
        | _ => .ok false s1)

/-- R174, R331: KEPC and the resume PC are exchanged, and the slot installs the context at its next KRET. -/
def State.nameContext (s : State) (id : Nat) : State :=
  let c := s.ctx s.cur.core id
  (s.updSl (fun t => { t with csw := some (id, c.uid, t.k.epc), k := { t.k with epc := c.pc } })).advance

/-- R332: the image of an overflow area is adopted. -/
def State.adopt (s : State) (area id : Nat) (refuse : State → State) : State :=
  (s.readArea area [] 64).fin (fun r s1 =>
    match r with
    | none => refuse s1
    | some bs =>
      let tag := wordAt bs 0
      if !wbit tag 63 then refuse s1
      else
        let c0 := Ctx.ofScalar ((List.range 192).map (fun i => wordAt (bs.drop 512) i))
        let v := c0.claimed.flatMap (fun g => vectorOf g (bs.drop (2048 + 256 * g)))
        let n := (wordAt (bs.drop 512) 105).toNat
        let c := { c0 with asid := wbits tag 47 32, v := v, uid := s1.serial + 1, readyAt := s1.now, parkedAt := s1.now,
                           readyOrd := s1.serial,
                           rest := restOf (Nat.min n 32) ((List.range 128).map (fun i => wordAt (bs.drop 3072) i)) }
        let s2 := s1.writeArea s1.cur.core area (leBytes 8 (setBits tag 63 63 0).toNat ++ (bs.drop 8).take 56)
        ({ s2 with serial := s2.serial + 1 }.setCtx s2.cur.core id c).nameContext id)

/-- R174, R331: CTXSW. A free id is looked up in the overflow area of the partition that holds the issuing context's ASID
(DESIGN CHOICE, log entry 70). -/
def execCtxsw (a : Reg) (s : State) : Out :=
  .next (s.withLevel (.ctxsw a) (fun v => v.withRegs [.x a] [] (fun t =>
    let id := wbits (t.getX a) 23 0
    let c := t.ctx t.cur.core id
    let refuse := fun (u : State) => u.trap 0x08 (u.getX a)
    if 256 ≤ id then refuse t
    else if c.st = .parked || c.st = .readyParked then t.nameContext id
    else if c.st = .free then
      match t.areaOf t.c.asid t.cur.core id with
      | some area => t.adopt area id refuse
      | none => refuse t
    else refuse t)))

/-- R175: what CTXFLUSH writes to an overflow area beside the tag: the images of the banks that lie on the core, or in its
carve-out, by their offsets, the pending-operation block with the scalar image (R333). A scalar image in the area that a
late result has still to reach is written as well. -/
def Ctx.flushParts (c : Ctx) : List (Nat × List Byte) :=
  let onCore := fun (b : Bank) => match b with
    | .resident => true
    | .carve _ => true
    | _ => false
  (if onCore c.sbank || c.imageStale then [(512, wordBytes c.scalarWords), (3072, wordBytes c.restWords)] else []) ++
    ((List.range 4).filter (fun g => onCore (c.vbank.getD g .unclaimed))).map (fun g => (2048 + 256 * g, c.vectorBytes g))

/-- Parts of an area are written in turn. -/
def State.writeParts (s : State) (area : Nat) : List (Nat × List Byte) → MRes Bool
  | [] => .ok true s
  | (off, bs) :: rest =>
    (s.writeLines (area + off) bs (bs.length / 64)).bind (fun ok s1 => if ok then s1.writeParts area rest else .ok false s1)

/-- R336: the images of the context that lie in the carve-out are read. -/
def State.readBanks (s : State) (core id : Nat) : State :=
  (List.range 4).foldl (fun t g => t.readVector core id g) (s.readScalar core id)

/-- R175, R332: the context's banks and tag are written to its overflow area, once a store of its operation in flight that has
set out is over (R333). Where the write is refused the banks stay, and
the event of R191 is raised; a context whose ASID lies in no valid partition has no area, and its write counts as refused
(DESIGN CHOICE, log entry 65). -/
def State.flushCtx (s : State) (id : Nat) : State :=
  let core := s.cur.core
  let c := s.ctx core id
  let fresh := s.memo (headOwner core s.cur.ctx) = []
  match s.areaOf c.asid core id with
  | none => (s.overflowEvent core id).advance
  | some area =>
    if s.inFlight ⟨core, 7, id⟩ then s.stall { kind := .drain }
    else if (s.stripeFor area c.asid 1).isNone then (s.overflowEvent core id).advance
    else
      let free : Bool := decide (c.st = .readyParked) && c.hung.all (fun w => w.got.isSome)
      let s0 := if fresh then s.readBanks core id else s
      (s0.writeParts area c.flushParts).fin (fun ok s1 =>
        if !ok then (s1.overflowEvent core id).advance
        else
          let line := leBytes 8 (imageTag free c.asid id).toNat ++ List.replicate 56 0
          (s1.writeLines area line 1).fin (fun _ s2 =>
            let spilled := fun (b : Bank) => if b = Bank.unclaimed then b else Bank.overflow
            let s3 := { s2.dropMemo (headOwner core s2.cur.ctx) with accs := 0 }
            if free then (s3.endCtx core id).advance
            else ((s3.updCtx core id (fun x =>
              { x with sbank := .overflow, vbank := x.vbank.map spilled, imageStale := false })).bankFreed core).advance))

/-- R175: CTXFLUSH. An id without a live context has nothing to flush (DEDUCED, log entry 19). -/
def execCtxflush (a : Reg) (s : State) : Out :=
  .next (s.withLevel (.ctxflush a) (fun v => v.withRegs [.x a] [] (fun t =>
    let id := wbits (t.getX a) 23 0
    let c := t.ctx t.cur.core id
    if 256 ≤ id || c.st = .free then t.advance
    else if c.st = .parked || c.st = .readyParked then t.flushCtx id
    else t.trap 0x08 (t.getX a))))

/-! ## PDRAIN (R178, R334) -/

/-- Whether an ASID lies in a partition's range (R210). -/
def State.asidIn (s : State) (p asid : Nat) : Bool :=
  wbits (s.partWord p 0) 15 0 ≤ asid && asid ≤ wbits (s.partWord p 0) 31 16

/-- The contexts that a drain reaches: core and id. -/
def State.drainCtxs (s : State) (p : Nat) (rect : Word) : List (Nat × Nat) :=
  (s.ctxs.filter (fun e => e.2.st != .free && rectHas rect (e.1 / 256) && s.asidIn p e.2.asid && !e.2.kernel &&
    e.1 != ctxKey s.cur.core s.cur.ctx)).map (fun e => (e.1 / 256, e.1 % 256))

/-- R334: the slot in which a context executes above user level, in a handler. -/
def State.handlerSlot (s : State) (core id : Nat) : Option Nat :=
  (List.range 4).find? (fun k => (s.slot core k).ctx = some id && (s.slot core k).level != 0)

/-- R178: one context of a drain ends, or will end when its handler returns. -/
def State.drainCtx (s : State) (core id : Nat) : State :=
  match s.handlerSlot core id with
  | some k => s.updSlot core k (fun t => { t with doomed := true })
  | none => s.endCtx core id

/-- R178: a context of a core that a drain leaves: the issuing one, or a kernel context. -/
def State.spared (s : State) (core asid : Nat) : Bool :=
  (s.ctxsOf core).any (fun e => e.2.st != .free && e.2.asid = asid && (e.2.kernel || (core = s.cur.core && e.1 = s.cur.ctx)))

/-- R178: the inbox entries and messages of a partition leave the rectangle; a message is for an ASID, and stays where the
issuing context or a kernel context of that ASID could receive it (DESIGN CHOICE, log entry 83). A packet that a terminated
context has sent is discarded if it returns (R334). -/
def State.drainQueues (s : State) (p : Nat) (rect : Word) (gone : List (Nat × Nat)) : State :=
  let keepP := fun (e : Entry) => !s.asidIn p e.p.asid
  let keepM := fun (n : Nat) (m : Message) => !s.asidIn p m.asid || s.spared n m.asid
  let late := fun (n : Nat) (b : Bounce) =>
    if gone.any (fun g => g.1 = n && g.2 = b.ctx && (s.ctx n b.ctx).uid = b.uid) then { b with dead := true } else b
  let one := fun (n : Nat) (c : CoreSt) => { c with inbox := c.inbox.filter keepP, messages := c.messages.filter (keepM n),
                                                    bounce := c.bounce.map (late n) }
  let cores : SMap CoreSt := s.cores.map (fun e => if rectHas rect e.1 then (e.1, one e.1 e.2) else e)
  { s with cores := cores.filter (fun e => decide (e.2 ≠ ({} : CoreSt))) }

/-- R178, R79: the full-empty waits of some contexts of this cube are discarded at its homes, and what they kept from its
turn is performed. -/
def State.drainFe (s : State) (gone : List (Nat × Nat)) : State :=
  let mine := fun (w : FeWait) => w.msg.agent / 64 = s.self && w.msg.own.agent = 0 &&
    gone.any (fun g => w.msg.own.gcid = g.1 && w.msg.own.seq % 256 = g.2)
  let out := s.tiles.flatMap (fun e => e.2.fe.filter mine)
  let waits := fun (e : Ev × Msg) => (match e.2.op with
    | some (.fe _ _) => true
    | _ => false) && e.2.own.agent = 0 && gone.any (fun g => e.2.own.gcid = g.1 && e.2.own.seq % 256 = g.2)
  let agents : SMap AgentLine := s.agents.map (fun e => (e.1, { e.2 with missq := e.2.missq.filter (fun q => !waits q) }))
  let s1 := out.foldl State.feDiscard { s with
    agents := agents.filter (fun e => decide (e.2 ≠ ({} : AgentLine))),
    outst := s.outst.filter (fun o => !(out.any (fun w => w.msg.src = o.pkt.src))) }
  ((out.map (fun w => w.la)).eraseDups).foldl (fun t la => t.feLeft la) s1

/-- R178: the homes of the other full-empty accesses of the contexts that end are asked to withdraw them. -/
def State.drainFar (s : State) (gone : List (Nat × Nat)) : State :=
  (s.outst.filter (fun o => o.kind = 0 && o.feMsg.isSome && gone.any (fun g => o.core = g.1 && o.ctx = g.2))).foldl
    (fun t o => t.post .feWithdraw { x := o.core, y := o.ctx, z := NetPkt.accessTag o.pkt }) s

/-- R178: something of a partition that a context of the rectangle has issued, other than the issuing context of the drain
and kernel contexts. -/
def State.drains (s : State) (p : Nat) (rect : Word) (core ctx uid asid : Nat) : Bool :=
  let c := s.ctx core ctx
  rectHas rect core && s.asidIn p asid && !(c.uid = uid && (c.kernel || ctxKey core ctx = ctxKey s.cur.core s.cur.ctx))

/-- R178, R334: the engine commands of a partition leave a cluster with their records, their completion messages
and their events of source 0. A running command in the middle of a chunk stops at the chunk's end. -/
def State.drainCluster (s : State) (p : Nat) (rect : Word) (cl : Nat) : State :=
  let mine := fun (c : Cmd) => s.drains p rect c.core c.ctx c.uid c.asid
  let midway := fun (c : Cmd) => c.st = .running && s.memos.any (fun m => m.owner = engineOwner cl c.num)
  let recs := (s.cluster cl).efrec.filter (fun e => mine e.2.2)
  let s1 := s.updCluster cl (fun c =>
    { c with cmds := (c.cmds.filter (fun x => !mine x || midway x)).map (fun x =>
               if mine x then { x with stopping := true } else x),
             efrec := c.efrec.filter (fun e => !mine e.2.2),
             pending := c.pending.filter (fun e => !s.drains p rect e.1 e.2.ctx e.2.uid e.2.asid) })
  let gone := fun (v : CoreEvent) (k : Cmd) => v.source = 0 && v.sub = 2 && v.mark = k.num + 1
  recs.foldl (fun t e =>
    (t.updCore e.2.2.core (fun c =>
      { c with events := c.events.filter (fun v => !gone v e.2.2),
               eventsHeld := c.eventsHeld.filter (fun v => !gone v e.2.2) })).post .eventReoffer { x := e.2.2.core })
    (if (s.cluster cl).pending.isEmpty then s1 else s1.post .pendingMessageDeliver { x := cl })

/-- The line as the home or the agent that owns it holds it: `none` where an agent of another cube does. -/
def State.lineNow (s : State) (h : Home) (gpa : Nat) : Option (List Byte) :=
  match (s.dir (h.la / 64)).owner with
  | some a => if a / 64 = s.self then some ((s.agent (a % 64) (gpa / 64)).data.getD (s.homeLine h.la)) else none
  | none => some (s.homeLine h.la)

/-- R334: the access by which a drain clears the VALID bit of a tag at a home of another cube. -/
def tagOwner (core ctx : Nat) : Src := ⟨core, 11, ctx⟩

/-- R334: the image tag of an id of a core is cleared if it is one of the partition; where the home is another cube's, or an
agent of another cube owns the line, by an atomic that clears VALID. -/
def State.drainTag (s : State) (p n id : Nat) : State :=
  let gpa := wbits (s.partWord p 6) 55 12 * 4096 + 4096 * (256 * n + id)
  match s.stripe gpa with
  | some h =>
    (match (if h.cube = s.self then s.lineNow h gpa else none) with
      | some line =>
        let tag := wordAt line 0
        if wbit tag 63 && s.asidIn p (wbits tag 47 32) then
          s.writeArea n gpa (leBytes 8 (setBits tag 63 63 0).toNat ++ line.drop 8)
        else s
      | none =>
        (s.toHome .amor { gpa := gpa, la := h.la, own := tagOwner s.cur.core s.cur.ctx, agent := s.agentId (tileOf n),
                          len := 8, tag := 2, level := 2, home := h.cube, mirror := h.mirror,
                          op := some (.amo .and true (2 ^ 63 - 1)) }).2)
  | none => s

/-- R334, R283: the image tags of some cores' ids are cleared in turn, `k` of them being done, as long as the requests for it
may be numbered; how many are done then. -/
def State.drainTagsFrom (p : Nat) : List (Nat × Nat) → Nat → State → Nat × State
  | [], k, s => (k, s)
  | g :: rest, k, s =>
    if s.numberFree (.slice (tileOf g.1)) then drainTagsFrom p rest (k + 1) (s.drainTag p g.1 g.2) else (k, s)

/-- The ids of the cores of a rectangle. -/
def rectIds (rect : Word) : List (Nat × Nat) := (rectCores rect).flatMap (fun n => (List.range 256).map (fun id => (n, id)))

/-- R334: the image tags of the rectangle are cleared, from the `k`-th on. -/
def State.drainTags (s : State) (p : Nat) (rect : Word) (k : Nat) : Nat × State :=
  if 256 * (rectCores rect).length ≤ k then (k, s)
  else State.drainTagsFrom p ((rectIds rect).drop k) k s

/-- R178: a full-empty access of a context of the partition that has ended is still at a home of another cube or on its
way. -/
def State.feElsewhere (s : State) (p : Nat) (rect : Word) : Bool :=
  s.outst.any (fun o => o.kind = 0 && o.feMsg.any (fun m => s.asidIn p m.asid) && rectHas rect o.core &&
    !(let c := s.ctx o.core o.ctx
      (c.wait.toList ++ c.hung).any (fun w => w.tag = NetPkt.accessTag o.pkt)))

/-- R334, R178: a handler of the partition, an engine command in the middle of a chunk, or a full-empty wait elsewhere, that
the drain waits for. -/
def State.drainWaits (s : State) (p : Nat) (rect : Word) : Bool :=
  s.feElsewhere p rect ||
  s.outst.any (fun o => match o.pkt.body with
    | .coh _ m => m.own = tagOwner s.cur.core s.cur.ctx
    | _ => false) ||
  s.clusters.any (fun k => k.2.cmds.any (fun c => c.stopping && rectHas rect c.core && s.asidIn p c.asid)) ||
  (s.drainCtxs p rect).any (fun g => match s.handlerSlot g.1 g.2 with
    | some k => !(s.slot g.1 k).stopped
    | none => false)

/-- R178: how many image tags the drain of the head being executed has cleared in earlier issues. -/
def State.drainDone (s : State) : Nat :=
  match s.c.wait with
  | some w => if w.kind = .drain then w.thr else 0
  | none => 0

/-- R178: everything that a drain does at once, and how many image tags are cleared by now. -/
def State.drainPart (s : State) (p : Nat) (rect : Word) : Nat × State :=
  let gone := s.drainCtxs p rect
  let s0 := s.drainQueues p rect gone
  let s1 := ((s.clusters.map Prod.fst)).foldl (fun t cl => t.drainCluster p rect cl) s0
  let s2 := ((gone.foldl (fun t g => t.drainCtx g.1 g.2) s1).drainFe gone).drainFar gone
  let (k, s3) := s2.drainTags p rect s.drainDone
  (k, s3.setCsrField (partOff p 0) 62 62 1)

/-- R178: PDRAIN. -/
def execPdrain (a b : Reg) (s : State) : Out :=
  .next (s.withLevel (.pdrain a b) (fun v => v.withRegs [.x a, .x b] [] (fun t =>
    let p := wbits (t.getX a) 5 0
    let rect := t.getX b
    if !rectLegal rect || rectKind rect = 2 || rectCube rect != t.self then t.trap 0x0A rect
    else if t.level = 1 && t.partOfAsid t.c.asid != some p then t.trap 0x08 (t.getX a)
    else
      let (k, u) := t.drainPart p rect
      if k < 256 * (rectCores rect).length || u.drainWaits p rect then u.stall { kind := .drain, thr := k } else u.advance)))

end Sys2Proof.Machine
end

