-- ==== Sys2Proof/Machine/Fabric.lean ====
section
/-! DEFINITION. Routers (R263, R264, R282 to R295): combining and its records, the way of a packet through this
cube, retry, and the expiry of what homes and routers keep. -/

namespace Sys2Proof.Machine

/-! ## Combining registers (R263, R264) -/

def cmbOff (r : Nat) : Nat := 0x4020000 + 32 * r
def State.combines (s : State) (r : Nat) : Bool := wbit (s.csrAt (cmbOff r)) 63
/-- R263: HOLD in ns. -/
def State.holdNs (s : State) (r : Nat) : Nat := s.csrField (cmbOff r) 7 0

/-- R264: one more record is created: whether it is kept. -/
def State.recordInjected (s : State) (r : Nat) : Bool × State :=
  let w := s.csrAt (cmbOff r + 16)
  if !wbit w 63 then (true, s)
  else if (s.router r).injCount = wbits w 15 0 then
    (false, (s.setCsr (cmbOff r + 16) (setBits (setBits w 63 63 0) 62 62 1)).updRouter r (fun x =>
      { x with injCount := 0 }))
  else (true, s.updRouter r (fun x => { x with injCount := x.injCount + 1 }))

/-- R264: CMBINJ_WRITE at router `x`: FIRED is cleared by a 1; a write of ARM starts or ends the count. -/
def execCmbinjWrite (s : State) : Out :=
  let r := s.arg.x
  let v := s.arg.val
  let old := s.csrAt (cmbOff r + 16)
  let fired := if wbit v 62 then 0 else wbits old 62 62
  let w := setBits (setBits (setBits old 63 63 (wbits v 63 63)) 62 62 fired) 15 0 (wbits v 15 0)
  .next ((s.setCsr (cmbOff r + 16) w).updRouter r (fun x => { x with injCount := 0 }))

/-- R263: CMBSTAT_CLEAR at router `x`. -/
def execCmbstatClear (s : State) : Out := .next (s.setCsr (cmbOff s.arg.x + 8) 0)

/-! ## Combining (R287, R288) -/

/-- What a combinable request asks for: its op and width. -/
def NetPkt.amo (np : NetPkt) : Option (Msg × AOp × Bool) :=
  match np.body with
  | .coh .amor m =>
    (match m.op with
      | some (.amo op w _) => some (m, op, w)
      | _ => none)
  | _ => none

/-- A request none of whose constituents wants a reply. -/
def silent (m : Msg) : Bool := !(m.constituents.any (fun c => c.reply))

/-- R287: whether two requests combine. -/
def combinable (a b : NetPkt) : Bool :=
  match NetPkt.amo a, NetPkt.amo b with
  | some (ma, oa, wa), some (mb, ob, wb) =>
    ma.gpa = mb.gpa && wa = wb && a.dest = b.dest && ma.tag != 7 && mb.tag != 7 &&
      ((oa = .add && ob = .add) || (silent ma && silent mb && oa = ob)) &&
      ma.constituents.length + mb.constituents.length ≤ 8
  | _, _ => false

/-- R288: the operand of a request. -/
def operandOf (m : Msg) : Nat :=
  match m.op with
  | some (.amo _ _ y) => y
  | _ => 0

/-- R288: the request that two make, when a record is kept at router `ret`. -/
def combinedMsg (ma mb : Msg) (op : AOp) (w64 : Bool) (ret : Option Nat) : Msg :=
  { ma with op := some (.amo op w64 (op.apply (if w64 then 64 else 32) (operandOf ma) (operandOf mb))),
            cons := ma.constituents ++ mb.constituents,
            ret := ret.getD ma.ret }

/-- R291: the capacity of a combining table. -/
def tableSize (r : Nat) : Nat := if r = 64 then 4096 else 256

/-- R288, R264: the record `n` of a combination at router `r`, kept 200 µs (R292). -/
def State.addRecord (s : State) (r n : Nat) (ma mb : Msg) (w64 : Bool) : State :=
  let (kept, s0) := s.recordInjected r
  let s1 := s0.updRouter r (fun x => { x with serial := n + 1 })
  if !kept then s1
  else
    let rec_ : CombRec := { n := n, id := ma.src, gpa := ma.gpa, w64 := w64, s1 := operandOf ma, part1 := ma.src,
                            ret1 := ma.ret, reply1 := !silent ma, part2 := mb.src, ret2 := mb.ret, reply2 := !silent mb }
    (s1.updRouter r (fun x => { x with recs := x.recs ++ [rec_] })).after (200 * cyclesPerUs)
      .recordExpire { x := r, y := n }

/-- R287, R288, R291: the arriving request `np` joins the queued one `q`: the combined request, or none when its record
finds the table full. -/
def State.combine (s : State) (r : Nat) (q np : NetPkt) : Option NetPkt × State :=
  match NetPkt.amo q, NetPkt.amo np with
  | some (ma, op, w64), some (mb, _, _) =>
    let needs := !(silent ma && silent mb)
    if needs && tableSize r ≤ (s.router r).recs.length then (none, s.bumpCsr (cmbOff r + 8) 31 16)
    else
      let s1 := s.bumpCsr (cmbOff r + 8) 15 0
      let n := (s.router r).serial
      let s2 := if needs then s1.addRecord r n ma mb w64 else s1
      let m := combinedMsg ma mb op w64 (if needs then some ((n * 16384 + s.self) * 128 + r) else none)
      (some { q with body := .coh .amor m }, s2)
  | _, _ => (none, s)

/-! ## The source's list of requests (R284) -/

/-- A task packet, a SEND or a request of TLBINV, ICINV or PRSET that this cube's own agents sent. The requests of memory
accesses are kept as they set out. -/
def State.ownRequest (s : State) (np : NetPkt) : Bool :=
  np.cls = 0 && gcidCube np.src.gcid = s.self && (match np.body with
    | .task _ => true
    | .far _ _ _ _ => true
    | _ => false)

/-- R284: the source keeps a request until a response arrives. -/
def State.keepRequest (s : State) (np : NetPkt) : State :=
  if !s.ownRequest np || s.outst.any (fun o => o.pkt.src = np.src) then s else s.keep np

/-- The response to a request has come. -/
def State.answered (s : State) (src : Src) : State :=
  { s with outst := s.outst.filter (fun o => o.pkt.src != src) }

def State.awaits (s : State) (src : Src) : Bool := s.outst.any (fun o => o.pkt.src = src)

/-- R284, R355: a request fails with a cause. -/
def State.failRequest (s : State) (o : Outst) (cause : Nat) : State :=
  match o.pkt.body with
  | .coh _ m => s.post .flt { body := .msg { m with dst := m.agent, cause := cause } }
  | .task p =>
    let s1 := s.answered o.pkt.src
    (match p.kind with
      | .send _ _ => s1.answerSend p 2
      | _ => s1.sendBack p 1)
  | .far _ id _ _ =>
    (s.answered o.pkt.src).farAnswer id (gcidCube o.pkt.dest) (if cause = 0x12 then 3 else 4)
  | _ => s.answered o.pkt.src

/-- A request sets out again. -/
def State.sendAgain (s : State) (np : NetPkt) : State :=
  match np.body with
  | .coh ev m => s.sendHome ev m
  | _ => s.post .packetRoute { x := 64, body := .net { np with age := 0, vc := 0 } }

/-- R284: RETRY_TIMEOUT of request `x`, for its send number `y`. -/
def execRetryTimeout (s : State) : Out :=
  match s.outst.find? (fun o => o.id = s.arg.x && o.stamp = s.arg.y) with
  | none => .next s
  | some o =>
    if o.waiting then .next s
    else if o.resends = 3 then .next (s.failRequest o 0x12)
    else
      let o1 := { o with resends := o.resends + 1, stamp := o.stamp + 1 }
      .next ((({ s with outst := s.outst.map (fun (e : Outst) => if e.id = o.id then o1 else e) }).sendAgain o.pkt).after retryTime
        .retryTimeout { x := o.id, y := o1.stamp })

/-! ## Arrival at this cube (R282, R285) -/

/-- R282: the partition and level under which a request of another cube is checked: the partition that this cube's table
gives for its ASID. -/
def State.requestPart (s : State) (np : NetPkt) : Option Nat × Nat :=
  match np.body with
  | .coh _ m => (s.partOfAsid m.asid, m.level)
  | .task p => (s.partOfAsid (Packet.asid p), Packet.level p)
  | .far _ _ asid level => (s.partOfAsid asid, level)
  | _ => (none, 2)

/-- R282: the destination's Chervil refuses a request. -/
def State.refusedHere (s : State) (np : NetPkt) : Bool :=
  let from_ := gcidCube np.src.gcid
  let pl := s.requestPart np
  np.cls = 0 && from_ != s.self && pl.2 < 2 && (match pl.1 with
    | some p => !wbit (s.peer from_) p
    | none => true)

/-- R285: an answer that nobody awaits. Agents ignore the responses to memory requests themselves. -/
def State.unawaited (s : State) (np : NetPkt) : Bool :=
  match np.body with
  | .answer _ _ _ => !s.awaits ⟨np.dest, 0, np.src.seq⟩ && !s.awaits ⟨np.dest, 3, np.src.seq⟩
  | .returned p => np.src.agent != 1 && !s.awaits (packetSrc p)
  | .farDone _ seq _ => !s.awaits ⟨np.dest, 0, seq⟩
  | _ => false

/-- R145, R147, R152: an answer to a packet that this cube sent. -/
def State.answerHere (s : State) (np : NetPkt) (core ctx val : Nat) : State :=
  if 2 ^ 21 ≤ ctx then (s.answered ⟨np.dest, 3, np.src.seq⟩).contTaken core (ctx - 2 ^ 21)
  else
    let s1 := s.answered ⟨np.dest, 0, np.src.seq⟩
    if 256 ≤ ctx then
      let same := fun (b : Bounce) => wbits (wd b.p.words 1) 63 44 = ctx - 256 && !b.back
      s1.updCore core (fun c => match c.bounce.find? same with
        | some b => c.freeBounce b
        | none => c)
    else s1.post .sendAnswer { x := core, y := ctx, z := val % 4, val := BitVec.ofNat 64 (val / 4) }

/-- R337: a packet that was in a fenced core's inbox takes a bounce slot of its sender, or waits for one. -/
def State.fenceReturn (s : State) (p : Packet) : State :=
  let n := gcidCore p.sender
  if s.fenced n then s
  else if (s.core n).bounce.length < 4 then
    let b : Bounce := { p := p, back := true, ord := s.serial, ctx := p.ctx, uid := (s.ctx n p.ctx).uid, dead := false }
    ({ s with serial := s.serial + 1 } : State).updCore n (fun c => { c with bounce := c.bounce ++ [b] })
  else s.updCore n (fun c => { c with returnHeld := c.returnHeld ++ [p] })

/-- A returned packet at its source; `fenced` when a fence returned it. -/
def State.returnedHere (s : State) (p : Packet) (fenced : Bool) : State :=
  let s1 := s.answered (packetSrc p)
  match p.kind with
  | .cont _ stage _ =>
    if wbits (wd p.words 0) 61 60 = 1 then s1.post .continuationReturned { body := .packet p }
    else s1.contAgain { p with words := markWords p.words (if stage = 0 then 0 else 1) }
  | _ => if fenced then s1.fenceReturn p else s1.post .bounceReturn { body := .packet p }

/-- R385: the events of the requests that the responder serves. -/
def spdmEvent (code : Nat) : Option Instr :=
  match code with
  | 0x84 => some .getVersion
  | 0xE1 => some .getCapabilities
  | 0xE3 => some .negotiateAlgorithms
  | 0x81 => some .getDigests
  | 0x82 => some .getCertificate
  | 0x83 => some .challenge
  | 0xE0 => some .getMeasurements
  | _ => none

/-- R385: an ERROR message (the layout is DSP0274's, PRESUMED, log entry 29). -/
def spdmError (code : Nat) : List Byte := [0x13, 0x7F, BitVec.ofNat 8 code, 0]

/-- R385: the SPDM connection of a transport. -/
def State.conn (s : State) (t : Nat) : Spdm := mget {} s.spdm t
def State.setConn (s : State) (t : Nat) (c : Spdm) : State := { s with spdm := mset {} s.spdm t c }

/-- R385: the transport by which the firmware of a neighbour's core is reached; 1 is the management port (log entry 29). -/
def linkOf (gcid : Nat) : Nat := 2 + gcid

/-- R385, R387: an answer of the firmware goes out on a transport; over the link, as an ordered message of the first core of
the firmware column. -/
def State.sendOut (s : State) (t : Nat) (b : List Byte) : State :=
  if t < 2 then { s with sent := (t, b) :: s.sent }
  else
    let (src, s1) := s.number (.core (mkCore 0 s.fwCol))
    let np : NetPkt := ⟨t - 2, src, 0, true, 0, 0, 0, .mctp b⟩
    s1.post .packetRoute { x := 64, body := .net np }

/-! ### The challenge of a neighbour (R387) -/

/-- R387: the connection on which this cube's firmware asks that of cube `far` (the model's own number for it). -/
def askOf (far : Nat) : Nat := 2 ^ 40 + far

/-- R387: the requests of a challenge in SPDM's order: version, capabilities, algorithms, CHALLENGE of slot 0 with all
measurements, and all measurements signed (the layouts are DSP0274's, PRESUMED, log entry 29). -/
def spdmRequest (free stage : Nat) : List Byte :=
  match stage with
  | 0 => [0x10, 0x84, 0, 0]
  | 1 => [0x13, 0xE1, 0, 0, 0, 20, 0, 0, 0, 0, 0, 0] ++ (Config.nonce free).take 8
  | 2 => [0x13, 0xE3, 0, 0] ++ leBytes 2 32 ++ [1, 0] ++ leBytes 4 0x40 ++ leBytes 4 0x04 ++ List.replicate 16 0
  | 3 => [0x13, 0x83, 0, 0xFF] ++ (Config.nonce free).take 32 ++ List.replicate 8 0
  | _ => [0x13, 0xE0, 1, 0xFF] ++ (Config.nonce free).take 32 ++ List.replicate 9 0

/-- R387: the code of the answer to a request of a challenge. -/
def spdmResponse (stage : Nat) : Nat := [0x04, 0x61, 0x63, 0x03, 0x60].getD stage 0x60

/-- R387: the request of a stage goes to the neighbour's firmware column. -/
def State.askNeighbour (s : State) (far stage : Nat) (got : List Byte) : State :=
  ((s.useFree.setConn (askOf far) { stage := stage, busy := true, transcript := got }).sendOut
    (linkOf (far * 16384 + mkCore 0 s.fwCol)) (spdmRequest s.free stage))

/-- R387: the policy has judged a neighbour: its peer word is written, or its ports are disabled. -/
def State.judgeNeighbour (s : State) (far : Nat) (m : Word) : State :=
  let s1 := s.setConn (askOf far) {}
  if m = 0 then
    ((List.range 12).filter (fun p => s.portNbr p = far && !s.portHost p && s.portEn p)).foldl (fun t p =>
      (t.setCsrField (portOff p) 63 63 0).post .portEnable { x := p }) s1
  else if s.peer far = 0 then s1.setCsr (0x4100000 + 8 * far) m else s1

/-- R387: an answer of a neighbour's firmware to a challenge. A busy neighbour is asked again; one that answers anything but
what it is asked fails. -/
def State.neighbourAnswers (s : State) (far : Nat) (b : List Byte) : State :=
  let c := s.conn (askOf far)
  let code := (b.getD 1 0).toNat
  if !c.busy then s
  else if code = 0x7F && b.getD 2 0 = 0x03 then s.askNeighbour far c.stage c.transcript
  else if code != spdmResponse c.stage then s.judgeNeighbour far 0
  else if c.stage < 4 then s.askNeighbour far (c.stage + 1) (c.transcript ++ b)
  else s.judgeNeighbour far (Config.neighbourMask far (c.transcript ++ b))

/-- R378, R385, R387: a message of a neighbour's firmware. A request for measurements or certificates goes to the responder,
one that is not offered too; a RequestUpdate, and the image of an update, to the PLDM service (log entry 29). An answer goes to
the shipped firmware's own challenge. -/
def State.mctpIn (s : State) (np : NetPkt) (b : List Byte) : State :=
  let t := linkOf np.src.gcid
  let code := (b.getD 1 0).toNat
  if b.getD 0 0 = 0x05 then
    if code = 0x10 then s.post .requestUpdate { x := t }
    else if code = 0x15 then s.post .updateImageComplete { x := t, body := .bytes (b.drop 2) } else s
  else
    match spdmEvent code with
    | some i => s.post i { x := t, body := .bytes (b.drop 2) }
    | none =>
      if code < 0x80 then s.neighbourAnswers (gcidCube np.src.gcid) b
      else s.post .getVersion { x := t, y := code, body := .bytes (b.drop 2) }

/-! ## Requests of other cubes' TLBINV, ICINV and PRSET (R172, R173, R176) -/

/-- A request that cannot be done yet: its issuer is told once, and it is tried again. -/
def State.farAgain (s : State) (np : NetPkt) (id : Nat) : State :=
  (if np.ord then s else s.farReply np id 2).after 64 .packetRoute { x := 64, body := .net { np with ord := true } }

/-- The binding of another cube's PRSET. -/
def PrsetRun.ofRun (p : PrsetRun) (src : Src) (id : Nat) : Bool :=
  p.run = id && p.far.any (fun f => gcidCube f.gcid = gcidCube src.gcid)

/-- What another cube's request does here. -/
def State.farHere (s : State) (np : NetPkt) (op : FarOp) (id : Nat) : State :=
  match op with
  | .tlb va ctl =>
    if s.tlbInUse va ctl none then s.farAgain np id else (s.tlbRemove va ctl).farReply np id 0
  | .icache line rect =>
    if s.fetchUnderWay (64 * line) (s.scopeHas rect) none then s.farAgain np id
    else (s.icacheDrop (64 * line) (s.scopeHas rect)).farReply np id 0
  | .reserve base k slot =>
    let p : PrsetRun := { id := s.serial, core := 16384, ctx := 0, base := base, k := k, slot := slot, going := false,
                          far := some np.src, run := id }
    let me := (slot, 16384 + gcidCube np.src.gcid, id, 0)
    let s0 : State := { s with ptloads := s.ptloads.filter (fun e => e != me) }
    if s.prsets.any (fun q => q.ofRun np.src id) then s.farReply np id 0
    else if (s.ptloads.takeWhile (fun e => e != me)).any (s.arbiterHas slot) then
      (if s.ptloads.contains me then s else { s with ptloads := s.ptloads ++ [me] } : State).farAgain np id
    else if (s.prsetHomes p).any (fun h => 32 < (s.reserved h (s.prsets ++ [p])).length) then s0.farReply np id 1
    else ({ s0 with serial := s.serial + 1, prsets := s.prsets ++ [p] } : State).farReply np id 0
  | .release => ({ s with prsets := s.prsets.filter (fun (q : PrsetRun) => !q.ofRun np.src id) } : State).farReply np id 0
  | .switch =>
    match s.prsets.find? (fun q => q.ofRun np.src id) with
    | none => s.farReply np id 0
    | some p =>
      let s1 := if p.going then s
        else ({ s with prsets := s.prsets.map (fun (q : PrsetRun) =>
                  if q.ofRun np.src id then { q with going := true, far := some np.src } else q) } : State).recallRange
          p.base p.k
      s1.farReply np id 2

/-- An answer to a request of this cube: 2 means that it is under way there, so that it is no longer timed (R284). -/
def State.farDoneHere (s : State) (np : NetPkt) (id seq status : Nat) : State :=
  let src : Src := ⟨np.dest, 0, seq⟩
  if status = 2 then { s with outst := s.outst.map (fun (o : Outst) => if o.pkt.src = src then { o with waiting := true } else o) }
  else (s.answered src).farAnswer id (gcidCube np.src.gcid) status

/-- A packet has reached the cube that it names. A reply whose RET names a router here is split there, whoever made the
parts of its request (R290, R292). -/
def State.deliver (s : State) (np : NetPkt) : State :=
  if s.unawaited np then s
  else
    match np.body with
    | .coh ev m =>
      if m.ret % 128 != 127 && m.ret / 128 % 16384 = s.self && (ev = .datu || ev = .nack || ev = .flt) then
        s.post .decombine { x := m.ret % 128, y := ev.code, body := .msg m }
      else s.post ev.instr { body := .msg m }
    | .task p =>
      s.post (match p.kind with
        | .send _ _ => .sendMessageArrive
        | _ => .packetArrive) { body := .packet p }
    | .returned p => s.returnedHere p (np.src.agent = 1)
    | .answer core ctx val => s.answerHere np core ctx val
    | .notice c => s.post .portDownNotice { x := c }
    | .probe c => s.post .probe { x := c, y := gcidCube np.src.gcid, flag := np.cls = 2 }
    | .coll _ => s
    | .orphan m => s.post .journalSplit { x := homeTile m.la, body := .msg m }
    | .mctp b => s.mctpIn np b
    | .far op id _ _ => s.farHere np op id
    | .farDone id seq status => s.farDoneHere np id seq status

/-! ## PACKET_ROUTE (R275, R276, R287, R291) -/

/-- R275: a packet leaves router `r`. A request that may combine goes from router to router of this cube's tiles. -/
def State.forward (s : State) (r : Nat) (np : NetPkt) : State :=
  let home := tileOf (np.dest % 16384)
  if gcidCube np.dest != s.self then
    (if r = 64 then s.routeOut np else s.post .packetRoute { x := 64, z := np.inp, body := .net np })
  else if (NetPkt.amo np).isNone || r = home then s.deliver np
  else
    s.post .packetRoute { x := if r = 64 then home else (tilePath r home).getD 1 home, z := np.inp, body := .net np }

/-- R287, R291: a request queued at router `r` that an arriving one joins. -/
def State.partner (s : State) (r : Nat) (np : NetPkt) : Option (Nat × NetPkt) :=
  (s.router r).queue.find? (fun e => combinable e.2 np)

/-- R287: a request queued at the port of Chervil that an arriving one takes: port, entry, time. -/
def State.portPartner (s : State) (np : NetPkt) : Option (Nat × Nat × Nat × NetPkt) :=
  (s.routePort np).bind (fun p =>
    ((s.port p).queue.find? (fun e => combinable e.2.2 np)).map (fun e => (p, e.1, e.2.1, e.2.2)))

/-- R287, R291: a request that a later one may join: an add, which is held for one, or another RED, which only stands in the
queue of its output until its turn comes. -/
def waitsForPartner (np : NetPkt) : Bool :=
  match NetPkt.amo np with
  | some (m, op, _) => (op = .add || silent m) && m.tag != 7 && m.constituents.length < 8
  | _ => false

/-- R291: how long a request without a partner is held at router `r`, in cycles. -/
def State.holdFor (s : State) (r : Nat) (np : NetPkt) : Nat :=
  match NetPkt.amo np with
  | some (_, .add, _) => s.holdNs r * cyclesPerNs
  | _ => 0

/-- R287, R291: the request is queued at its output, or goes on; the time that it will be held adds to its age (R280). One that
is not held and leaves the cube is queued at its port alone. -/
def State.holdOrForward (s : State) (r : Nat) (np : NetPkt) : State :=
  let hold := s.holdFor r np
  if s.combines r && waitsForPartner np && !(hold = 0 && r = 64 && gcidCube np.dest != s.self) then
    let n := (s.router r).serial
    (s.updRouter r (fun x => { x with serial := n + 1, queue := x.queue ++ [(n, NetPkt.older np hold)] })).after hold
      .holdExpire { x := r, y := n }
  else s.forward r np

/-- R287, R288: a packet at router `r` joins a queued request, or is held or goes on. -/
def State.atRouter (s : State) (r : Nat) (np : NetPkt) : State :=
  if !s.combines r || (NetPkt.amo np).isNone then s.forward r np
  else
    match s.partner r np with
    | some (n, q) =>
      (match s.combine r q np with
        | (some c, s1) => s1.updRouter r (fun x =>
            { x with queue := x.queue.map (fun e => if e.1 = n then (n, c) else e) })
        | (none, s1) => s1.forward r np)
    | none =>
      match (if r = 64 && gcidCube np.dest != s.self then s.portPartner np else none) with
      | some (p, n, t, q) =>
        (match s.combine r q np with
          | (some c, s1) => s1.updPort p (fun x =>
              { x with queue := x.queue.map (fun e => if e.1 = n then (n, t, c) else e) })
          | (none, s1) => s1.forward r np)
      | none => s.holdOrForward r np

def EvBody.theNet : EvBody → NetPkt
  | .net p => p
  | _ => ⟨0, ⟨0, 0, 0⟩, 2, false, 0, 0, 0, .notice 0⟩

/-- R282: a packet that its own cube may not send. -/
def State.refusedAtSource (s : State) (np : NetPkt) : Bool :=
  let d := gcidCube np.dest
  d != s.self && gcidCube np.src.gcid = s.self && np.cls = 0 && (match np.body with
    | .task p => !s.peerAllows d (s.partOfAsid (Packet.asid p)) (Packet.level p)
    | .far _ _ asid level => !s.peerAllows d (s.partOfAsid asid) level
    | _ => !s.validCube d)

/-- R276, R280, R282, R284: PACKET_ROUTE at router `x`; `z` is the port that it came in on plus 1, or 0. -/
def execPacketRoute (s : State) : Out :=
  let np := { EvBody.theNet s.arg.body with inp := s.arg.z }
  let r := s.arg.x
  if ageLimit ≤ np.age then .next s
  else
    let s1 := s.keepRequest np
    if s1.refusedAtSource np || (r = 64 && gcidCube np.dest = s.self && s1.refusedHere np) then .next (s1.refuseNet r np)
    else .next (s1.atRouter r np)

/-- R291: HOLD_EXPIRE of request `y` at router `x`. -/
def execHoldExpire (s : State) : Out :=
  match (s.router s.arg.x).queue.find? (fun e => e.1 = s.arg.y) with
  | none => .next s
  | some (n, np) =>
    .next ((s.updRouter s.arg.x (fun x => { x with queue := x.queue.filter (fun e => e.1 != n) })).forward s.arg.x np)

/-! ## Replies (R290, R292, R293) -/

/-- R290: the reply to one part of a combined request. -/
def State.partReply (s : State) (ev : Ev) (m : Msg) (part : Src) (ret v : Nat) : State :=
  s.reply ev { m with src := part, agent := part.agentId, ret := ret, val := v, cons := [] }

/-- The event of a code that a reply to a router has. -/
def replyEv (code : Nat) : Ev := if code = Ev.nack.code then .nack else if code = Ev.flt.code then .flt else .datu

/-- R290, R292: DECOMBINE at router `x`; `y` is the code of the reply's event. DESIGN CHOICE (log entry 82): a refusal or fault
of a combined request whose record is missing is dropped and not counted, so that the sources send again (R284). -/
def execDecombine (s : State) : Out :=
  let r := s.arg.x
  let m := s.arg.body.theMsg
  let ev := replyEv s.arg.y
  match (s.router r).recs.find? (fun c => c.id = m.src && c.n = m.ret / 2 ^ 21) with
  | none => if ev = .datu then .next (s.orphan r m) else .next s
  | some c =>
    let w := if c.w64 then 64 else 32
    let s1 := s.updRouter r (fun x => { x with recs := x.recs.filter (fun o => o.n != c.n) })
    let s2 := if c.reply1 then s1.partReply ev m c.part1 c.ret1 m.val else s1
    .next (if c.reply2 then s2.partReply ev m c.part2 c.ret2 ((m.val + c.s1) % 2 ^ w) else s2)

/-- R293: JOURNAL_SPLIT at tile `x`. -/
def execJournalSplit (s : State) : Out :=
  let t := s.arg.x
  let m := s.arg.body.theMsg
  match (s.tile t).journal.find? (fun j => j.cons.any (fun c => c.1.src = m.src)) with
  | none => .next s
  | some j =>
    .next (j.cons.foldl (fun u c =>
      if c.1.reply then
        u.toAgent .datu { m with src := c.1.src, dst := c.1.src.agentId, val := c.2, ret := 127, cons := [] }
      else u) (s.bumpCsr (cmbOff t + 8) 63 48))

/-- R292: RECORD_EXPIRE of record `y` at router `x`. -/
def execRecordExpire (s : State) : Out :=
  .next (s.updRouter s.arg.x (fun x => { x with recs := x.recs.filter (fun c => c.n != s.arg.y) }))

/-- R286: JOURNAL_ENTRY_EXPIRE of entry `y` at tile `x`. -/
def execJournalEntryExpire (s : State) : Out :=
  .next (s.updTile s.arg.x (fun t => { t with journal := t.journal.filter (fun j => j.n != s.arg.y) }))

/-- R285: REQUEST_FILTER_EXPIRE of entry `y` at tile `x`. -/
def execRequestFilterExpire (s : State) : Out :=
  .next (s.updTile s.arg.x (fun t => { t with filter := t.filter.filter (fun f => f.n != s.arg.y) }))

end Sys2Proof.Machine
end

