-- ==== Sys2Proof/Machine/Events.lean ====
section
/-! DEFINITION. The coherence events as steps (R242, R243, R246): one meaning for each, all of them the presentation of
the event to its protocol table; and stores to the cube control space that come from elsewhere (R303). -/

namespace Sys2Proof.Machine

/-- R303: a load of this cube's control space by another cube. -/
def State.ctlReadFor (s : State) (m : Msg) : State :=
  s.reply .datu { m with data := patch (List.replicate 64 0) m.off (leBytes 8 (s.ctlRead m.la).toNat) }

/-- R303: a store to this cube's control space by another cube. -/
def State.ctlWriteFor (s : State) (m : Msg) : State :=
  match s.duplicate .uwrite m with
  | some s1 => s1
  | none =>
    let v := BitVec.ofNat 64 (leNat (m.bytes.map Prod.snd))
    ((s.ctlWrite m.la v m.level none).reply .ack { m with val := 0 }).filterAdd .ack m 0

/-- R242: GETS. -/
def execGets (s : State) : Out := .next (s.protocol .gets s.arg.body.theMsg)

/-- R242: GETX. -/
def execGetx (s : State) : Out := .next (s.protocol .getx s.arg.body.theMsg)

/-- R242: PUTR. -/
def execPutr (s : State) : Out := .next (s.protocol .putr s.arg.body.theMsg)

/-- R242: WBR. -/
def execWbr (s : State) : Out := .next (s.protocol .wbr s.arg.body.theMsg)

/-- R242: UREAD. -/
def execUread (s : State) : Out :=
  let m := s.arg.body.theMsg
  .next (if farCtl m then s.ctlReadFor m else s.protocol .uread m)

/-- R242: UWRITE. -/
def execUwrite (s : State) : Out :=
  let m := s.arg.body.theMsg
  .next (if farCtl m then s.ctlWriteFor m else s.protocol .uwrite m)

/-- R242: AMOR. -/
def execAmor (s : State) : Out := .next (s.protocol .amor s.arg.body.theMsg)

/-- R242: DROPR. -/
def execDropr (s : State) : Out := .next (s.protocol .dropr s.arg.body.theMsg)

/-- R242: RECALL. -/
def execRecall (s : State) : Out := .next (s.protocol .recall s.arg.body.theMsg)

/-- R242: INV. -/
def execInv (s : State) : Out := .next (s.protocol .inv s.arg.body.theMsg)

/-- R242: RCLS. -/
def execRcls (s : State) : Out := .next (s.protocol .rcls s.arg.body.theMsg)

/-- R242: RCLI. -/
def execRcli (s : State) : Out := .next (s.protocol .rcli s.arg.body.theMsg)

/-- R242: UPD. -/
def execUpd (s : State) : Out := .next (s.protocol .upd s.arg.body.theMsg)

/-- R242: PUTG. -/
def execPutg (s : State) : Out := .next (s.protocol .putg s.arg.body.theMsg)

/-- R242: DISC. -/
def execDisc (s : State) : Out := .next (s.protocol .disc s.arg.body.theMsg)

/-- R242: DATS. -/
def execDats (s : State) : Out := .next (s.protocol .dats s.arg.body.theMsg)

/-- R242: DATX. -/
def execDatx (s : State) : Out := .next (s.protocol .datx s.arg.body.theMsg)

/-- R242: DATU. -/
def execDatu (s : State) : Out := .next (s.protocol .datu s.arg.body.theMsg)

/-- R242: ACK. -/
def execAck (s : State) : Out := .next (s.protocol .ack s.arg.body.theMsg)

/-- R242: DATH. -/
def execDath (s : State) : Out := .next (s.protocol .dath s.arg.body.theMsg)

/-- R242: ACKH. -/
def execAckh (s : State) : Out := .next (s.protocol .ackh s.arg.body.theMsg)

/-- R242: PUTN. -/
def execPutn (s : State) : Out := .next (s.protocol .putn s.arg.body.theMsg)

/-- R242: NACK. -/
def execNack (s : State) : Out := .next (s.protocol .nack s.arg.body.theMsg)

/-- R242: FLT. -/
def execFlt (s : State) : Out := .next (s.protocol .flt s.arg.body.theMsg)

/-- R303: REGISTER_WRITE: the store of `val` at offset `y` with level `x`; a store of the kernel comes from the
partition in `z`. -/
def execRegisterWrite (s : State) : Out := .next (s.ctlWrite s.arg.y s.arg.val s.arg.x (some s.arg.z))

end Sys2Proof.Machine
end

