-- ==== Sys2Proof/Machine/Collective.lean ====
section
/-! DEFINITION. Collective commands (R131 to R135, R296 to R302): contributions and their reduction in the group's
tree, results and their delivery, multicasts with the acknowledgement of every receiver, and the faults of a
group. How the end of a multicast and the fault of an instance travel along the tree is the model's own
(log entry 25): packets with OP 0xE and 0xD (an answer) and 0xF (a fault). -/

namespace Sys2Proof.Machine

def EvBody.theColl : EvBody → CPkt
  | .coll c => c
  | _ => ⟨0, 0, 0, 0, 0, 0, [], 0, 0, 0, 0, 0⟩

/-! ## The group at this cube (R296) -/

def gwValid (w : Word) : Bool := wbit w 63
def gwLocal (w : Word) : Bool := wbit w 62
def gwDeliv (w : Word) : Bool := wbit w 61
def gwRoot (w : Word) : Bool := wbit w 60
def gwUdel (w : Word) : Bool := wbit w 59
def gwUp (w : Word) : Nat := wbits w 57 54
def gwCluster (w : Word) : Nat := wbits w 53 44
def portsIn (w : Word) (lo : Nat) : List Nat := (List.range 12).filter (fun p => wbit w (lo + p))
def gwDown (w : Word) : List Nat := portsIn w 32
def gwDdown (w : Word) : List Nat := portsIn w 20

/-- The port number of the local member's own packets. -/
def localPort : Nat := 12

/-- R298: the inputs of a packet, in order. -/
def gwInputs (w : Word) : List Nat := (if gwLocal w then [localPort] else []) ++ gwDown w

/-- The tree edges of the group at this cube. -/
def gwEdges (w : Word) : List Nat := (if gwRoot w then [] else [gwUp w]) ++ gwDown w

/-- R300: the ports on which a multicast that came on port `q` goes on. -/
def gwMcast (w : Word) (q : Nat) : List Nat :=
  ((if gwUdel w && !gwRoot w then [gwUp w] else []) ++ gwDdown w).filter (fun p => p != q)

/-- R280: when the age of a packet that is here now reaches its limit. -/
def State.ageEnds (s : State) (age : Nat) : Nat := s.now + (ageLimit - age)

/-- R280: the age of a packet that came in with the operand `x` of its event (0: it has not travelled). -/
def State.ageNow (s : State) (x : Nat) : Nat := if x = 0 then 0 else ageLimit - (x - s.now)

/-- R280: the packet of the event is discarded for its age. -/
def State.aged (s : State) : Bool := s.arg.x != 0 && s.arg.x ≤ s.now

/-- A collective packet goes out on a tree edge (R298), with the next number of the collective port (R273, R283). -/
def State.collSend (s : State) (p : Nat) (c : CPkt) (age : Nat := 0) : State :=
  let (src, s1) := s.number (.coll (gwCluster (s.groupWord c.group)))
  s1.portEnqueue p ⟨s.portNbr p * 16384, src, 3, true, 0, age, 0, .coll { c with port := 0 }⟩

/-! ## Buffers (R301) -/

/-- The number that tells a multicast's packets from those of every other command. -/
def mcastUse (c : CPkt) : Nat := 2 ^ 64 * (c.sender + 1) + c.inst

/-- Packets that wait at this cube for a group. A multicast's packet has gone on; what is kept of it is the model's own. -/
def State.collHeld (s : State) (g : Nat) : Nat :=
  ((s.colls.filter (fun c => c.group = g && c.index < 2 ^ 20 && c.use < 2 ^ 64)).map (fun c => c.inputs.length)).sum

/-- R301: two buffers of the group's own, then the pool. -/
def State.collRoom (s : State) (g : Nat) : Bool :=
  s.collHeld g < 2 ||
    decide ((((s.colls.map (fun c => c.group)).eraseDups).map (fun k => s.collHeld k - 2)).sum < 16384)

/-- A collective packet that waits for a buffer. -/
def heldColl (i : Item) : Bool :=
  match i with
  | .event .collectivePacketArrive _ | .event .cmcastPacketArrive _ => true
  | _ => false

/-- R301: COLLECTIVE_BUFFER_FREE: packets that wait at the ports are taken up again. -/
def execCollectiveBufferFree (s : State) : Out :=
  .next { s with held := s.held.filter (fun i => !heldColl i), agenda := s.agenda ++ s.held.filter heldColl }

/-- A buffer is free. -/
def State.collFreed (s : State) : State :=
  if s.held.any heldColl then s.post .collectiveBufferFree {} else s

/-! ## Faults of an instance (R132, R297, R302) -/

/-- The cause with which an instance has faulted at this cube; instance 0 stands for every one. -/
def State.collDead (s : State) (g use : Nat) : Option Nat :=
  ((s.colls.find? (fun c => c.group = g && c.index = 2 ^ 20 && (c.use = 0 || c.use = use))).bind (fun c =>
    c.inputs.head?)).map (fun c => c.ty)

/-- An address that the specification does not state (R328). -/
def State.freeAddr (s : State) : Nat × State :=
  let (b, s1) := s.freeBytes 8
  (leNat b, s1)

/-- A command of the group's member cluster faults. -/
def State.collCmdFault (s : State) (cl : Nat) (c : Cmd) (cause : Nat) (resumable : Bool) : State :=
  let (a, s1) := s.freeAddr
  (s1.updCmd cl c.num (fun x => { x with use := if c.op = 0x49 then 0 else x.use, delivered := [], refused := none })).post
    .engineFault { x := cl, y := c.num, body := .fault ⟨cause, a, c.cursor, 0, resumable⟩ }

/-- R132, R297, R302: an instance (0: every instance that is not complete) faults at this cube, and at the other
cubes of the tree, except behind port `from_`. -/
def State.collFail (s : State) (g use cause from_ : Nat) : State :=
  let w := s.groupWord g
  if !gwValid w || (s.collDead g use).isSome then s
  else
    let mark : CPkt := ⟨g, use, 0, 0, 0xF, cause, [], from_, 0, 0, 0, 0⟩
    let keep := fun (c : CollPart) => c.group != g || c.index = 2 ^ 20 || (use != 0 && c.use != use)
    let s1 : State := { s with colls := s.colls.filter keep ++ [⟨g, use, 2 ^ 20, [mark]⟩] }
    let cl := gwCluster w
    let hit := (s1.cluster cl).cmds.filter (fun (c : Cmd) => gwLocal w && c.st = .running && c.fault.isNone &&
      cwGroup c.vb = g && ((c.op = 0x48 && c.use != 0 && (use = 0 || c.use = use)) || (c.op = 0x49 && use = 0)))
    let s2 := hit.foldl (fun t c => t.collCmdFault cl c cause (c.op = 0x49)) s1
    (((gwEdges w).filter (fun p => p != from_)).foldl (fun t p => t.collSend p mark) s2).collFreed

/-- R297: a packet came on a port that the entry does not name. It is discarded, and the instance faults at every member:
those of this cube's tree and those behind that port. -/
def State.collStray (s : State) (c : CPkt) : State :=
  let s1 := s.collFail c.group c.inst 0x09 16
  if c.port < 12 then s1.collSend c.port ⟨c.group, c.inst, 0, 0, 0xF, 0x09, [], c.port, 0, 0, 0, 0⟩ else s1

/-- R302: a port has left the up state. -/
def State.collPortDown (s : State) (p : Nat) : State :=
  (List.range 4096).foldl (fun t g =>
    let w := t.groupWord g
    if gwValid w && (gwEdges w).contains p then t.collFail g 0 0x09 p else t) s

/-! ## Reduction (R133, R298) -/

/-- R133: one node operation on elements. -/
def collElem (op ty a b : Nat) : Nat :=
  let t := etyOf ty
  if ty = 0xA then
    let va := fmtF.decode a
    let vb := fmtF.decode b
    let r := match op with
      | 0 => (va.add 0 vb).1
      | 1 => (FVal.minmax true va vb).1
      | _ => (FVal.minmax false va vb).1
    (fmtF.round fpNearest false r).1
  else
    match op with
    | 0 => (a + b) % 2 ^ t.width
    | 1 => if intOf t a < intOf t b then b else a
    | _ => if intOf t b < intOf t a then b else a

/-- R133: one node operation on packets. -/
def collNode (op ty : Nat) (a b : List Byte) : List Byte :=
  let t := etyOf ty
  elemBytes (t.width / 8) (((rowElems t a).zip (rowElems t b)).map (fun e => collElem op ty e.1 e.2))

/-- R298: the inputs of a packet are folded in their order. -/
def collFold : List CPkt → Option CPkt
  | [] => none
  | c :: rest => some (rest.foldl (fun acc d => { acc with bytes := collNode c.op c.ty acc.bytes d.bytes }) c)

/-- R132: the contributions agree in length, type and operation. -/
def collAgree (l : List CPkt) : Bool :=
  match l with
  | [] => true
  | c :: rest => rest.all (fun d => d.total = c.total && d.op = c.op && d.ty = c.ty)

/-- Packets of a collective of a length. -/
def packetsOf (n : Nat) : Nat := (n + 255) / 256

/-- R299: one packet of an instance has passed this cube; the last one advances INST. -/
def State.collPassed (s : State) (g use index total : Nat) : State :=
  let l := (use, index) :: ((s.group g).passed.filter (fun e => e != (use, index)))
  if packetsOf total ≤ (l.filter (fun e => e.1 = use)).length then
    let n := (s.csrField (groupOff g + 8) 31 0 + 1) % 2 ^ 32
    (s.setCsrField (groupOff g + 8) 31 0 n).updGroup g (fun x => { x with passed := l.filter (fun e => e.1 != use) })
  else s.updGroup g (fun x => { x with passed := l })

/-- R298: the inputs of packet `index` of an instance are complete: they are combined. -/
def State.collCombine (s : State) (g use index : Nat) (ins : List CPkt) : State :=
  let w := s.groupWord g
  let s1 := { s with colls := s.colls.filter (fun c => !(c.group = g && c.use = use && c.index = index)) }
  if !collAgree ins then s1.collFail g use 0x11 16
  else
    match collFold ins with
    | none => s1
    | some acc =>
      let s2 := if gwRoot w then s1.post .collectiveResultDeliver { body := .coll acc } else s1.collSend (gwUp w) acc
      let s3 := if !gwRoot w && !gwDeliv w && (gwDdown w).isEmpty then s2.collPassed g use index acc.total else s2
      s3.collFreed

/-- The contribution that an item of the agenda brings. -/
def Item.contribution (i : Item) : Option CPkt :=
  match i with
  | .event .collectivePacketArrive a =>
    (match a.body with
      | .coll c => some c
      | _ => none)
  | _ => none

/-- R298, R301: a contribution of a child or of the local member. One that finds no buffer waits at its port; when all of a
packet's inputs are here or at the ports, it needs none. One that is taken up again after 100 µs is discarded, and one that
completes a set is used whatever its age (R280; DESIGN CHOICE, log entry 78). -/
def State.collInput (s : State) (c : CPkt) : State :=
  let w := s.groupWord c.group
  if (s.collDead c.group c.inst).isSome then s
  else
    let mine := fun (p : CollPart) => p.group = c.group && p.use = c.inst && p.index = c.index
    let same := fun (d : CPkt) => d.group = c.group && d.inst = c.inst && d.index = c.index
    let old := match s.colls.find? mine with
      | some p => p.inputs
      | none => []
    let waiting := (s.held.filterMap Item.contribution).filter same
    let ins := old.filter (fun i => i.port != c.port) ++ [c]
    let all := (gwInputs w).filterMap (fun p => (ins ++ waiting).find? (fun i => i.port = p))
    if all.length = (gwInputs w).length then
      ({ s with held := s.held.filter (fun i => !i.contribution.any same) } : State).collCombine c.group c.inst c.index all
    else if !s.collRoom c.group then { s with held := s.held ++ [.event .collectivePacketArrive { s.arg with body := .coll c }] }
    else { s with colls := s.colls.filter (fun p => !mine p) ++ [⟨c.group, c.inst, c.index, ins⟩] }

/-- R297, R298: COLLECTIVE_PACKET_ARRIVE: a contribution, a result on the port toward the root, or a fault. -/
def execCollectivePacketArrive (s : State) : Out :=
  let c := EvBody.theColl s.arg.body
  let w := s.groupWord c.group
  if s.aged then .next s
  else if c.op = 0xF then .next (s.collFail c.group c.inst c.ty c.port)
  else if gwValid w && (gwInputs w).contains c.port then .next (s.collInput c)
  else if gwValid w && c.port = gwUp w && !gwRoot w then
    .next (s.post .collectiveResultDeliver { x := s.arg.x, body := .coll c })
  else .next (s.collStray c)

/-! ## Delivery (R134, R299) -/

/-- The command of the local member that an instance delivers to, whether it runs, has faulted or waits to run again. -/
def State.credOf (s : State) (w : Word) (c : CPkt) : Option Cmd :=
  if gwLocal w && gwDeliv w then
    (s.cluster (gwCluster w)).cmds.find? (fun x => x.op = 0x48 && x.use = c.inst && cwGroup x.vb = c.group &&
      (x.st = .running || x.st = .faulted || x.st = .queued) && !x.delivered.contains c.index)
  else none

/-- R134: the line of a delivery, under the translation that the member port holds. -/
def State.heldTarget (s : State) (cl : Nat) (c : Cmd) (va : Word) : Target :=
  if inWindow va then .window cl (winOff va)
  else
    match c.hold.find? (fun h => h.hits c.asid va) with
    | none => .refused
    | some h =>
      let gpa := leafGpa h.pte.toNat h.lvl va
      match s.stripeFor gpa c.asid c.level with
      | some home => .line home gpa (bitsOf h.pte.toNat 10 9)
      | none => .refused

/-- The pieces of a packet at an address with their bytes. -/
def packetData (base : Word) (bytes : List Byte) : List (Word × List Byte) :=
  (rowPieces 0 bytes.length).map (fun p => (base + BitVec.ofNat 64 p.1, (bytes.drop p.1).take p.2))

/-- The maker of the accesses of a delivery. -/
def State.deliverWho (s : State) (x : Cmd) (cl : Nat) (c : CPkt) : Who :=
  { owner := ⟨cl, 2, x.num * 4096 + c.index⟩, core := x.core, asid := x.asid, level := x.level, root := none,
    resume := some (.collectiveResultDeliver, { x := s.arg.x, body := .coll c }) }

/-- R134: the cause with which a home of this cube would refuse a line of a packet as things stand. -/
def State.lineRefuses (s : State) (w : Who) (data : List (Word × List Byte)) (t : LineParts × Target) : Option (Nat × Word) :=
  match t.2 with
  | .line h gpa _ =>
    let va := t.1.1 + BitVec.ofNat 64 (spanOf t.1.2).1
    (match (if h.cube = s.self then s.writeSparse w h gpa (lineBytes t.1.1 data) va else .stop s) with
      | .ok r _ =>
        (match r.got with
          | .fail c => some (engineCause c, va)
          | .data _ => none)
      | .stop _ => none)
  | _ => none

/-- R134: the homes of other cubes are asked in turn whether they would refuse a line of a packet. -/
def State.askPacket (s : State) (w : Who) (data : List (Word × List Byte)) :
    List (LineParts × Target) → MRes (Option (Nat × Word))
  | [] => .ok none s
  | t :: rest =>
    match t.2 with
    | .line h gpa _ =>
      if h.cube = s.self then s.askPacket w data rest
      else
        let va := t.1.1 + BitVec.ofNat 64 (spanOf t.1.2).1
        (s.askSparse w h gpa (lineBytes t.1.1 data) va).bind (fun r s1 =>
          match r.got with
          | .data _ => s1.askPacket w data rest
          | .fail c => .ok (some (engineCause c, va)) s1)
    | _ => s.askPacket w data rest

/-- R134, R135: a packet is written, or refused as a whole: nothing is written where a home refuses one of its lines, as things
stand when it is asked (DESIGN CHOICE, log entry 71). -/
def State.writePacket (s : State) (w : Who) (data : List (Word × List Byte)) (ts : List (LineParts × Target)) :
    MRes (Option (Nat × Word)) :=
  (s.askPacket w data ts).bind (fun f s1 =>
    match f.or (if (s1.memo w.owner)[s1.accs]?.isSome then none else ts.findSome? (s1.lineRefuses w data)) with
    | some g => .ok (some g) s1
    | none => s1.engWrite w data ts)

/-- R134: the packet is written to the local member; the failure's cause. -/
def State.writeMember (s : State) (cl : Nat) (x : Cmd) (c : CPkt) : MRes (Option Nat) :=
  let data := packetData (x.vd + BitVec.ofNat 64 (256 * c.index)) c.bytes
  let ts := (linesOf (data.map (fun p => (p.1, p.2.length)))).map (fun e =>
    (e, s.heldTarget cl x (e.1 + BitVec.ofNat 64 (spanOf e.2).1)))
  if ts.any (fun t => match t.2 with
      | .refused => true
      | _ => false) then .ok (some 0x09) s
  else if ts.any (fun t => match t.2 with
      | .window k off => s.fwBlocks k off x.level || s.carveBlocks k off 16 x.level
      | _ => false) then .ok (some 0x08) s
  else (s.writePacket (s.deliverWho x cl c) data ts).bind (fun f s1 => .ok (f.map Prod.fst) s1)

/-- R134: the outcome of a delivery to the member. -/
def State.memberDone (s : State) (cl : Nat) (x : Cmd) (c : CPkt) (f : Option Nat) : State :=
  let s0 := { s.dropMemo (s.deliverWho x cl c).owner with accs := 0 }
  let addr := (x.vd + BitVec.ofNat 64 (256 * c.index)).toNat
  let s1 := match f with
    | none => (s0.updCmd cl x.num (fun y =>
        { y with delivered := c.index :: y.delivered, done := y.done + c.bytes.length })).semAddOwned (cwSem x.vb) 1
    | some cause => s0.updCmd cl x.num (fun y =>
        { y with delivered := c.index :: y.delivered,
                 refused := some (y.refused.getD ⟨cause, addr, c.index / 64, 0, false⟩) })
  if x.parts ≤ x.cursor then s1.post .engineCommandComplete { x := cl, y := x.num } else s1

/-- R299: the result goes on to the children that hold a delivery member. -/
def State.passResult (s : State) (c : CPkt) : State :=
  let w := s.groupWord c.group
  ((gwDdown w).foldl (fun t p => t.collSend p c (s.ageNow s.arg.x)) s).collPassed c.group c.inst c.index c.total

/-- R299: COLLECTIVE_RESULT_DELIVER. -/
def execCollectiveResultDeliver (s : State) : Out :=
  let c := EvBody.theColl s.arg.body
  let w := s.groupWord c.group
  if !gwValid w || (s.collDead c.group c.inst).isSome then .next s
  else
    match s.credOf w c with
    | none => .next (s.passResult c)
    | some x =>
      .next ((s.writeMember (gwCluster w) x c).fin (fun f s1 =>
        (s1.memberDone (gwCluster w) x c f).passResult c))

/-! ## CRED (R132 to R134) -/

/-- R134: the translations of a chunk's destination, the last ones that its owner has made. -/
def State.holdOf (s : State) (w : Who) (ts : List (LineParts × Target)) : List TlbEntry :=
  let n := (ts.filter (fun t => match t.2 with
    | .line _ _ _ => true
    | _ => false)).length
  ((viaOf (s.memo w.owner)).reverse.take n).eraseDups

/-- R136: a fault of a running command is recorded in the step that finds it. -/
def State.cmdFaults (s : State) (cl : Nat) (num : Nat) (f : EFault) : State :=
  match s.cmd cl num with
  | some c => (s.cmdBoundary cl num).recordFault cl c f
  | none => s

/-- The packets of chunk `q` of a collective command. -/
def Cmd.packets (c : Cmd) (q : Nat) (data : List Byte) (dst sender : Nat) : List CPkt :=
  (List.range (packetsOf data.length)).map (fun k =>
    ⟨cwGroup c.vb, if c.op = 0x48 then c.use else c.num, 64 * q + k, cwBytes c.vb, cwOp c.vb, cwType c.vb,
     (data.drop (256 * k)).take 256, localPort, dst, cwSem c.vb, c.asid, sender⟩)

/-- R134: everything has been contributed: the command completes once every delivery to it is settled. -/
def State.credSettle (s : State) (cl : Nat) (c : Cmd) : State :=
  if gwDeliv (s.groupWord (cwGroup c.vb)) && c.delivered.length < packetsOf (cwBytes c.vb) then s
  else
    match c.refused with
    | some f => s.cmdFaults cl c.num f
    | none => s.finishCmd cl c 0

/-- R132, R134: the next chunk of a CRED. -/
def State.credChunk (s : State) (cl : Nat) (c : Cmd) : State :=
  let q := c.cursor
  let lo := chunkSize * q
  let hi := Nat.min (cwBytes c.vb) (lo + chunkSize)
  let src := piecesAt c.va lo hi
  let dst := piecesAt c.vd lo hi
  let w := c.who cl
  let out := (s.engFetch w src).bind (fun r s1 =>
    match r with
    | .error e => MRes.ok (Except.error (⟨e, lowest (src.map Prod.fst), q, 0, true⟩ : EFault)) s1
    | .ok m =>
      let data := src.flatMap (pieceBytes m)
      if gwDeliv (s1.groupWord (cwGroup c.vb)) then
        (s1.engTargets w .store (linesOf dst)).bind (fun t s2 =>
          match t with
          | .error e => .ok (.error ⟨e, lowest (dst.map Prod.fst), q, 0, true⟩) s2
          | .ok ts => .ok (.ok (data, s2.holdOf w ts)) s2)
      else .ok (.ok (data, [])) s1)
  out.fin (fun r s1 =>
    match r with
    | .error f => (s1.cmdBoundary cl c.num).post .engineFault { x := cl, y := c.num, body := .fault f }
    | .ok (data, hold) =>
      let s2 := (s1.cmdBoundary cl c.num).updCmd cl c.num (fun x =>
        { x with cursor := q + 1, hold := (hold ++ x.hold).eraseDups })
      if c.stopping then s2.dropCmd cl c.num
      else
        ((c.packets q data 0 0).foldl (fun t p => t.post .collectivePacketArrive { body := .coll p }) s2).after
          engineCycles .engineCommandComplete { x := cl, y := c.num })

/-- R131, R132, R297: a CRED goes on: it takes its instance if it has none, and contributes chunk after chunk. -/
def State.credPart (s : State) (cl : Nat) (c : Cmd) : State :=
  let g := cwGroup c.vb
  if !s.groupAdmits g cl c.asid then s.collCmdFault cl c 0x09 (c.use = 0)
  else if c.use = 0 then
    let n := (s.group g).uses + 1
    ((s.updGroup g (fun x => { x with uses := n })).updCmd cl c.num (fun x => { x with use := n })).post
      .engineCommandComplete { x := cl, y := c.num }
  else
    match s.collDead g c.use with
    | some cause => s.collCmdFault cl c cause false
    | none => if chunksOf (cwBytes c.vb) ≤ c.cursor then s.credSettle cl c else s.credChunk cl c

/-! ## CMCAST (R135, R300) -/

/-- R127, R131: the packets of chunk `q` of a collective command. -/
def Cmd.chunkPackets (c : Cmd) (q : Nat) : Nat :=
  packetsOf (Nat.min (cwBytes c.vb) (chunkSize * (q + 1)) - chunkSize * q)

/-- R135: the cluster and level of a sender. -/
def senderOf (level cube cl : Nat) : Nat := level * 2 ^ 24 + cube * 2 ^ 10 + cl

/-- An answer to a multicast packet: 0, or the cause of a refusal with its address and cube. -/
def mcastAnswer (c : CPkt) (cause addr cube port : Nat) (resumable : Bool) : CPkt :=
  { c with op := if resumable then 0xE else 0xD, ty := cause, bytes := [], dst := addr, asid := cube, port := port }

/-- R135: the sender learns that every receiver has written or refused a packet; the last packet of the chunk settles it. -/
def State.mcastSettled (s : State) (c a : CPkt) : State :=
  let cl := c.sender % 2 ^ 10
  match s.cmd cl c.inst with
  | none => s
  | some x =>
    if x.use != c.index / 64 + 1 then s
    else
      let f : Option EFault := if a.ty = 0 then none else some ⟨a.ty, a.dst, c.index / 64, a.asid, a.op = 0xE⟩
      let got := c.index :: x.delivered.filter (fun i => i != c.index)
      let s1 := s.updCmd cl x.num (fun y =>
        { y with delivered := got, refused := match y.refused with
                   | some r => some r
                   | none => f })
      if got.length < x.chunkPackets (c.index / 64) then s1
      else s1.post .engineCommandComplete { x := cl, y := x.num }

/-- R135, R300: once this cube and those behind it have answered, the answer goes back. -/
def State.mcastAnswered (s : State) (c : CPkt) (ans : List CPkt) : State :=
  let w := s.groupWord c.group
  let want := (if gwDeliv w then 1 else 0) + (gwMcast w c.port).length
  let mine := fun (p : CollPart) => p.group = c.group && p.use = mcastUse c && p.index = c.index
  let rest := s.colls.filter (fun p => !mine p)
  if ans.length < want then { s with colls := rest ++ [⟨c.group, mcastUse c, c.index, c :: ans⟩] }
  else
    let worst := (ans.find? (fun a => a.ty != 0)).getD (mcastAnswer c 0 0 0 0 true)
    let s1 := { s with colls := rest }.collFreed
    if c.port = localPort then s1.mcastSettled c worst else s1.collSend c.port worst

/-- An answer of a port arrives. -/
def State.mcastAnswerArrive (s : State) (a : CPkt) : State :=
  match s.colls.find? (fun p => p.group = a.group && p.use = mcastUse a && p.index = a.index) with
  | some p =>
    (match p.inputs with
      | c :: ans => s.mcastAnswered c (ans.filter (fun o => o.port != a.port) ++ [a])
      | [] => s)
  | none => s

/-- The maker of the accesses of a multicast's delivery: at the receiving cube in the sender's ASID (R135). -/
def mcastWho (s : State) (cl : Nat) (c : CPkt) : Who :=
  { owner := ⟨cl, 3, mcastUse c * 2 ^ 20 + c.index⟩, core := coreAt cl 0, asid := c.asid, level := c.sender / 2 ^ 24,
    root := none, resume := some (.cmcastPacketArrive, { s.arg with body := .coll c }) }

/-- R135: the lines of a packet are translated and checked in turn; the first failure comes with its address. -/
def State.mcastTargets (s : State) (w : Who) : List LineParts → MRes (Except (Nat × Word) (List (LineParts × Target)))
  | [] => .ok (.ok []) s
  | e :: rest =>
    (s.engTargets w .store [e]).bind (fun r s1 =>
      match r with
      | .error c => .ok (.error (c, e.1 + BitVec.ofNat 64 (spanOf e.2).1)) s1
      | .ok l => (s1.mcastTargets w rest).bind (fun q s2 => .ok (q.map (fun m => l ++ m)) s2))

/-- R135: the packet is written at this cube's member: the cause and address of a refusal. -/
def State.mcastWrite (s : State) (w : Who) (c : CPkt) : MRes (Option (Nat × Nat)) :=
  let base := BitVec.ofNat 64 (c.dst + 256 * c.index)
  let data := packetData base c.bytes
  (s.mcastTargets w (linesOf (data.map (fun p => (p.1, p.2.length))))).bind (fun r s1 =>
    match r with
    | .error e => .ok (some (e.1, e.2.toNat)) s1
    | .ok ts => (s1.writePacket w data ts).bind (fun f s2 => .ok (f.map (fun e => (e.1, e.2.toNat))) s2))

/-- R300: the packet goes on, and this cube's own answer is noted. -/
def State.mcastForward (s : State) (c : CPkt) (own : List CPkt) : State :=
  let w := s.groupWord c.group
  ((gwMcast w c.port).foldl (fun t p => t.collSend p c (s.ageNow s.arg.x)) s).mcastAnswered c own

/-- R297, R300: CMCAST_PACKET_ARRIVE. A packet on a port that the entry does not name is discarded, and its sender
records the fault. -/
def execCmcastPacketArrive (s : State) : Out :=
  let c := EvBody.theColl s.arg.body
  let w := s.groupWord c.group
  if s.aged then .next s
  else if c.op = 0xE || c.op = 0xD then .next (s.mcastAnswerArrive c)
  else if !gwValid w then .next (s.collSend c.port (mcastAnswer c 0x09 0 s.self 0 false))
  else if !((gwInputs w).contains c.port || (c.port = gwUp w && !gwRoot w)) then
    .next (s.collSend c.port (mcastAnswer c 0x09 0 s.self 0 false))
  else if !s.collRoom c.group then
    .next { s with held := s.held ++ [.event .cmcastPacketArrive { s.arg with body := .coll c }] }
  else if !gwDeliv w then .next (s.mcastForward c [])
  else
    let who := mcastWho s (gwCluster w) c
    .next ((s.mcastWrite who c).fin (fun f s1 =>
      let s2 := { s1.dropMemo who.owner with accs := 0 }
      match f with
      | none => (s2.semAddOwned c.sem 1).mcastForward c [mcastAnswer c 0 0 0 localPort true]
      | some (cause, addr) => s2.mcastForward c [mcastAnswer c cause addr s2.self localPort true]))

/-- R135: chunk `q` of a CMCAST is read and sent. -/
def State.mcastChunk (s : State) (cl : Nat) (c : Cmd) : State :=
  let q := c.cursor
  let lo := chunkSize * q
  let src := piecesAt c.va lo (Nat.min (cwBytes c.vb) (lo + chunkSize))
  (s.engFetch (c.who cl) src).fin (fun r s1 =>
    let s2 := s1.cmdBoundary cl c.num
    match r with
    | .error e =>
      s2.post .engineFault { x := cl, y := c.num, body := .fault ⟨e, lowest (src.map Prod.fst), q, 0, true⟩ }
    | .ok m =>
      let data := src.flatMap (pieceBytes m)
      (c.packets q data c.vd.toNat (senderOf c.level s2.self cl)).foldl (fun t p =>
        t.post .cmcastPacketArrive { body := .coll p })
        (s2.updCmd cl c.num (fun x => { x with use := q + 1, delivered := [], refused := none })))

/-- R121, R135: a chunk all of whose packets have been answered. Its bytes count once in DONE, however many members have
written them (DESIGN CHOICE, log entry 71). -/
def State.mcastSettle (s : State) (cl : Nat) (c : Cmd) : State :=
  let q := c.cursor
  let len := Nat.min (cwBytes c.vb) (chunkSize * (q + 1)) - chunkSize * q
  if c.delivered.length < c.chunkPackets q then s
  else
    let s1 := s.updCmd cl c.num (fun x => { x with use := 0, delivered := [], refused := none })
    match c.refused with
    | some f => s1.cmdFaults cl c.num f
    | none => (s1.updCmd cl c.num (fun x => { x with done := x.done + len })).nextPart cl c.num (chunksOf (cwBytes c.vb))

/-- R135, R297: a CMCAST goes on. -/
def State.mcastPart (s : State) (cl : Nat) (c : Cmd) : State :=
  let g := cwGroup c.vb
  if chunksOf (cwBytes c.vb) ≤ c.cursor then s.finishCmd cl c 0
  else if !s.groupAdmits g cl c.asid || (s.collDead g 0).isSome then s.collCmdFault cl c 0x09 true
  else if c.use = c.cursor + 1 then s.mcastSettle cl c
  else s.mcastChunk cl c

/-! ## ENGINE_COMMAND_COMPLETE (R120, R127) -/

/-- R120: command `y` of cluster `x` goes on: its next row or chunk, or its completion. -/
def execEngineCommandComplete (s : State) : Out :=
  match s.cmd s.arg.x s.arg.y with
  | none => .next s
  | some c =>
    let cl := s.arg.x
    if c.st != .running || c.fault.isSome then .next s
    else if c.op ≤ 0x43 then
      .next (if mwRows c.va ≤ c.cursor then s.finishCmd cl c 0 else s.matrixPart cl c)
    else if c.op ≤ 0x47 then
      .next (if chunksOf c.total ≤ c.cursor then s.finishCmd cl c 0 else s.copyPart cl c)
    else if c.op = 0x48 then .next (s.credPart cl c)
    else .next (s.mcastPart cl c)

end Sys2Proof.Machine
end

