-- ==== Sys2Proof/Machine/Failure.lean ====
section
/-! DEFINITION. Links and the failure of ports and cubes (R268 to R270, R302, R354, R355, R387). -/

namespace Sys2Proof.Machine

/-! ## Sending to every cube -/

/-- R354: a notice that names a cube. -/
def State.noticeTo (s : State) (named cube : Nat) : NetPkt :=
  ⟨cube * 16384, ⟨s.gcid 0, 3, 0⟩, 2, false, 0, 0, 0, .notice named⟩

/-- R272: the other cubes whose ids are valid. -/
def State.otherCubes (s : State) : List Nat :=
  let r := s.csrAt 0x4050300
  let all := match wbits r 63 62 with
    | 1 => (List.range (wbits r 37 34 + 1)).flatMap (fun z => (List.range (wbits r 42 38 + 1)).flatMap (fun y =>
        (List.range (wbits r 47 43 + 1)).map (fun x => z * 1024 + y * 32 + x)))
    | 2 => (bitsOf s.self 13 3 :: (List.range 41).filter (fun g => g != bitsOf s.self 13 3)).flatMap (fun g =>
        (List.range 8).map (fun k => 8 * g + k))
    | _ => []
  all.filter (fun c => c != s.self && s.validCube c)

/-- R354: a notice floods to every cube. -/
def State.flood (s : State) (named : Nat) : State :=
  s.otherCubes.foldl (fun t c => t.routeOut (t.noticeTo named c)) s

/-! ## The state of a port (R268, R270, R354) -/

def State.setPortState (s : State) (p st : Nat) : State := s.setCsrField (portOff p + 8) 63 62 st

/-- R268, R302: a port leaves the up state: the groups held for replay are lost, what is queued looks for another
port, and collective groups that name the port fault. -/
def State.portLeaves (s : State) (p st : Nat) : State :=
  let was := s.portState p
  let q := s.port p
  let s1 := (s.setPortState p st).updPort p (fun x =>
    { x with queue := [], unacked := [], replays := 0, missRow := 0, asked := false, credits := [] })
  if was = 2 then
    ((q.queue.filter (fun e => e.2.2.cls != 3)).foldl (fun t e =>
      t.post .packetRoute { x := 64, z := e.2.2.inp, body := .net (NetPkt.older e.2.2 (s.now - e.2.1)) }) s1).collPortDown p
  else s1

/-- R361: a lifetime counter; it stops at its maximum. -/
def State.bumpLife (s : State) (k : Nat) : State :=
  { s with lifetime := mset 0 s.lifetime k (Nat.min (mget 0 s.lifetime k + 1) (2 ^ 32 - 1)) }

/-- R354, R361: a port fails and is counted; a notice that names its neighbour goes to every cube. -/
def State.portFails (s : State) (p : Nat) : State :=
  let n := s.portNbr p
  let s1 := ((s.portLeaves p 3).bumpLife 102).flood n
  s1.post .portDownNotice { x := n }

/-- R270: PORT_ENABLE at port `x`: a store to PORTCTL. A port with EN = 1 trains; without, it is down (R359). A cube that
has taken itself down drives no port (R354). -/
def execPortEnable (s : State) : Out :=
  let p := s.arg.x
  if s.portEn p then
    .next (if s.mode != .down && (s.portState p = 0 || s.portState p = 3) then s.setPortState p 1 else s)
  else .next (if s.portState p = 0 then s else s.portLeaves p 0)

/-- R387: the shipped firmware challenges the neighbour of a port that has trained, unless it is being challenged. -/
def State.challengeNeighbour (s : State) (p far : Nat) : State :=
  if s.mode != .running || s.portHost p || (s.conn (askOf far)).busy then s else s.askNeighbour far 0 []

/-- R270: TRAINING_COMPLETE at port `x`: the far end reports its cube id `y` and its port `z`. -/
def execTrainingComplete (s : State) : Out :=
  let p := s.arg.x
  let far := s.arg.y % 2 ^ 14
  if s.portState p != 1 || !s.portEn p || s.mode = .down then .next s
  else
    let s1 := s.setCsrField (portOff p + 8) 61 48 far
    if far != s.portNbr p then .next (s1.setCsrField (portOff p + 8) 47 47 1)
    else
      let s2 := ((s1.setCsrField (portOff p + 8) 47 47 0).setCsrField (portOff p + 8) 35 32 s.arg.z).setPortState p 2
      let s3 := s2.updPort p (fun q =>
        { q with txSeq := 0, rxSeq := 0, unacked := [], replays := 0, missRow := 0, heard := true, asked := false, credits := [] })
      .next ((s3.challengeNeighbour p far).transmit p)

/-! ## Groups (R268) -/

def EvBody.theNets : EvBody → List NetPkt
  | .nets l => l
  | _ => []

/-- R361: the counter of a port's group replays in the present hour (the model's own place for it). -/
def linkHour (p : Nat) : Nat := 1024 + p

/-- R268: the groups up to the one acknowledged are released. -/
def ackedUpTo (n : Nat) (l : List (Nat × List NetPkt)) : List (Nat × List NetPkt) :=
  if l.any (fun e => e.1 = n) then (l.dropWhile (fun e => e.1 != n)).drop 1 else l

/-- A packet that has come in on port `p`. -/
def State.packetIn (s : State) (p : Nat) (np : NetPkt) : State :=
  match np.body with
  | .coll c =>
    let c1 := { c with port := p }
    let a : EvArg := { x := s.ageEnds np.age, body := .coll c1 }
    if c.ty = 0 || c.op = 0xE || c.op = 0xD then s.post .cmcastPacketArrive a else s.post .collectivePacketArrive a
  | _ => s.post .packetRoute { x := 64, z := p + 1, body := .net np }

/-- R268: the group that is expected has not come whole: a replay from it is asked for, and after eight replays in a row the
port fails. -/
def State.askReplay (s : State) (p : Nat) : State :=
  let n := (s.port p).replays + 1
  let s1 := ((s.bumpCsr (portOff p + 8) 31 16).updPort p (fun q => { q with replays := n, asked := true })).bumpLife (linkHour p)
  if 8 < n then s1.portFails p else s1

/-- R268: what a group's trailer says: the acknowledgement, and in `val` the credit return (how many flits in bits [3:0],
of which channel in bits [7:4]) and whether the far side asks for a replay (bit 8; the encoding is a DESIGN CHOICE, log
entry 49). The groups not acknowledged are then sent again. -/
def State.trailer (s : State) (p ackd : Nat) (w : Word) : State :=
  let v := wbits w 7 4
  s.updPort p (fun q =>
    let rest := ackedUpTo ackd q.unacked
    { q with unacked := rest, heard := true, missRow := 0,
             credits := mset 0 q.credits v (mget 0 q.credits v - wbits w 3 0),
             again := if wbit w 8 then q.again + rest.length else q.again })

/-- R268, R345, R351: GROUP_RECEIVE at port `x`: group number `y` with acknowledgement `z`; `flag` says that its CRC holds.
A group whose CRC fails, or that arrives out of sequence, is discarded; a replay is asked for once until it comes, and again
when the group that is asked for fails once more. A failed CRC is an error of a lane of the port, masked. -/
def execGroupReceive (s : State) : Out :=
  let p := s.arg.x
  if s.portState p != 2 || s.portHost p || s.portTesting p then .next s
  else if !s.arg.flag then
    let lane := Place.lane p 1 (Config.badLane s.free % 16)
    let s1 := if (s.port p).asked && s.arg.y != (s.port p).rxSeq then s.useFree else s.useFree.askReplay p
    .next (s1.post .errorDetected { x := 2, body := .place lane })
  else
    let s2 := ((s.trailer p s.arg.z s.arg.val).transmit p).stopDriving p
    if s.arg.y != (s.port p).rxSeq then .next (if (s.port p).asked then s2 else s2.askReplay p)
    else
      let s3 := s2.updPort p (fun q => { q with rxSeq := (q.rxSeq + 1) % 4096, replays := 0, asked := false })
      .next ((EvBody.theNets s.arg.body).foldl (fun t np => t.packetIn p np) s3)

/-! ## Heartbeats (R268, R354) -/

/-- R268: every 10 µs. -/
def heartbeatTime : Nat := 10 * cyclesPerUs

/-- R268: HEARTBEAT_SEND: a heartbeat flit leaves on every port that is up; a port on which nothing has come since
the last one has missed a heartbeat. -/
def execHeartbeatSend (s : State) : Out :=
  let up := (List.range 12).filter (fun p => s.portState p = 2 && !s.portHost p)
  .next ((up.foldl (fun t p =>
    let quiet := !(t.port p).heard
    let t1 := t.updPort p (fun q =>
      if q.unacked.length < 128 then
        { q with heard := false, txSeq := (q.txSeq + 1) % 4096, unacked := q.unacked ++ [(q.txSeq, [])] }
      else { q with heard := false })
    if quiet then t1.post .heartbeatMiss { x := p } else t1) s).after heartbeatTime .heartbeatSend {})

/-- R354: HEARTBEAT_MISS at port `x`: the fifth in a row fails the port. -/
def execHeartbeatMiss (s : State) : Out :=
  let p := s.arg.x
  if s.portState p != 2 then .next s
  else
    let n := (s.port p).missRow + 1
    let s1 := (s.bumpCsr (portOff p + 8) 15 0).updPort p (fun q => { q with missRow := n })
    .next (if 5 ≤ n then s1.portFails p else s1)

/-! ## Notices and probes (R354) -/

/-- A probe of a cube is under way. -/
def State.probing (s : State) (c : Nat) : Bool :=
  s.timers.any (fun t => t.2.1 = .probeTimeout && t.2.2.x = c)

/-- R354: PORT_DOWN_NOTICE naming cube `x`: the cube is probed. -/
def execPortDownNotice (s : State) : Out :=
  let c := s.arg.x
  if c = s.self || s.probing c || s.mode = .down then .next s
  else
    let np : NetPkt := ⟨c * 16384, ⟨s.gcid 0, 3, 0⟩, 0, false, 0, 0, 0, .probe c⟩
    .next ((s.routeOut np).after (500 * cyclesPerUs) .probeTimeout { x := c })

/-- R354: PROBE: the probe of this cube by cube `y` is answered, unless the cube has taken itself down; with `flag`, the
answer of cube `x` has come. -/
def execProbe (s : State) : Out :=
  if s.arg.flag then
    .next { s with timers := s.timers.filter (fun t => !(t.2.1 = .probeTimeout && t.2.2.x = s.arg.x)) }
  else if s.mode = .down then .next s
  else .next (s.routeOut ⟨s.arg.y * 16384, ⟨s.gcid 0, 3, 0⟩, 2, false, 0, 0, 0, .probe s.self⟩)

/-! ## A cube is declared down (R355) -/

/-- R355: a register of four cube-list entries with DOWN set where the cube is `c`. -/
def downWord (c : Nat) (w : Word) : Word :=
  [0, 1, 2, 3].foldl (fun v k => if wbits v (16 * k + 13) (16 * k) = c then setBits v (16 * k + 15) (16 * k + 15) 1 else v) w

/-- R355: DOWN is set in every cube-list entry of cube `c`. -/
def State.markDown (s : State) (c : Nat) : State :=
  (List.range 16384).foldl (fun t k =>
    let off := 0x8000 + 8 * k
    let v := downWord c (t.csrAt off)
    if v = t.csrAt off then t else t.setCsr off v) s

/-- R355: a request outstanding to cube `c` goes to the mirror, or fails with cause 0x09. A full-empty access that is
WAITING is no longer its agent's: its answer goes to its maker. -/
def State.redirect (s : State) (c : Nat) (o : Outst) : State :=
  let fails := s.failRequest o 0x09
  match o.pkt.body with
  | .coh ev m =>
    (match (if m.tag = 3 then none else s.stripe m.gpa) with
      | some h =>
        if h.cube = c then fails
        else
          let m1 := { m with home := h.cube, mirror := h.mirror, la := h.la, tag := if o.waiting then 2 else m.tag }
          let np := { o.pkt with dest := h.cube * 16384 + tileCore (homeTile h.la), body := .coh ev m1 }
          let o1 := { o with pkt := np, waiting := false, timed := true, stamp := o.stamp + 1 }
          let s1 : State := { s with outst := s.outst.map (fun (e : Outst) => if e.id = o.id then o1 else e) }
          (s1.sendAgain np).after retryTime .retryTimeout { x := o.id, y := o1.stamp }
      | none => fails)
  | _ => fails

/-- R355: the partitions whose PMASK bit for a cube was 1 are told. -/
def State.tellDown (s : State) (mask : Word) (c : Nat) : State :=
  ((List.range 64).filter (fun p => wbit mask p)).foldl (fun t p => t.raiseAt (some p) (event5 0x07 c)) s

/-- R355: cube `c` is declared down, as one step. -/
def State.declareDown (s : State) (c : Nat) : State :=
  let mask := s.peer c
  let s1 := (s.markDown c).setCsr (0x4100000 + 8 * c) 0
  let s2 := (s.outst.filter (fun o => gcidCube o.pkt.dest = c)).foldl (fun t o => t.redirect c o) s1
  let s3 := ((List.range 12).filter (fun p => s.portNbr p = c && s.portDir p ≤ 7)).foldl (fun t p => t.collPortDown p) s2
  s3.tellDown mask c

/-- R354, R355: PROBE_TIMEOUT of cube `x`. -/
def execProbeTimeout (s : State) : Out := .next (s.declareDown s.arg.x)

/-- R353, R354: the cube takes itself down: what was queued is given up, a notice that names the cube floods, and the cube
stops driving each of its ports once the notices have left it; the groups that are on a link stay there. -/
def State.takeDown (s : State) : State :=
  let s1 := (List.range 12).foldl (fun t p => t.updPort p (fun q => { q with queue := [] })) s
  let s2 : State := { s1.flood s.self with mode := .down }
  (List.range 12).foldl (fun t p => t.stopDriving p) s2

end Sys2Proof.Machine
end

