-- ==== Sys2Proof/Machine/Errors.lean ====
section
/-! DEFINITION. Errors, spares and repairs (R335 to R339, R342 to R353, R360, R361): detection, the self-test and its
verdict, fencing and remapping of cores, repair of the other places, error records and lifetime counters. -/

namespace Sys2Proof.Machine

/-! ## Places (R342, R345) -/

/-- R342: the code of the structure that a place belongs to. -/
def placeCode : Place → Nat
  | .dramLine _ => 0x01
  | .l2Way _ _ => 0x02
  | .weightRow _ _ _ => 0x03
  | .accRow _ _ _ => 0x04
  | .localWord _ _ => 0x05
  | .scalarReg _ _ _ | .maskReg _ _ _ | .pobBlock _ _ => 0x06
  | .vectorReg _ _ _ => 0x07
  | .cache _ => 0x08
  | .dupTable _ => 0x09
  | .combining _ _ => 0x0A
  | .lane _ _ _ => 0x0B
  | .packet _ => 0x0C
  | .wire _ _ _ => 0x0D
  | .coreLogic _ | .tileLogic _ | .cubeLogic => 0x0E

/-- R345: the core whose place an error of a core's structure belongs to. -/
def placeCore? : Place → Option Nat
  | .localWord core _ => some core
  | .scalarReg core _ _ | .vectorReg core _ _ | .maskReg core _ _ => some core
  | .pobBlock core _ => some core
  | .coreLogic core => some core
  | _ => none

/-- R345: the place under which an error is counted and tested. Rows of DRAM are blocks of 8 KiB (R349). -/
def placeKey (p : Place) : Place :=
  match placeCore? p with
  | some n => .coreLogic n
  | none =>
    match p with
    | .dramLine la => .dramLine (la / 8192 * 8192)
    | _ => p

/-- R360: LOC of a record. -/
def State.placeLoc (s : State) (p : Place) : Nat :=
  match p with
  | .dramLine la => la
  | .l2Way t w => t * 256 + w
  | .weightRow cl _ r | .accRow cl _ r => r * 2 ^ 32 + s.gcid (coreAt cl 0)
  | .localWord core w => w * 2 ^ 32 + s.gcid core
  | .scalarReg core _ n | .vectorReg core _ n | .maskReg core _ n => n * 2 ^ 32 + s.gcid core
  | .pobBlock core _ | .coreLogic core => s.gcid core
  | .tileLogic t => s.gcid (tileCore t)
  | .lane port _ l => port * 256 + l
  | .wire v b w => w * 2 ^ 16 + b * 256 + v
  | _ => 0

/-- R345: nominal time of a test in µs; none where there is no test. -/
def testUs (p : Place) : Option Nat :=
  match placeCode p with
  | 0x05 | 0x06 | 0x07 => some 40
  | 0x0E => if (placeCore? p).isSome then some 40 else none
  | 0x02 => some 2
  | 0x03 | 0x04 => some 4
  | 0x01 => some 10
  | 0x0B => some 20
  | 0x0D => some 50
  | _ => none

/-! ## Records and counters (R360, R361) -/

/-- R360: the firmware column writes an error record. -/
def State.errorRecord (s : State) (code sev verdict action count loc : Nat) : State :=
  let n := s.csrField 0x4076000 31 0
  let off := 0x4074000 + 32 * (n % 256)
  let w1 := code % 256 * 2 ^ 56 + sev % 4 * 2 ^ 54 + verdict % 4 * 2 ^ 52 + action % 16 * 2 ^ 48 + Nat.min count 255 * 2 ^ 40
  ((((s.setCsr off (BitVec.ofNat 64 (s.now / cyclesPerUs))).setCsr (off + 8) (BitVec.ofNat 64 w1)).setCsr (off + 16)
    (BitVec.ofNat 64 loc)).setCsr (off + 24) 0).setCsrField 0x4076000 31 0 ((n + 1) % 2 ^ 32)

/-- R361: the counter of the errors of a structure code by severity. -/
def lifeError (code sev : Nat) : Nat := 4 * code + sev
/-- R361: the counter of the verdicts of a structure code. -/
def lifeVerdict (code verdict : Nat) : Nat := 64 + 2 * code + verdict

/-- R361: the counters of what was done, by the ACTION codes of R360. A failed port is counted as it fails (102), a retired bus
as it retires (104), and a spare remap as it takes effect (97). -/
def State.lifeAction (s : State) (action : Nat) : State :=
  match action with
  | 0 => s
  | 1 | 2 => s.bumpLife 96
  | 3 | 0xB => s.bumpLife 98
  | 4 => s.bumpLife 99
  | 5 => s.bumpLife 100
  | 6 => s.bumpLife 101
  | 8 => s.bumpLife 103
  | 0xC => s.bumpLife 105
  | _ => s

/-- R361: the address of the counters in the field-life log (log entry 26). -/
def lifeBase : Nat := 0x10000

/-- R361: the counter of a bin of the temperature histogram. -/
def lifeTemp (bin : Nat) : Nat := 112 + bin

/-- R361: the counter of a bin of the voltage histogram of a supply, and of a port's histogram of group replays. -/
def lifeVolt (supply bin : Nat) : Nat := 128 + 16 * supply + bin
def lifeLink (port bin : Nat) : Nat := 256 + 16 * port + bin

/-- R361: the supplies with a voltage histogram; their number is not stated (DESIGN CHOICE, log entry 26). -/
def supplies : Nat := 4

/-- The counters of the field-life log: errors, verdicts and actions, then the histograms. -/
def lifeCounts : Nat := 112
def lifeAll : Nat := 448

/-- R361: an hour is over: each port's group replays of the hour go into a logarithmic bin (log entry 26). -/
def State.linkHours (s : State) : State :=
  (List.range 12).foldl (fun t p =>
    let n := mget 0 t.lifetime (linkHour p)
    let u := t.bumpLife (lifeLink p (if n = 0 then 0 else Nat.min 15 (Nat.log2 n + 1)))
    { u with lifetime := mset 0 u.lifetime (linkHour p) 0 }) s

/-- R361: the hours of powered time that the link histograms hold. -/
def State.hoursHeld (s : State) : Nat := ((List.range 16).map (fun b => mget 0 s.lifetime (lifeLink 0 b))).sum

/-- R361: an hour of powered time is over that the link histograms do not hold yet. -/
def State.hourOver (s : State) : Bool := s.hoursHeld < (s.powered + s.now) / (3600000000 * cyclesPerUs)

/-- R361: FLASH_LOG_WRITE: the counters are written to flash, and each hour of powered time the histograms; the next write
comes within 1 s. -/
def execFlashLogWrite (s : State) : Out :=
  let hour := s.hourOver
  let s1 := if hour then s.linkHours else s
  let bytes := (List.range (if hour then lifeAll else lifeCounts)).flatMap (fun k => leBytes 4 (mget 0 s1.lifetime k))
  .next (({ s1 with flash := writeBytes 0xFF s1.flash lifeBase bytes }).after (1000000 * cyclesPerUs) .flashLogWrite {})

/-! ## Contexts, messages and packets of a fenced core (R337) -/

/-- R337, R394: the partitions that lose a context of a core; `none` stands for that of an ASID in no valid partition. -/
def State.partsOn (s : State) (core : Nat) : List (Option Nat) :=
  (((s.ctxsOf core).filter (fun e => e.2.st != .free)).map (fun e => s.partOfAsid e.2.asid)).eraseDups

/-- R337, R178: the tag of a context in the overflow area is cleared; where its home is another cube's, or an
agent of another cube owns its line, by an atomic. -/
def State.dropTag (s : State) (core id : Nat) : State :=
  let c := s.ctx core id
  match (if c.sbank = .overflow || c.vbank.contains .overflow then s.overflowAddr core id else none) with
  | none => s
  | some gpa =>
    match s.stripe gpa with
    | none => s
    | some h =>
      match (if h.cube = s.self then s.lineNow h gpa else none) with
      | some line => s.writeArea core gpa (leBytes 8 (setBits (wordAt line 0) 63 63 0).toNat ++ line.drop 8)
      | none =>
        (s.toHome .amor { gpa := gpa, la := h.la, own := ⟨core, 9, 0⟩, agent := s.agentId (tileOf core), len := 8, tag := 2,
                          level := 2, home := h.cube, mirror := h.mirror, op := some (.amo .and true (2 ^ 63 - 1)) }).2

/-- R337: every context of a core is terminated as by a drain (R178); a launch that loses a task fails (R203). -/
def State.killCtxs (s : State) (core : Nat) : State :=
  let l := (s.ctxsOf core).filter (fun e => e.2.st != .free)
  let s1 := l.foldl (fun t e =>
    let t1 := match e.2.launch with
      | some (q, id) => t.launchLost q id
      | none => t
    (t1.dropTag core e.1).endCtx core e.1) s
  let gone : List (Nat × Nat) := l.map (fun (e : Nat × Ctx) => (core, e.1))
  (s1.drainFe gone).drainFar gone

/-- R337: the engine commands that a core has issued go on, and their completion messages are discarded; commands that a full
buffer has held back try again (R121). -/
def State.orphanCmds (s : State) (core : Nat) : State :=
  let one := fun (k : Cluster) =>
    { k with cmds := (k.cmds.map (fun (c : Cmd) => if c.core = core then { c with orphan := true } else c)).filter
               (fun c => !(c.orphan && c.final)),
             pending := k.pending.filter (fun e => e.1 != core) }
  let s1 := s.updCluster (clusterOf core) one
  if (s1.cluster (clusterOf core)).cmds.isEmpty then s1 else s1.post .pendingMessageDeliver { x := clusterOf core }

/-- R337: a packet of the inbox goes back to where it came from. -/
def State.returnFenced (s : State) (p : Packet) : State :=
  let p1 := { p with words := markWords p.words 1 }
  match p.kind with
  | .spawn | .spawna _ =>
    if gcidCube p.sender = s.self then s.fenceReturn p1
    else
      s.post .packetRoute { x := 64, body := .net ⟨p.sender, ⟨s.gcid 0, 1, wbits (wd p.words 1) 63 44⟩, 2, false, 0, 0, 0,
        .returned p1⟩ }
  | .cont tile _ _ =>
    if tile / 64 = s.self then s.sendBack p 1
    else
      let src := packetSrc p
      s.post .packetRoute { x := 64, body := .net ⟨src.gcid, ⟨s.gcid 0, 1, src.seq⟩, 2, false, 0, 0, 0, .returned p1⟩ }
  | _ => s.sendBack p 1

/-- R337, R339: what the dispatcher of a core has asked for is given up with it. -/
def State.dropDispatch (s : State) (core : Nat) : State :=
  { s with memos := s.memos.filter (fun m => !(m.owner.gcid = core && m.owner.agent = 5)) }

/-- R337: the physical core that serves a coordinate is marked. -/
def State.markFenced (s : State) (core : Nat) : State :=
  let cl := clusterOf core
  let m := s.sparemap cl
  let off := 0x4070000 + 8 * cl
  if wbit m 63 && wbits m 59 56 = posOf core then s.setCsrField off 62 62 1
  else s.setCsrField off (posOf core) (posOf core) 1

/-- R337: a fence, as one act; `lost` are the partitions that have lost a context to a logic error of the core (R353). -/
def State.fence (s : State) (core : Nat) (lost : List (Option Nat) := []) : State :=
  let parts := (lost ++ s.partsOn core).eraseDups
  let inbox := (s.core core).inbox
  let s1 := (((s.killCtxs core).orphanCmds core).dropDispatch core).markFenced core
  let s2 := s1.updCore core (fun c =>
    { c with inbox := [], messages := [], bounce := [], returnHeld := [], events := [], eventsHeld := [],
             testing := false })
  let s3 := inbox.foldl (fun t e => t.returnFenced e.p) s2
  parts.foldl (fun t p => t.raiseAt p (event5 0x01 (s.gcid core))) s3

/-- R339: a spare can take a coordinate of the cluster. -/
def State.spareFree (s : State) (cl : Nat) : Bool := !wbit (s.sparemap cl) 63 && !wbit (s.sparemap cl) 62

/-! ## Remapping (R338, R339) -/

/-- R339: the spare takes coordinate `core`: fresh state but for the registers that are copied. -/
def State.remap (s : State) (core : Nat) : State :=
  let cl := clusterOf core
  let base := lmemKey cl (posOf core * 0x8000)
  let c := s.core core
  let fresh : CoreSt := { kvbase := c.kvbase, fvbase := c.fvbase, ktimer := c.ktimer, ftimer := c.ftimer,
                          spillptr := c.spillptr, fspillptr := c.fspillptr, waitlim := c.waitlim,
                          spawnSeq := c.spawnSeq, seqLog := c.seqLog }
  let injCore := wbits (s.csrAt 0x4072000) 45 32
  let s1 := (List.range 4).foldl (fun t k => t.setSlot core k {}) (((s.dropDispatch core).updCore core (fun _ => fresh)).bumpLife 97)
  { s1 with lmem := s1.lmem.filter (fun e => !(base ≤ e.1 && e.1 < base + 0x8000)),
            lmemBad := s1.lmemBad.filter (fun e => !(base ≤ 4 * e.1 && 4 * e.1 < base + 0x8000)),
            lmInjLive := s1.lmInjLive && injCore != core }

/-- R338, R339: SPAREMAP_WRITE of `val` at cluster `x`: it takes effect only when ACTIVE was 0 and the core at POS is
fenced. -/
def execSparemapWrite (s : State) : Out :=
  let cl := s.arg.x
  let v := s.arg.val
  let q := wbits v 59 56
  if wbit v 63 && !wbit (s.sparemap cl) 63 && wbit (s.sparemap cl) q then
    .next ((s.setCsrField (0x4070000 + 8 * cl) 63 63 1).setCsrField (0x4070000 + 8 * cl) 59 56 q |>.remap (coreAt cl q))
  else .next s

/-- R339: one probe of a coordinate: a fenced core that no spare serves misses it, and at the second miss in a row the free
spare takes the coordinate. -/
def State.probeCore (s : State) (cl q : Nat) : State :=
  let n := coreAt cl q
  if !s.fenced n then s
  else if s.spareFree cl && 1 ≤ (s.core n).missed then
    (s.updCore n (fun c => { c with missed := 0 })).post .sparemapWrite
      { x := cl, val := BitVec.ofNat 64 (2 ^ 63 + q * 2 ^ 56) }
  else s.updCore n (fun c => { c with missed := Nat.min 2 (c.missed + 1) })

/-- R339: the firmware column probes every core. -/
def State.probeCores (s : State) : State :=
  let maps : List Nat := (s.csr.filter (fun e => 0x4070000 ≤ e.1 && e.1 < 0x4072000)).map (fun e => (e.1 - 0x4070000) / 8)
  maps.foldl (fun t cl => (List.range 16).foldl (fun u q => u.probeCore cl q) t) s

/-- R339: CORE_PROBE, each 10 µs. -/
def execCoreProbe (s : State) : Out := .next (s.probeCores.after (10 * cyclesPerUs) .coreProbe {})

/-- R335, R336: LMINJ_WRITE of `val`: FIRED is cleared by a 1; setting ARM binds the injection to the core that serves
the coordinate now. -/
def execLminjWrite (s : State) : Out :=
  let v := s.arg.val
  let old := s.csrAt 0x4072000
  let keep := maskBits 63 63 + maskBits 61 61 + maskBits 45 32 + maskBits 12 0
  let fired : Word := if wbit old 62 && !wbit v 62 then BitVec.ofNat 64 (2 ^ 62) else 0
  .next { s.setCsr 0x4072000 ((v &&& BitVec.ofNat 64 keep) ||| fired) with lmInjLive := wbit v 63 }

/-! ## What an uncorrectable error does to the data (R342, R343) -/

/-- R342, R343: an uncorrectable line of an L2 slice, in way `way`: a clean one is dropped and fetched again; a dirty one is
given up, its data known to be bad, so that its home poisons the line. The line is that of GPA `g`; a dirty line is one held
exclusively that the slice has written (DEDUCED, log entry 73). -/
def State.l2Bad (s : State) (tile way g : Nat) : State :=
  let a := s.agent tile (g / 64)
  let excl : Bool := match s.image a.slot with
    | some img => bitsOf (imgAttr img true a.st) 2 2 == 1
    | none => false
  if a.data.isNone then s
  else if excl && a.dirty then (s.setAgent tile (g / 64) { a with bad := some way }).giveUp tile (g / 64)
  else s.giveUp tile (g / 64)

/-- R342: a row of the matrix engine is uncorrectable. -/
def State.rowBad (s : State) (p : Place) : State :=
  match p with
  | .weightRow cl a r =>
    s.updCluster cl (fun k => k.setWarr (a = 1) { k.warr (a = 1) with badRows := r :: (k.warr (a = 1)).badRows.filter (fun b => b != r) })
  | .accRow cl a r =>
    let all := (List.range 64).map (fun j => 64 * r + j)
    s.updCluster cl (fun k => k.setAcc (a = 1) { k.acc (a = 1) with bad := all ++ (k.acc (a = 1)).bad.filter (fun b => b / 64 != r) })
  | _ => s

/-- R342: the effect of an uncorrectable error on what the place holds; `g` is the GPA met in an L2 way. -/
def State.uncorrectable (s : State) (p : Place) (g : Nat) : State :=
  match p with
  | .dramLine la => s.poisonLine la
  | .l2Way t w => s.l2Bad t w g
  | .weightRow _ _ _ | .accRow _ _ _ => s.rowBad p
  | .combining r n => s.updRouter r (fun x => { x with recs := x.recs.filter (fun c => c.n != n) })
  | _ => s

/-! ## Detection (R345, R346, R350, R353) -/

/-- R346: the errors of a place in the last 24 hours. -/
def State.errorCount (s : State) (k : Place) : Nat :=
  (s.errors.filter (fun e => e.1 = k && s.powered + s.now < e.2 + 86400000000 * cyclesPerUs)).length

/-- R345, R353: a self-test starts, unless one of the place is running; that one's verdict covers the error. -/
def State.startTest (s : State) (p : Place) (sev n : Nat) : State :=
  let k := placeKey p
  if s.tests.any (fun t => placeKey t.place = k) then
    { s with tests := s.tests.map (fun (t : TestRun) => if placeKey t.place = k && sev = 3 then { t with logic := true } else t) }
  else
    match testUs p with
    | none => s.errorRecord (placeCode p) sev 2 0 n (s.placeLoc p)
    | some us =>
      let fails := Config.testFails s.free
      let s1 := (({ s with tests := s.tests ++ [(⟨p, sev, n, sev = 3⟩ : TestRun)] } : State).useFree.after (us * cyclesPerUs)
        .selfTestComplete { flag := fails, body := .place p })
      match placeCore? p with
      | some core => s1.updCore core (fun c => { c with testing := true })
      | none => s1

/-- R345: the line of an L2 way that is to be tested is written back first. -/
def State.beforeTest (s : State) (p : Place) (g : Nat) : State :=
  match p with
  | .l2Way t _ => s.giveUp t (g / 64)
  | _ => s

/-- R345: ERROR_DETECTED at a place, with severity `x` (0 corrected, 1 uncorrectable, 2 masked, 3 logic); `y` is the GPA
of the line met in an L2 way. -/
def execErrorDetected (s : State) : Out :=
  match s.arg.body with
  | .place p =>
    let sev := s.arg.x % 4
    let s1 := ({ s with errors := (placeKey p, s.powered + s.now) :: s.errors }).bumpLife (lifeError (placeCode p) sev)
    let s2 := (if sev = 1 then s1.uncorrectable p s.arg.y else s1).beforeTest p s.arg.y
    .next (s2.startTest p sev (s2.errorCount (placeKey p)))
  | _ => .next s

/-- R353: LOGIC_ERROR at a place: a core is tested; anything else takes the cube down. -/
def execLogicError (s : State) : Out :=
  match s.arg.body with
  | .place (.coreLogic n) => .next (s.post .errorDetected { x := 3, body := .place (.coreLogic n) })
  | .place p =>
    .next ((((s.bumpLife (lifeError (placeCode p) 3)).errorRecord (placeCode p) 3 2 0xC 1 (s.placeLoc p)).lifeAction
      0xC).takeDown)
  | _ => .next s

/-- R342: the lines of an L2 way that are uncorrectable, by their GPAs. -/
def State.badLines (s : State) (t w : Nat) : List Nat :=
  (s.agents.filter (fun e => e.1 / 2 ^ 50 = t && e.2.bad = some w)).map (fun e => 64 * (e.1 % 2 ^ 50))

/-- R336, R350: whether a read of a place finds uncorrectable data, and the state after the read. -/
def State.scrubRead (s : State) (p : Place) : Bool × State :=
  match p with
  | .localWord core w =>
    (match s.lmemRead (clusterOf core) (posOf core * 0x8000 + 4 * w) 4 with
      | (none, _, s1) => (true, s1)
      | (_, _, s1) => (false, s1))
  | .scalarReg core id n => ((s.ctx core id).bad.contains (1, n) && (s.ctx core id).sbank = .resident, s)
  | .vectorReg core id n => ((s.ctx core id).bad.contains (2, n) && (s.ctx core id).vbank.getD (n / 8) .unclaimed = .resident, s)
  | .maskReg core id n => ((s.ctx core id).bad.contains (3, n) && (s.ctx core id).sbank = .resident, s)
  | .pobBlock core id => ((s.ctx core id).bad.contains (4, 0) && (s.ctx core id).sbank = .resident, s)
  | .weightRow cl a r => (((s.cluster cl).warr (a = 1)).badRows.contains r, s)
  | .accRow cl a r => ((((s.cluster cl).acc (a = 1)).bad.any (fun k => k / 64 = r)), s)
  | .dramLine la => (s.poisoned la && !s.retired la, s)
  | .l2Way t w => (!(s.badLines t w).isEmpty, s)
  | _ => (false, s)

/-- R350: the scrub reads a place; the half-vaults that are retired are skipped (R365). In an L2 way it reads every line. -/
def State.scrub (s : State) (p : Place) : State :=
  match p with
  | .l2Way t w => (s.badLines t w).foldl (fun u g => u.post .errorDetected { x := 1, y := g, body := .place p }) s
  | _ =>
    let (bad, s1) := s.scrubRead p
    if bad then s1.post .errorDetected { x := 1, body := .place p } else s1

/-- R350: the places of the cube that hold data a read would find bad. -/
def State.badPlaces (s : State) : List Place :=
  let reg := fun (core id : Nat) (b : Nat × Nat) => regPlace core id b.1 b.2
  let l : List Place := s.poison.map (fun e => .dramLine (64 * e.1)) ++
    s.agents.filterMap (fun e => e.2.bad.map (fun w => .l2Way (e.1 / 2 ^ 50) w)) ++
    s.clusters.flatMap (fun k =>
      k.2.w0.badRows.map (fun r => .weightRow k.1 0 r) ++ k.2.w1.badRows.map (fun r => .weightRow k.1 1 r) ++
        ((k.2.acc0.bad.map (fun b => b / 64)).eraseDups.map (fun r => .accRow k.1 0 r)) ++
        ((k.2.acc1.bad.map (fun b => b / 64)).eraseDups.map (fun r => .accRow k.1 1 r))) ++
    (s.lmemBad.map (fun e => lmemPlace e.1) ++ if s.injArmed then [lmemPlace s.injKey] else []) ++
    s.ctxs.flatMap (fun e => e.2.bad.map (reg (e.1 / 256) (e.1 % 256)))
  l.eraseDups

/-- R350: 24 hours. -/
def scrubPass : Nat := 86400000000 * cyclesPerUs

/-- R350: PATROL_SCRUB reads a place; without a place it is a whole pass, every 24 hours, of which only the reads that find
something do anything. -/
def execPatrolScrub (s : State) : Out :=
  match s.arg.body with
  | .place p => .next (s.scrub p)
  | _ => .next ((s.badPlaces.foldl (fun t p => t.scrub p) s).after scrubPass .patrolScrub {})

/-- R362: the group and position of a physical wire. -/
def wireGroup (w : Nat) : Nat := if w < 1024 then w / 64 else (w - 1024) / 2
def wirePos (w : Nat) : Nat := if w < 1024 then w % 64 else 64 + (w - 1024) % 2

/-- R364: the positions that a VBMUX word steers data around. -/
def muxNames (m : Word) (pos : Nat) : Bool := (wbit m 63 && wbits m 6 0 = pos) || (wbit m 62 && wbits m 14 8 = pos)

/-- R364: the steering map of a VBMUX word: the position that carries data bit `i` of its group. -/
def muxMap (m : Word) (i : Nat) : Nat := ((List.range 66).filter (fun p => !muxNames m p)).getD i 0

/-- R364: a physical wire of a bus carries a data bit. -/
def State.carriesData (s : State) (v b w : Nat) : Bool :=
  let m := s.csrAt (vbOff v b + 0x80 + 8 * wireGroup w)
  (List.range 64).any (fun i => muxMap m i = wirePos w)

/-- R362: VBSTAT.RET. -/
def State.busGone (s : State) (v b : Nat) : Bool := wbit (s.csrAt (vbOff v b + 0x10)) 62

/-- R350: SINGLE_FAULT in a place: it is masked, corrected, or leaves data that the next read finds bad; `y` is the GPA of the
line in an L2 way. The wires of a retired bus are not driven (R365). -/
def execSingleFault (s : State) : Out :=
  match s.arg.body with
  | .place p =>
    let bad := fun (core id kind n : Nat) => s.updCtx core id (fun c => { c with bad := (kind, n) :: c.bad })
    let seen := fun (t : State) (sev : Nat) => t.post .errorDetected { x := sev, body := .place p }
    .next (match p with
      | .localWord core w =>
        let key := lmemKey (clusterOf core) (posOf core * 0x8000) / 4 + w
        if (s.lmemBad.lookup key).isSome then s else { s with lmemBad := (key, false) :: s.lmemBad }
      | .scalarReg core id n => bad core id 1 n
      | .vectorReg core id n => bad core id 2 n
      | .maskReg core id n => bad core id 3 n
      | .pobBlock core id => bad core id 4 0
      | .coreLogic _ | .tileLogic _ | .cubeLogic => s.post .logicError { body := .place p }
      | .l2Way _ _ => s.post .errorDetected { x := 0, y := s.arg.y, body := .place p }
      | .dramLine _ | .weightRow _ _ _ | .accRow _ _ _ => seen s 0
      | .wire v b w => if s.carriesData v b w && !s.busGone v b then seen s 2 else s
      | .cache core => seen (s.updCore core (fun c => { c with icache := [], tlb := [] })) 2
      | .combining r n => seen (s.updRouter r (fun x => { x with recs := x.recs.filter (fun c => c.n != n) })) 1
      | _ => seen s 2)
  | _ => .next s

/-! ## Repairs (R348, R349) -/

/-- R349: an event of SUB 5 at the KCORE of every valid partition. -/
def State.tellAll (s : State) (kind low : Nat) : State :=
  s.validParts.foldl (fun t p => t.raiseAt (some p) (event5 kind low)) s

/-- R349: an event of SUB 5 at the KCORE of the partitions whose rectangles hold a cluster. -/
def State.tellCluster (s : State) (cl kind low : Nat) : State :=
  (s.validParts.filter (fun p => (s.partRects p).any (fun r => (List.range 16).any (fun q => rectHas r (coreAt cl q))))).foldl
    (fun t p => t.raiseAt (some p) (event5 kind low)) s

/-- R348: the L1 data caches of a tile are emptied. -/
def State.emptyL1s (s : State) (tile : Nat) : State :=
  let l : SMap CoreSt := s.cores.map (fun e => if tileOf e.1 = tile then (e.1, { e.2 with l1 := [] }) else e)
  { s with cores := l.filter (fun e => decide (e.2 ≠ ({} : CoreSt))) }

/-- R348: an L2 way is disabled; the lines that the other ways cannot hold are written back. -/
def State.repairWay (s : State) (t w : Nat) : Nat × State :=
  let s1 := (s.updTile t (fun x => { x with waysOff := w :: x.waysOff.filter (fun k => k != w) })).trimSlice t
  let gone := s1.passThrough t
  let s2 := if gone then s1.emptyL1s t else s1
  (if gone then 0xB else 3, s2.tellAll 0x02 ((if gone then 2 ^ 55 else 0) + t * 256 + w))

/-- R348: the number of an array: 0 w0, 1 w1, 2 acc0, 3 acc1. -/
def arrayNum (p : Place) : Nat :=
  match p with
  | .accRow _ a _ => 2 + a % 2
  | .weightRow _ a _ => a % 2
  | _ => 0

/-- R348: a row of the matrix engine is replaced by a spare. -/
def State.repairRow (s : State) (cl arr : Nat) : Nat × State :=
  if (s.cluster cl).sparesUsed.getD arr 0 < 4 then
    let s1 := s.updCluster cl (fun k => { k with sparesUsed := k.sparesUsed.set arr (k.sparesUsed.getD arr 0 + 1) })
    (4, s1.tellCluster cl 0x03 (arr * 2 ^ 16 + cl))
  else
    (0xA, (s.updCluster cl (fun k => { k with matrixOff := true })).tellCluster cl 0x03 (2 ^ 55 + arr * 2 ^ 16 + cl))

/-- R348: a DRAM row is remapped to a spare row of its bank. -/
def State.repairDram (s : State) (la : Nat) : Nat × State :=
  let block := la / 8192
  let used := (s.repairs.filter (fun r => match r with
    | .dramLine a => Config.dramBank a = Config.dramBank (block * 8192)
    | _ => false)).length
  if used < 32 then
    (5, ({ s with repairs := .dramLine (block * 8192) :: s.repairs }).tellAll 0x04 (block * 8192))
  else (0, s.tellAll 0x04 (2 ^ 55 + block * 8192))

/-- R348: a lane is replaced by the spare of its port and direction, or the port fails. -/
def State.repairLane (s : State) (port dir lane : Nat) : Nat × State :=
  let used := s.repairs.any (fun r => match r with
    | .lane p d _ => p = port && d = dir
    | _ => false)
  if used then (7, (s.tellAll 0x05 (2 ^ 55 + port * 256 + lane)).portFails port)
  else
    (6, (({ s with repairs := .lane port dir lane :: s.repairs }).setCsrField (portOff port + 8) 46 42 lane).tellAll 0x05
      (port * 256 + lane))

/-! ### The retirement of a bus (R365) -/

/-- R363: what a bus held is taken up again: what stands at the lines of its half-vault, and the accesses that have arrived, in
their order. -/
def State.releaseHeld (s : State) : State :=
  ({ s with held := s.held.filter heldColl, agenda := s.agenda ++ s.held.filter (fun i => !heldColl i) } : State).dueLines

/-- A line of a half-vault. -/
def inHalf (v b ln : Nat) : Bool := homeTile (64 * ln) = v && busOf (64 * ln) = b

/-- R365: the accesses that wait at the homes of a half-vault are refused; one that is performed, and only waits for the
mirror, is answered. -/
def State.refuseWaiting (s : State) (v b : Nat) : State :=
  let hit := (s.tile v).fe.filter (fun w => busOf w.la = b)
  let s2 := hit.foldl (fun t w => (t.feDiscard w).reply .flt { w.msg with cause := 0x09, tag := 4 }) s
  let lines : List (Nat × DirLine) := s2.dirs.filter (fun e => inHalf v b e.1)
  let s3 := (lines.flatMap (fun e => e.2.mirrors)).foldl (fun (t : State) w => t.payOwed w.owed w.semf) s2
  (lines.flatMap (fun e => e.2.pend)).foldl (fun t e => if e.1.cls = 0 then t.respond .flt { e.2 with cause := 0x09 } else t) s3

/-- R365: an agent's line of a half-vault is invalidated; a response that is still to come installs nothing. -/
def AgentLine.withdrawn (a : AgentLine) : AgentLine :=
  { a with st := 0, data := none, victim := none, bad := none, held := [], mask := 0, dirty := false, cur := a.cur.map (fun r => { r with noInstall := true }) }

/-- R365: the L2 copies of a half-vault's lines are invalidated, dirty ones too, and with them those in L1s (R226); those of
other cubes by INV. -/
def State.dropCopies (s : State) (v b : Nat) : State :=
  let lines : List (Nat × DirLine) := s.dirs.filter (fun e => inHalf v b e.1)
  let here := fun (a : AgentLine) => ((a.data.isSome || a.victim.isSome) && a.home = s.self && inHalf v b (a.la / 64)) ||
    a.cur.any (fun r => r.m.home = s.self && inHalf v b (r.m.la / 64))
  let agents : SMap AgentLine := s.agents.map (fun e => if here e.2 then (e.1, e.2.withdrawn) else e)
  let hit : List (Nat × AgentLine) := s.agents.filter (fun e => here e.2)
  let s0 := hit.foldl (fun t e => t.l1Drop (e.1 / 2 ^ 50) (e.1 % 2 ^ 50) 0xFFFF) s
  let s1 : State := { s0 with dirs := s.dirs.filter (fun e => !inHalf v b e.1),
                              agents := agents.filter (fun e => decide (e.2 ≠ ({} : AgentLine))) }
  lines.foldl (fun t e =>
    let slot := t.rangeSlot v e.2.gpa
    let m : Msg := { gpa := e.2.gpa, la := 64 * e.1, slot := slot, protid := t.protid slot }
    ((e.2.owner.toList ++ e.2.sharers).filter (fun n => n / 64 != t.self)).foldl (fun u n =>
      u.toAgent .inv { m with dst := n }) t) s1

/-- R365: a bus is retired, as one act, and counted (R361). -/
def State.retireBus (s : State) (v b : Nat) : State :=
  let s1 := ((s.bumpLife 104).setCsrField (0x4090000 + 8 * b) v v 1).setCsrField (vbOff v b + 16) 62 62 1
  (((s1.refuseWaiting v b).dropCopies v b).releaseHeld).tellAll 0x06 (b * 256 + v)

/-- R348: a wire is shifted out by VBMUX; a third position of a group retires the bus. -/
def State.repairWire (s : State) (v b w : Nat) : Nat × State :=
  let off := vbOff v b + 0x80 + 8 * wireGroup w
  let m := s.csrAt off
  let pos := wirePos w
  if s.busGone v b then (9, s)
  else if !wbit m 63 then (8, s.setCsr off (setBits (setBits m 63 63 1) 6 0 pos))
  else if wbits m 6 0 = pos || (wbit m 62 && wbits m 14 8 = pos) then (8, s)
  else if !wbit m 62 then (8, s.setCsr off (setBits (setBits m 62 62 1) 14 8 pos))
  else (9, s.retireBus v b)

/-- R348: the repair of a place after a lasting verdict: the ACTION and the state; `lost` is that of a fence. -/
def State.repair (s : State) (p : Place) (lost : List (Option Nat)) : Nat × State :=
  match placeCore? p with
  | some n => (if s.spareFree (clusterOf n) then 1 else 2, s.fence n lost)
  | none =>
    match p with
    | .l2Way t w => s.repairWay t w
    | .weightRow cl _ _ => s.repairRow cl (arrayNum p)
    | .accRow cl _ _ => s.repairRow cl (arrayNum p)
    | .dramLine la => s.repairDram la
    | .lane port dir lane => s.repairLane port dir lane
    | .wire v b w => s.repairWire v b w
    | _ => (0, s)

/-! ## The verdict (R346, R347, R353) -/

/-- R335: a stuck word fails every self-test of its core. -/
def State.stuckWord (s : State) (p : Place) : Bool :=
  match placeCore? p with
  | some core =>
    let base := lmemKey (clusterOf core) (posOf core * 0x8000) / 4
    s.lmemBad.any (fun e => e.2 && base ≤ e.1 && e.1 < base + 0x2000)
  | none => false

/-- R353: after a logic error every context of the core is terminated, and kind 0x09 is raised. -/
def State.logicVictims (s : State) (core : Nat) : State :=
  let parts := s.partsOn core
  parts.foldl (fun t p => t.raiseAt p (event5 0x09 (s.gcid core))) (s.killCtxs core)

/-- The test of a place ends: the core issues again, the queue starts, the port carries and replays the groups that it
holds, the bus goes on. -/
def State.testOver (s : State) (p : Place) : State :=
  let s1 := { s with tests := s.tests.filter (fun t => placeKey t.place != placeKey p) }
  match p with
  | .lane port _ _ =>
    ((if s1.portLinked port then s1.updPort port (fun q => { q with again := q.again + q.unacked.length })
      else s1).transmit port).stopDriving port
  | .wire _ _ _ => s1.releaseHeld
  | _ =>
    match placeCore? p with
    | some n => s1.updCore n (fun c => { c with testing := false })
    | none => s1

/-- R346: the errors of a place that has been repaired count no more: what takes its place has met none. -/
def State.forgetErrors (s : State) (k : Place) : State := { s with errors := s.errors.filter (fun e => e.1 != k) }

/-- R348: the actions of R360 after which something else serves in the place, or nothing does. A DRAM row (0), a lane (7) or a
row of the matrix engine (0xA) whose spares are used up stays what it is. -/
def replaced (action : Nat) : Bool := [1, 2, 3, 4, 5, 6, 8, 9, 0xB].contains action

/-- R346 to R348, R353: SELF_TEST_COMPLETE at a place; `flag` says that the test failed. The repair comes before the place
serves again. -/
def execSelfTestComplete (s : State) : Out :=
  match s.arg.body with
  | .place p0 =>
    (match s.tests.find? (fun t => placeKey t.place = placeKey p0) with
      | none => .next s
      | some t =>
        let p := t.place
        let k := placeKey p
        let n := s.errorCount k
        let lasting := s.arg.flag || s.stuckWord p || 3 ≤ n
        let victims := match placeCore? p with
          | some c => if t.logic then s.partsOn c else []
          | none => []
        let s1 := match placeCore? p with
          | some c => if t.logic then s.logicVictims c else s
          | none => s
        let (action, s2) := if lasting then s1.repair p victims else (0, s1)
        let s3 := (if lasting && replaced action then s2.forgetErrors k else s2).testOver p
        let v := if lasting then 1 else 0
        .next (((s3.errorRecord (placeCode p) t.sev v action n (s.placeLoc p)).bumpLife
          (lifeVerdict (placeCode p) v)).lifeAction action))
  | _ => .next s

end Sys2Proof.Machine
end

