-- ==== Sys2Proof/Machine/Bus.lean ====
section
/-! DEFINITION. The vertical buses (R362 to R365): pausing, test steps, wire steering and retirement. -/

namespace Sys2Proof.Machine

/-- R363: VB_PAUSE of bus `y` of vault `x`: RAW is 1, and accesses are held at their home. -/
def execVbPause (s : State) : Out := .next (s.setCsrField (vbOff s.arg.x s.arg.y) 61 61 1)

/-- R363: VB_RESUME of bus `y` of vault `x`: the held accesses go on. -/
def execVbResume (s : State) : Out := .next (s.setCsrField (vbOff s.arg.x s.arg.y) 61 61 0).releaseHeld

/-- R363: VBTEST_GO at bus `y` of vault `x`. A GO is ignored without RAW, while a step runs, for a wire above 1,055 or on
a retired bus. -/
def execVbtestGo (s : State) : Out :=
  let off := vbOff s.arg.x s.arg.y
  let w := s.csrAt off
  if !wbit w 61 || wbit w 62 || 1055 < wbits w 10 0 || s.busGone s.arg.x s.arg.y then .next s
  else
    .next ((s.setCsrField off 62 62 1).after (40 * cyclesPerNs) .vbtestStepComplete { x := s.arg.x, y := s.arg.y })

/-- R363: the wires that read wrong in a step that drives wire `n`: BEATS + 1 beats to each of the four layers. -/
def State.wrongAt (s : State) (v b n : Nat) : List Nat :=
  let pat := s.csrAt (vbOff v b + 8)
  (((List.range 4).flatMap (fun layer => (List.range (wbits pat 15 0 + 1)).flatMap (fun beat =>
    Config.wrongWires v b n (wbit pat 63) layer beat))).filter (fun w => w < 1056)).eraseDups

/-- R363: the outcome of a step that drives wire `n` goes to VBSTAT: FAIL, NWRONG and FIRST. -/
def State.wireStep (s : State) (v b n : Nat) : Nat × Nat × State :=
  let off := vbOff v b
  let l := s.wrongAt v b n
  let low := l.foldl Nat.min (if l.isEmpty then 0 else 2047)
  let st := setBits (setBits (setBits (s.csrAt (off + 16)) 63 63 (if l.isEmpty then 0 else 1)) 26 16 l.length) 10 0 low
  (l.length, low, s.setCsr (off + 16) st)

/-- R363: VBTEST_STEP_COMPLETE at bus `y` of vault `x`: FAIL, NWRONG and FIRST are written, and BUSY is cleared. -/
def execVbtestStepComplete (s : State) : Out :=
  let off := vbOff s.arg.x s.arg.y
  let w := s.csrAt off
  if !wbit w 62 then .next s
  else .next ((s.wireStep s.arg.x s.arg.y (wbits w 10 0)).2.2.setCsrField off 62 62 0)

/-- R364: a store to VBMUX that is ignored whole. -/
def muxBad (v : Word) : Bool :=
  (wbit v 62 && !wbit v 63) || (wbit v 62 && wbit v 63 && wbits v 14 8 = wbits v 6 0) ||
    (wbit v 63 && 65 < wbits v 6 0) || (wbit v 62 && 65 < wbits v 14 8)

/-- R364: VBMUX_WRITE of `val` to group `z` of bus `y` of vault `x`. -/
def execVbmuxWrite (s : State) : Out :=
  let off := vbOff s.arg.x s.arg.y + 0x80 + 8 * s.arg.z
  if muxBad s.arg.val then .next s
  else .next (s.setMasked off (maskBits 63 62 + maskBits 14 8 + maskBits 6 0) s.arg.val)

/-- R365: BUS_RETIRE of bus `y` of vault `x`, as one act. -/
def execBusRetire (s : State) : Out :=
  let v := s.arg.x
  let b := s.arg.y
  .next (if s.busGone v b then s else s.retireBus v b)

end Sys2Proof.Machine
end

