-- ==== Sys2Proof/Machine/Hash.lean ====
section
/-! DEFINITION. SHA-512 and the verification of RSASSA-PSS signatures (R370, R372, RFC 8017), on lists of bytes. -/

namespace Sys2Proof.Machine

/-! ## SHA-512 (R370; FIPS 180-4, PRESUMED, log entry 27) -/

/-- The k-th root of n rounded down, its bits below 2^bits found one by one, the highest first, above `r`. -/
def rootFloor (k n : Nat) : Nat → Nat → Nat
  | 0, r => r
  | b + 1, r => rootFloor k n b (if (r + 2 ^ b) ^ k ≤ n then r + 2 ^ b else r)

/-- The first 64 bits of the fraction of the k-th root of p. -/
def rootWord (k p : Nat) : Word := BitVec.ofNat 64 (rootFloor k (p * 2 ^ (64 * k)) 68 0)

/-- The 80 primes below 410. -/
def shaPrimes : List Nat :=
  (List.range 410).filter (fun p => decide (2 ≤ p) && (List.range 21).all (fun d => decide (d < 2) || decide (p ≤ d) || p % d != 0))

/-- The round constants: from the cube roots of the primes. -/
def shaK : List Word := shaPrimes.map (rootWord 3)

/-- The initial hash value: from the square roots of the first eight primes. -/
def shaH : List Word := (shaPrimes.take 8).map (rootWord 2)

def rotr (x : Word) (n : Nat) : Word := x.rotateRight n

/-- The next word of the message schedule, from the sixteen before it, newest first. -/
def shaNext (w : List Word) : Word :=
  let s0 := let x := w.getD 14 0; rotr x 1 ^^^ rotr x 8 ^^^ (x >>> 7)
  let s1 := let x := w.getD 1 0; rotr x 19 ^^^ rotr x 61 ^^^ (x >>> 6)
  w.getD 15 0 + s0 + w.getD 6 0 + s1

/-- One round on the eight working variables, with constant `k` and message word `w`. -/
def shaRound (v : List Word) (k w : Word) : List Word :=
  let x := fun (i : Nat) => v.getD i 0
  let choose := (x 4 &&& x 5) ^^^ (~~~(x 4) &&& x 6)
  let major := (x 0 &&& (x 1 ^^^ x 2)) ^^^ (x 1 &&& x 2)
  let t := x 7 + choose + k + w + (rotr (x 4) 14 ^^^ rotr (x 4) 18 ^^^ rotr (x 4) 41)
  (t + major + (rotr (x 0) 28 ^^^ rotr (x 0) 34 ^^^ rotr (x 0) 39)) :: (v.set 3 (x 3 + t)).take 7

/-- The rounds over the constants; `w` holds the last sixteen words of the schedule, newest first, and `i` is the round. -/
def shaRounds : List Word → Nat → List Word → List Word → List Word
  | [], _, _, v => v
  | k :: ks, i, w, v =>
    if i < 16 then shaRounds ks (i + 1) w (shaRound v k (w.getD (15 - i) 0))
    else
      let x := shaNext w
      shaRounds ks (i + 1) (x :: w.take 15) (shaRound v k x)

/-- A big-endian number. -/
def beNat (bs : List Byte) : Nat := bs.foldl (fun a b => a * 256 + b.toNat) 0
/-- The big-endian bytes of a number. -/
def beBytes (n v : Nat) : List Byte := (List.range n).map (fun i => BitVec.ofNat 8 (v / 256 ^ (n - 1 - i)))

/-- One block of 128 bytes. -/
def shaBlock (h : List Word) (block : List Byte) : List Word :=
  let w : List Word := (List.range 16).map (fun i => BitVec.ofNat 64 (beNat ((block.drop (8 * i)).take 8)))
  (h.zip (shaRounds shaK 0 w.reverse h)).map (fun p => p.1 + p.2)

/-- The blocks of a padded message, one after the other. -/
def shaBlocks : Nat → List Word → List Byte → List Word
  | 0, h, _ => h
  | n + 1, h, bs => shaBlocks n (shaBlock h (bs.take 128)) (bs.drop 128)

/-- R370: the SHA-512 digest of bytes. -/
def sha512 (m : List Byte) : List Byte :=
  let n := m.length
  let pad := m ++ [0x80] ++ List.replicate ((111 + 128 - n % 128) % 128) 0 ++ beBytes 16 (8 * n)
  (shaBlocks (pad.length / 128) shaH pad).flatMap (fun w => beBytes 8 w.toNat)

/-! ## RSASSA-PSS (R372) -/

/-- x ^ (2 ^ k) modulo n. -/
def squareMod (n : Nat) : Nat → Nat → Nat
  | 0, x => x
  | k + 1, x => squareMod n k (x * x % n)

/-- R372: x ^ 65537 modulo n. -/
def rsaPublic (n x : Nat) : Nat := squareMod n 16 x * x % n

/-- MGF1 with SHA-512: `len` bytes. -/
def mgf1 (seed : List Byte) (len : Nat) : List Byte :=
  ((List.range ((len + 63) / 64)).flatMap (fun i => sha512 (seed ++ beBytes 4 i))).take len

/-- R372: the encoded message of 4,095 bits is that of a message: SHA-512, MGF1 with SHA-512, a salt of 64 bytes. -/
def pssMatches (msg em : List Byte) : Bool :=
  let masked := em.take 447
  let h := (em.drop 447).take 64
  let db := (masked.zip (mgf1 h 447)).map (fun p => p.1 ^^^ p.2)
  let db1 := (db.headD 0 &&& 0x7F) :: db.drop 1
  let salt := (db1.drop 383).take 64
  decide (em.length = 512) && em.getD 511 0 = 0xBC && (masked.headD 0).toNat < 128 &&
    (db1.take 382).all (fun b => b = 0) && db1.getD 382 0 = 1 &&
    sha512 (List.replicate 8 0 ++ sha512 msg ++ salt) = h

/-- R372: a signature over bytes verifies under a modulus (both as big-endian numbers of 512 bytes, RFC 8017). -/
def pssVerify (modulus msg sig : List Byte) : Bool :=
  let n := beNat modulus
  let x := beNat sig
  decide (x < n) && pssMatches msg (beBytes 512 (rsaPublic n x))

end Sys2Proof.Machine
end

