-- ==== Sys2Proof/Machine/Standard.lean ====
section
/-! DEFINITION. The six standard protocol images (R251 to R258), built from the tables of the manual and the defaults of
R253. The manual gives HMASK and AMASK of INV and AMASK of HOME; an image of the others may have any masks with which its
entries are the listed ones and the defaults (log entry 62). -/

namespace Sys2Proof.Machine

/-- A row of a protocol table: states, events, actions, next state (`none`: unchanged), disposition. -/
structure ProtoRow where
  sts : List Nat
  evs : List Ev
  acts : List Nat
  next : Option Nat := none
  disp : Nat := 0

/-- A table of a protocol: the attributes of its states, by number, and its rows. -/
structure ProtoTable where
  attrs : List Nat
  rows : List ProtoRow

/-! ## The names of R248 and R249 -/

def DSREQ : Nat := 0x01
def DXREQ : Nat := 0x02
def DUREQ : Nat := 0x03
def AKREQ : Nat := 0x04
def INVSH : Nat := 0x05
def INVALL : Nat := 0x06
def RCLSO : Nat := 0x07
def RCLIO : Nat := 0x08
def UPDSH : Nat := 0x09
def GRANT : Nat := 0x0A
def DISCALL : Nat := 0x0B
def MEMW : Nat := 0x0C
def ADDS : Nat := 0x0D
def SETO : Nat := 0x0E
def O2S : Nat := 0x0F
def CLRS : Nat := 0x10
def CLRO : Nat := 0x11
def APPLY : Nat := 0x12
def SEMF : Nat := 0x13
def SGETX : Nat := 0x21
def SPUTR : Nat := 0x22
def SWBR : Nat := 0x23
def SAMOR : Nat := 0x24
def SDROPR : Nat := 0x25
def SDATH : Nat := 0x26
def SACKH : Nat := 0x27
def SPUTN : Nat := 0x28
def FILL : Nat := 0x29
def WRL : Nat := 0x2A
def APU : Nat := 0x2B
def CMPL : Nat := 0x2C
def L1INV : Nat := 0x2D
def INVL : Nat := 0x2E
def TOVB : Nat := 0x2F
def FREEVB : Nat := 0x30

/-- R246: stall, refuse, fault with cause 0x08 or 0x0E. -/
def dStall : Nat := 1
def dRefuse : Nat := 2

/-- A fault entry: the cause stands in `acts`. -/
def faultRow (sts : List Nat) (evs : List Ev) (cause : Nat) : ProtoRow := ⟨sts, evs, [cause], none, 3⟩

/-! ## INV (R251, R252) -/

def invHome : ProtoTable where
  attrs := [0x000B, 0x008B, 0x0047, 0x0081, 0x0041, 0x0041, 0x0041]
  rows := [⟨[0], [.gets], [DSREQ, ADDS], some 1, 0⟩, ⟨[0], [.getx], [DXREQ, SETO], some 2, 0⟩,
    ⟨[0], [.uread], [DUREQ], none, 0⟩, ⟨[0], [.uwrite], [APPLY, AKREQ], none, 0⟩,
    ⟨[0], [.amor], [APPLY, DUREQ], none, 0⟩, ⟨[0], [.dropr], [AKREQ], none, 0⟩,
    ⟨[1], [.gets], [DSREQ, ADDS], none, 0⟩, ⟨[1], [.uread], [DUREQ], none, 0⟩,
    ⟨[1], [.getx], [INVSH], some 3, dStall⟩, ⟨[1], [.uwrite, .amor, .dropr, .recall], [INVALL], some 3, dStall⟩,
    ⟨[2], [.gets, .uread], [RCLSO], some 4, dStall⟩, ⟨[2], [.getx, .uwrite, .amor, .recall], [RCLIO], some 5, dStall⟩,
    ⟨[2], [.dropr], [DISCALL, CLRS], some 3, dStall⟩, ⟨[2], [.putr], [GRANT], some 6, 0⟩,
    ⟨[2], [.wbr], [MEMW, O2S, AKREQ], some 1, 0⟩, ⟨[3], [.ackh], [CLRS, CLRO], some 0, 0⟩,
    ⟨[4], [.dath], [MEMW, O2S], some 1, 0⟩, ⟨[5, 6], [.dath], [MEMW, CLRO], some 0, 0⟩,
    ⟨List.range 7, [.putn], [], none, 0⟩]

/-- The rows of INV's agent, but for M × WBL. -/
def invAgentRows : List ProtoRow :=
  [⟨[0], [.inv, .disc], [SACKH], none, 0⟩, ⟨[0], [.dats], [FILL, CMPL], some 1, 0⟩,
    ⟨[0], [.datx], [FILL, WRL, CMPL], some 2, 0⟩, ⟨[1], [.ld, .wbl], [CMPL], none, 0⟩,
    ⟨[1], [.st, .pfw], [SGETX], some 3, 0⟩, ⟨[1], [.evict], [L1INV, INVL], some 0, 0⟩,
    ⟨[1, 2], [.amol], [SAMOR], none, 0⟩, ⟨[1, 2], [.dropl], [SDROPR], none, 0⟩,
    ⟨[1, 2], [.inv, .disc], [L1INV, INVL, SACKH], some 0, 0⟩, ⟨[1, 2], [.rcls], [SDATH], some 1, 0⟩,
    ⟨[1, 2], [.rcli], [L1INV, SDATH, INVL], some 0, 0⟩, ⟨[2], [.ld], [CMPL], none, 0⟩,
    ⟨[2], [.st], [WRL, CMPL], none, 0⟩, ⟨[2], [.pfw], [], none, 0⟩,
    ⟨[2], [.evict], [L1INV, TOVB, SPUTR], some 5, 0⟩, ⟨[3], [.ld], [CMPL], none, 0⟩,
    ⟨[3], [.inv, .disc], [L1INV, INVL, SACKH], some 4, 0⟩, ⟨[3, 4], [.datx], [FILL, WRL, CMPL], some 2, 0⟩,
    ⟨[4, 6], [.inv, .disc], [SACKH], none, 0⟩, ⟨[5], [.rcls, .rcli], [SDATH], some 6, 0⟩,
    ⟨[5], [.disc], [SACKH], some 6, 0⟩, ⟨[5], [.putg], [SDATH, FREEVB], some 0, 0⟩,
    ⟨[6], [.putg], [SPUTN, FREEVB], some 0, 0⟩, ⟨List.range 7, [.ack, .datu], [CMPL], none, 0⟩]

def invAgentAttrs : List Nat := [0x0003, 0x001B, 0x003F, 0x0019, 0x0001, 0x0009, 0x0001]

def invAgent : ProtoTable := ⟨invAgentAttrs, invAgentRows ++ [⟨[2], [.wbl], [SWBR], some 1, 0⟩]⟩

/-! ## MIG (R254) -/

def migHome : ProtoTable where
  attrs := [0x000B, 0, 0x0047, 0x0081, 0, 0x0041, 0x0041]
  rows := [⟨[0], [.gets, .getx], [DXREQ, SETO], some 2, 0⟩, ⟨[0], [.uread], [DUREQ], none, 0⟩,
    ⟨[0], [.uwrite], [APPLY, AKREQ], none, 0⟩, ⟨[0], [.amor], [APPLY, DUREQ], none, 0⟩,
    ⟨[0], [.dropr], [AKREQ], none, 0⟩, ⟨[2], [.gets, .uread], [RCLIO], some 5, dStall⟩,
    ⟨[2], [.getx, .uwrite, .amor, .recall], [RCLIO], some 5, dStall⟩, ⟨[2], [.dropr], [DISCALL, CLRS], some 3, dStall⟩,
    ⟨[2], [.putr], [GRANT], some 6, 0⟩, ⟨[2], [.wbr], [MEMW, AKREQ], none, 0⟩,
    ⟨[3], [.ackh], [CLRS, CLRO], some 0, 0⟩, ⟨[5, 6], [.dath], [MEMW, CLRO], some 0, 0⟩,
    ⟨[0, 2, 3, 5, 6], [.putn], [], none, 0⟩]

def migAgent : ProtoTable := ⟨invAgentAttrs, invAgentRows ++ [⟨[2], [.wbl], [SWBR], none, 0⟩]⟩

/-! ## UPD (R255) -/

def updHome : ProtoTable where
  attrs := [0x000B, 0x008B, 0x0081]
  rows := [⟨[0], [.gets], [DSREQ, ADDS], some 1, 0⟩, ⟨[0], [.uread], [DUREQ], none, 0⟩,
    ⟨[0], [.getx, .uwrite], [APPLY, AKREQ], none, 0⟩, ⟨[0], [.amor], [APPLY, DUREQ], none, 0⟩,
    ⟨[1], [.gets], [DSREQ, ADDS], none, 0⟩, ⟨[1], [.uread], [DUREQ], none, 0⟩,
    ⟨[1], [.getx, .uwrite], [APPLY, UPDSH, AKREQ], none, 0⟩, ⟨[1], [.amor, .recall], [INVALL], some 2, dStall⟩,
    ⟨[2], [.ackh], [CLRS], some 0, 0⟩, faultRow [0, 1] [.dropr] 0x08]

/-- The rows that the agents of UPD and WONCE share (R255, R256). I × INV is not among them: it holds R253's default. -/
def onceAgentRows : List ProtoRow :=
  [⟨[0], [.dats], [FILL, CMPL], some 1, 0⟩, ⟨[1], [.ld], [CMPL], none, 0⟩, ⟨[1], [.st], [SGETX], none, 0⟩,
    ⟨[1], [.evict], [L1INV, INVL], some 0, 0⟩, ⟨[1], [.inv], [L1INV, INVL, SACKH], some 0, 0⟩,
    ⟨[0, 1], [.ack, .datu], [CMPL], none, 0⟩]

def updAgent : ProtoTable :=
  ⟨[0x0003, 0x001B], onceAgentRows ++ [⟨[1], [.upd], [APU, SACKH], none, 0⟩, ⟨[0], [.upd], [SACKH], none, 0⟩]⟩

/-! ## WONCE (R256) -/

def wonceHome : ProtoTable where
  attrs := [0x000B, 0x018B, 0x0081]
  rows := [⟨[0], [.gets, .uread], [DUREQ], none, 0⟩, ⟨[0], [.getx, .uwrite], [APPLY, AKREQ], some 1, 0⟩,
    ⟨[0], [.amor], [APPLY, DUREQ], some 1, 0⟩, ⟨[1], [.gets], [DSREQ, ADDS], none, 0⟩,
    ⟨[1], [.uread], [DUREQ], none, 0⟩, faultRow [1] [.getx, .uwrite, .amor] 0x0E,
    ⟨[1], [.recall], [INVALL], some 2, dStall⟩, ⟨[2], [.ackh], [CLRS], some 1, 0⟩, faultRow [0, 1] [.dropr] 0x08]

def wonceAgent : ProtoTable := ⟨[0x0003, 0x001B], onceAgentRows⟩

/-! ## RING (R257) -/

def ringHome : ProtoTable where
  attrs := [0x000B, 0x0047, 0x000B, 0x008B, 0x0081, 0x0041, 0x0041]
  rows := [⟨[0, 1], [.gets, .uread], [], none, dRefuse⟩, ⟨[0, 2], [.getx], [DXREQ, SETO], some 1, 0⟩,
    ⟨[0, 2], [.uwrite], [APPLY, AKREQ, SEMF], some 2, 0⟩, ⟨[0, 2], [.amor], [APPLY, DUREQ], none, 0⟩,
    ⟨[1], [.getx], [], none, dRefuse⟩, ⟨[1], [.wbr], [MEMW, CLRO, AKREQ, SEMF], some 2, 0⟩,
    ⟨[1], [.putr], [GRANT], some 6, 0⟩, ⟨[1], [.uwrite, .amor, .recall], [RCLIO], some 5, dStall⟩,
    ⟨[5, 6], [.dath], [MEMW, CLRO], some 0, 0⟩, ⟨[2, 3], [.gets], [DSREQ, ADDS], some 3, 0⟩,
    ⟨[2, 3], [.uread], [DUREQ], none, 0⟩, ⟨[3], [.getx, .uwrite, .amor, .recall], [INVALL], some 4, dStall⟩,
    ⟨[4], [.ackh], [CLRS], some 2, 0⟩, faultRow [0, 1, 2, 3] [.dropr] 0x08]

def ringAgent : ProtoTable := ⟨invAgentAttrs, invAgentRows ++ [⟨[2], [.wbl], [SWBR, L1INV, INVL], some 0, 0⟩]⟩

/-! ## HOME (R258) -/

def homeHome : ProtoTable where
  attrs := [0x000B]
  rows := [⟨[0], [.gets, .uread], [DUREQ], none, 0⟩, ⟨[0], [.getx, .uwrite], [APPLY, AKREQ], none, 0⟩,
    ⟨[0], [.amor], [APPLY, DUREQ], none, 0⟩, faultRow [0] [.dropr] 0x08]

def homeAgent : ProtoTable := ⟨[0x0003], [⟨[0], [.ack, .datu], [CMPL], none, 0⟩]⟩

/-! ## Entries -/

/-- R246: the entry of a row in a state. -/
def ProtoRow.entry (r : ProtoRow) (st : Nat) : Nat :=
  if r.disp = 3 then 0x30000000 + 16 * r.acts.headD 0
  else
    r.next.getD st + r.acts.getD 0 0 * 2 ^ 4 + r.acts.getD 1 0 * 2 ^ 10 + r.acts.getD 2 0 * 2 ^ 16 +
      r.acts.getD 3 0 * 2 ^ 22 + r.disp * 2 ^ 28

/-- The codes of the classes LOC, REQ and CTL, for which a transient state stalls (R253). -/
def codeStalls (code : Nat) : Bool := code ≤ 6 || (8 ≤ code && code ≤ 0x10)

/-- R247, R253: the entry that no table lists. A LOC event of agent state 0 has the undefined marker (R250, rule 0x0F). -/
def ProtoTable.default (t : ProtoTable) (agent : Bool) (mask st code : Nat) : Nat :=
  let attr := t.attrs.getD st 0
  if attr = 0 || !(mask / 2 ^ code % 2 = 1) || (agent && st = 0 && code ≤ 6) then 0xC0000000
  else if attrStable attr || !codeStalls code then 0x30000080
  else 0x10000000 + st

/-- R253: one entry of a table under a mask. -/
def ProtoTable.entry (t : ProtoTable) (agent : Bool) (mask st code : Nat) : Nat :=
  match t.rows.find? (fun r => r.sts.contains st && r.evs.any (fun e => e.code = code)) with
  | some r => r.entry st
  | none => t.default agent mask st code

/-- The 512 entries of a table. -/
def ProtoTable.bytes (t : ProtoTable) (agent : Bool) (mask : Nat) : List Byte :=
  (List.range 16).flatMap (fun st => (List.range 32).flatMap (fun code => leBytes 4 (t.entry agent mask st code)))

def ProtoTable.attrBytes (t : ProtoTable) : List Byte :=
  (List.range 16).flatMap (fun st => leBytes 2 (t.attrs.getD st 0))

/-- The mask bits of the events that a table lists. -/
def ProtoTable.events (t : ProtoTable) : Nat :=
  (t.rows.flatMap (fun r => r.evs)).foldl (fun m e => m ||| 2 ^ e.code) 0

/-- The tables of the home and of the agent of a standard protocol, by slot. -/
def stdTables (slot : Nat) : ProtoTable × ProtoTable :=
  match slot with
  | 0 => (invHome, invAgent)
  | 1 => (updHome, updAgent)
  | 2 => (migHome, migAgent)
  | 3 => (wonceHome, wonceAgent)
  | 4 => (ringHome, ringAgent)
  | _ => (homeHome, homeAgent)

/-- R245: the image of a standard protocol with the given masks. -/
def stdImage (slot hmask amask : Nat) : List Byte :=
  let t := stdTables slot
  leBytes 4 0x4C560001 ++ leBytes 4 (slot + 1) ++ leBytes 4 hmask ++ leBytes 4 amask ++ List.replicate 48 0 ++
    t.1.attrBytes ++ t.2.attrBytes ++ t.1.bytes false hmask ++ t.2.bytes true amask

/-- R251, R254, R256 to R258: what the manual says of the masks: MIG's are INV's, RING's AMASK is INV's, and WONCE's agent
table has no UPD events. -/
def stdMasksOk (slot hmask amask : Nat) : Bool :=
  match slot with
  | 0 => hmask = 0xC001FF80 && amask = 0x3F70007F
  | 2 => hmask = 0xC001FF80 && amask = 0x3F70007F
  | 3 => !(amask.testBit Ev.upd.code)
  | 4 => amask = 0x3F70007F
  | 5 => amask = 0x30000000
  | _ => true

/-- R251 to R258: an image is the standard one of its slot. -/
def isStandard (img : List Byte) (slot : Nat) : Bool :=
  let hmask := le32 img 8
  let amask := le32 img 12
  let t := stdTables slot
  stdMasksOk slot hmask amask && hmask ||| t.1.events = hmask && amask ||| t.2.events = amask &&
    img = stdImage slot hmask amask

end Sys2Proof.Machine
end

