-- ==== Sys2Proof/Machine/Boot.lean ====
section
/-! DEFINITION. The flash, the slots and their verification, the boot ROM and the bring-up of the resident kernel
(R369 to R383), and the measurements (R375, R376). -/

namespace Sys2Proof.Machine

/-! ## Flash (R369, R370) -/

/-- R369: where a slot begins. -/
def slotBase (k : Nat) : Nat := if k = 0 then 0x100000 else 0x3100000
/-- R369: 48 MiB. -/
def slotSize : Nat := 0x3000000

def State.flashBytes (s : State) (a n : Nat) : List Byte := readBytes 0xFF s.flash a n
def State.slotBytes (s : State) (k off n : Nat) : List Byte := s.flashBytes (slotBase k + off) n

/-- Bytes of flash are erased: they read 0xFF. -/
def State.flashErase (s : State) (a n : Nat) : State :=
  { s with flash := s.flash.filter (fun e => !(a ≤ e.1 && e.1 < a + n)) }
def State.flashWrite (s : State) (a : Nat) (bs : List Byte) : State := { s with flash := writeBytes 0xFF s.flash a bs }

def markerAddr (copy : Nat) : Nat := 0x1000 * copy

/-- R370: an intact marker copy: its GEN and its SLOT. -/
def State.marker (s : State) (copy : Nat) : Option (Nat × Nat) :=
  let b := s.flashBytes (markerAddr copy) 128
  let slot := (b.getD 8 0).toNat
  if le32 b 0 = 0x4D4B5331 && slot < 2 && ((b.drop 9).take 55).all (fun x => x = 0) && b.drop 64 = sha512 (b.take 64) then
    some (le32 b 4, slot)
  else none

/-- R370: the bytes of a marker. -/
def markerBytes (gen slot : Nat) : List Byte :=
  let b : List Byte := leBytes 4 0x4D4B5331 ++ leBytes 4 gen ++ [BitVec.ofNat 8 slot] ++ List.replicate 55 0
  b ++ sha512 b

/-- R371: the copy that names the slot. -/
def State.chosenCopy (s : State) : Option Nat :=
  match s.marker 0, s.marker 1 with
  | some a, some b => some (if a.1 < b.1 then 1 else 0)
  | some _, none => some 0
  | none, some _ => some 1
  | none, none => none

/-- R371: the marker that names the slot: its GEN and its SLOT. -/
def State.chosenMarker (s : State) : Option (Nat × Nat) := s.chosenCopy.bind s.marker

/-- R371: the order in which the slots are tried. -/
def State.slotOrder (s : State) : List Nat :=
  match s.chosenMarker with
  | some (_, 1) => [1, 0]
  | _ => [0, 1]

/-! ## Manifest and items (R373; numbers are little-endian, moduli and signatures big-endian, log entry 28) -/

def le64 (bs : List Byte) (off : Nat) : Nat := leNat ((bs.drop off).take 8)

/-- R373: the manifest of a slot. -/
def State.manifest (s : State) (k : Nat) : List Byte := s.slotBytes k 0 0xE50
def manSvn (m : List Byte) : Nat := le32 m 4
def manCount (m : List Byte) : Nat := le32 m 8
def manCommit (m : List Byte) : Bool := le32 m 0xC % 2 = 1

/-- Item entry `i` of a manifest: 96 bytes. -/
def manEntry (m : List Byte) (i : Nat) : List Byte := (m.drop (0x650 + 96 * i)).take 96
def entOff (e : List Byte) : Nat := le64 e 0
def entLen (e : List Byte) : Nat := le64 e 8
def entKind (e : List Byte) : Nat := (e.getD 16 0).toNat
def entMidx (e : List Byte) : Nat := (e.getD 17 0).toNat
def entArg (e : List Byte) : Nat := (e.getD 18 0).toNat
def entDigest (e : List Byte) : List Byte := (e.drop 32).take 64

/-- The used entries of a manifest. -/
def manItems (m : List Byte) : List (List Byte) := (List.range (manCount m)).map (manEntry m)
def manKind (m : List Byte) (kind : Nat) : List (List Byte) := (manItems m).filter (fun e => entKind e = kind)

/-- The bytes of an item. -/
def State.item (s : State) (k : Nat) (e : List Byte) : List Byte := s.slotBytes k (entOff e) (entLen e)

def zeros (bs : List Byte) : Bool := bs.all (fun b => b = 0)

/-- R373: the floor of the security version. -/
def State.floorSvn (s : State) : Nat := Nat.max Config.svnFuse s.svnFloor

/-- R373: the magic, the reserved fields, the numbers and the signatures of a manifest. -/
def State.manifestOk (s : State) (m : List Byte) : Bool :=
  le32 m 0 = 0x4D4E4631 && manSvn m ≤ 64 && 1 ≤ manCount m && manCount m ≤ 16 && le32 m 0xC < 2 &&
    zeros ((m.drop 0x414).take 60) &&
    (List.range 16).all (fun i => if i < manCount m then zeros (((manEntry m i).drop 19).take 13) else zeros (manEntry m i)) &&
    sha512 ((m.drop 0x10).take 512) = Config.rootHash &&
    s.floorSvn ≤ manSvn m && le32 m 0x410 ≤ manSvn m &&
    pssVerify ((m.drop 0x10).take 512) ((m.drop 0x210).take 0x240) ((m.drop 0x450).take 512) &&
    pssVerify ((m.drop 0x210).take 512) (m.take 0xC50) ((m.drop 0xC50).take 512)

/-- R373: an item lies within the slot and matches its digest. -/
def State.itemOk (s : State) (k : Nat) (e : List Byte) : Bool :=
  entOff e % 64 = 0 && 0x1000 ≤ entOff e && entOff e + entLen e ≤ slotSize && 1 ≤ entKind e && entKind e ≤ 5 &&
    3 ≤ entMidx e && entMidx e ≤ 7 && (entKind e != 3 || entArg e < 6) && sha512 (s.item k e) = entDigest e

/-- R373, R251 to R258: a protocol image for slot ARG: it passes the checker, and it is the standard image of that slot. -/
def imageOk (img : List Byte) (arg : Nat) : Bool :=
  img.length = 4224 && (checkImage img arg).isNone && imgProtid img = arg + 1 && isStandard img arg

/-! ## The configuration table and the kernel header (R379, R382) -/

def cfgCol (t : List Byte) : Nat := (t.getD 0 0).toNat
def cfgBase (t : List Byte) : Nat := le64 t 8
def cfgLen (t : List Byte) : Nat := le64 t 16

/-- R379: a multiple of 64 MiB within 2^38 that is not 0. -/
def regionWord (v : Nat) : Bool := v != 0 && v % 0x4000000 = 0 && v < 2 ^ 38

/-- R379: a valid configuration table. -/
def cfgOk (t : List Byte) : Bool :=
  t.length = 64 && cfgCol t ≤ 127 && (t.getD 1 0).toNat < 2 && (t.getD 2 0).toNat < 128 && (t.getD 3 0).toNat < 4 &&
    400 ≤ le16 t 4 && le16 t 4 ≤ 2000 && le16 t 6 = 0 && regionWord (cfgBase t) && regionWord (cfgLen t) &&
    zeros (t.drop 24)

def khCore (h : List Byte) : Nat := le16 h 4
def khAsid (h : List Byte) : Nat := le16 h 6
def khLoad (h : List Byte) : Nat := le64 h 8
def khEntry (h : List Byte) : Nat := le64 h 0x10
def khAtab (h : List Byte) : Nat := le64 h 0x18
def khOvf (h : List Byte) : Nat := le64 h 0x20
def khLo (h : List Byte) : Nat := le16 h 0x28
def khHi (h : List Byte) : Nat := le16 h 0x2A
def khSemb (h : List Byte) : Nat := (h.getD 0x2C 0).toNat
def khSemn (h : List Byte) : Nat := le16 h 0x2E

/-- R382: a copy of `n` bytes at `la` stays within the cube, off the firmware region and off retired half-vaults. -/
def State.copyFits (s : State) (la n base len : Nat) : Bool :=
  la + n ≤ 2 ^ 38 && (la + n ≤ base || base + len ≤ la) &&
    (List.range ((n + 8191) / 8192)).all (fun i => !s.retired (la + 8192 * i))

/-- R382: a valid kernel item. -/
def State.kernelOk (s : State) (cfg item : List Byte) : Bool :=
  64 ≤ item.length && le32 item 0 = 0x4B484431 && item.getD 0x2D 0 = 0 && zeros ((item.drop 0x30).take 16) &&
    khCore item < 16384 && coreCol (khCore item) != cfgCol cfg && khLo item ≤ khHi item && khLo item ≤ khAsid item &&
    khAsid item ≤ khHi item && khSemn item ≤ 256 && khLoad item % 2 ^ 21 = 0 && khOvf item % 4096 = 0 && (khLoad item + khAtab item) % 2 ^ 19 = 0 &&
    khAtab item + 2 ^ 19 ≤ item.length && s.copyFits (khLoad item) item.length (cfgBase cfg) (cfgLen cfg)

/-- R373: the configuration table of a slot. -/
def State.slotConfig (s : State) (k : Nat) : List Byte := s.item k ((manKind (s.manifest k) 2).headD [])

/-- R373: a slot verifies. -/
def State.verifySlot (s : State) (k : Nat) : Bool :=
  let m := s.manifest k
  s.manifestOk m && (manItems m).all (s.itemOk k) && (manKind m 1).length = 1 && (manKind m 2).length = 1 &&
    (List.range 6).all (fun a =>
      match (manKind m 3).filter (fun e => entArg e = a) with
      | [e] => imageOk (s.item k e) a
      | _ => false) &&
    cfgOk (s.slotConfig k) && (manKind m 4).length ≤ 1 && (manKind m 4).all (fun e => s.kernelOk (s.slotConfig k) (s.item k e))

/-- R371: the slot that boots. -/
def State.bootSlot (s : State) : Option Nat := s.slotOrder.find? s.verifySlot

/-! ## Measurements (R375, R376) -/

def State.measure (s : State) (n : Nat) : List Byte := mget (List.replicate 64 0) s.meas n

/-- R375: MEASn is extended with a digest. -/
def State.extend (s : State) (n : Nat) (d : List Byte) : State :=
  { s with meas := mset (List.replicate 64 0) s.meas n (sha512 (s.measure n ++ d)) }

/-- R376: MEAS_EXTEND: a GO of MEASCMD, on MEASDATA as it stands. A locked index sets ERR. -/
def execMeasExtend (s : State) : Out :=
  let n := s.csrField 0x40A0440 3 0
  if wbit (s.csrAt 0x40A0448) n then .next (s.setCsrField 0x40A0440 62 62 1)
  else .next (s.extend n (wordBytes ((List.range 8).map (fun w => s.csrAt (0x40A0400 + 8 * w)))))

/-- R375: what the choice of the slot extends. -/
def State.measureChoice (s : State) (fallback : Bool) : State :=
  let d := match s.chosenCopy with
    | some c => sha512 (s.flashBytes (markerAddr c) 64)
    | none => sha512 (List.replicate 64 0)
  let s1 := (s.extend 0 Config.romDigest).extend 1 d
  if fallback then s1.extend 1 (sha512 [1]) else s1

/-- R375: what the booted slot extends; MEAS0 to MEAS7 are locked. -/
def State.measureSlot (s : State) (k : Nat) : State :=
  let m := s.manifest k
  let s1 := s.extend 2 (sha512 (m.take 0x450))
  let s2 := (manItems m).foldl (fun t e => t.extend (entMidx e) (entDigest e)) s1
  s2.setCsrField 0x40A0448 7 0 0xFF

/-! ## Cube reset (R374) -/

/-- The state that a cube reset leaves: the reset state with what lies in flash and fuses, the records of errors, the
management port's dynamic address and what has been sent. -/
def State.coldReset (s : State) : State :=
  { State.reset with agenda := [], free := s.free, flash := s.flash, powered := s.powered + s.now, errors := s.errors,
                     lifetime := s.lifetime, repairs := s.repairs, svnFloor := s.svnFloor, i3cStatic := Config.i3cFuse,
                     i3cDynamic := s.i3cDynamic, sent := s.sent }

/-- R374 step 1: the self-test of core `n` fails; 16384 + c is the spare of cluster c. -/
def State.bootFails (s : State) (n : Nat) : Bool := Config.bootCoreFails (32768 * s.free + n)

/-- R374 step 1: the core on which the ROM runs. -/
def State.romCore (s : State) : Option Nat := ((List.range 128).map (fun r => mkCore r 127)).find? (fun n => !s.bootFails n)

/-- R374 step 2: a failing core is fenced, and the spare of its cluster takes its coordinate if it passes. -/
def State.bootCore (s : State) (n : Nat) : State :=
  let cl := clusterOf n
  let off := 0x4070000 + 8 * cl
  let s1 := s.setCsrField off (posOf n) (posOf n) 1
  if !s1.spareFree cl then s1
  else if s1.bootFails (16384 + cl) then s1.setCsrField off 62 62 1
  else (s1.setCsrField off 63 63 1).setCsrField off 59 56 (posOf n)

/-- R374 step 2: the lane spares of the field-life log. -/
def State.bootLane (s : State) (p : Place) : State :=
  match p with
  | .lane port _ l => s.setCsrField (portOff port + 8) 46 42 l
  | _ => s

/-- R374 step 2: the walking-ones test of a bus, wire by wire; the third position of a group retires the bus. -/
def walkBus (v b : Nat) : List Nat → State → State
  | [], s => s
  | w :: ws, s =>
    let r := s.wireStep v b w
    if r.1 = 0 then walkBus v b ws r.2.2
    else
      match r.2.2.repairWire v b r.2.1 with
      | (9, t) => { t.setCsrField (vbOff v b + 16) 62 62 1 with agenda := [] }
      | (_, t) => walkBus v b ws t

/-- R374 step 2. -/
def State.selfTest (s : State) : State :=
  let s1 := s.repairs.foldl State.bootLane s
  let s2 := ((List.range 16384).filter s1.bootFails).foldl State.bootCore s1
  (List.range 128).foldl (fun t i => walkBus (i / 2) (i % 2) (List.range 1056) t) s2.useFree

/-- R374 step 5: an item at the next multiple of 64 bytes of the firmware region, while it fits (log entry 28). -/
def State.loadItem (s : State) (k : Nat) (limit : Nat) (at_ : Nat) (e : List Byte) : Nat × State :=
  if at_ + entLen e ≤ limit then ((at_ + entLen e + 63) / 64 * 64, s.dramWrite at_ (s.item k e)) else (at_, s)

/-- R374 step 5: the items and the images of a slot are loaded. -/
def State.loadSlot (s : State) (k : Nat) : State :=
  let m := s.manifest k
  let cfg := s.slotConfig k
  let items := (manItems m).filter (fun e => entKind e != 2 && entKind e != 3)
  let s1 := (items.foldl (fun (acc : Nat × State) e => acc.2.loadItem k (cfgBase cfg + cfgLen cfg) acc.1 e) (cfgBase cfg, s)).2
  (manKind m 3).foldl (fun t e => { t with images := mset [] t.images (entArg e) (t.item k e) }) s1

/-- R374 step 6, R379, R380: the configuration table is applied. -/
def State.applyConfig (s : State) (cfg : List Byte) : State :=
  let bit := fun (i n : Nat) => bitsOf (cfg.getD i 0).toNat n n
  let s1 := ((s.setCsrField 0x40B0000 6 0 (cfgCol cfg)).setCsrField 0x40B0000 9 9 (bit 1 0)).setCsrField 0x40B0000 63 63 1
  let s2 := (s1.setCsrField 0x40B0008 37 0 (cfgBase cfg)).setCsrField 0x40B0010 37 0 (cfgLen cfg)
  let s3 := (s2.setCsrField (portOff 10) 62 62 (bit 3 0)).setCsrField (portOff 11) 62 62 (bit 3 1)
  { s3.setCsrField 0x40C0000 15 0 (le16 cfg 4) with i3cStatic := (cfg.getD 2 0).toNat }

/-- R374 step 6: a firmware-level task on a core of the column. -/
def State.startFirmware (s : State) (n : Nat) : State :=
  if s.fenced n then s
  else
    let root := Config.fwRoot % 2 ^ 56 / 4096 * 4096
    let c : Ctx := { st := .running, pc := Config.fwEntry, asid := Config.fwAsid % 65536, ptbase := BitVec.ofNat 64 root,
                     sbank := .resident, kernel := true, uid := s.serial + 1 }
    let bound := fun (t : Tile) => if t.asids.isEmpty then { t with asids := [(Config.fwAsid % 65536, some root)] } else t
    ((({ s with serial := s.serial + 1 } : State).setCtx n 0 c).seat n 0 0 2).updTile (tileOf n) bound

/-! ## Bring-up of the resident kernel (R383) -/

/-- R383: a store of the firmware to the cube's own control space. -/
def State.fwStore (s : State) (off v : Nat) : State := s.ctlWrite off (BitVec.ofNat 64 v) 2 none

/-- R383 step 1. -/
def State.bringUp1 (s : State) : State :=
  let s1 := s.fwStore 0x4050300 (s.self * 2 ^ 48)
  let s2 := (s1.fwStore 0x3000 (2 ^ 63 + 32 * 2 ^ 46 + 64)).fwStore 0x3008 0
  s2.fwStore 0x8000 (setBits (s2.csrAt 0x8000) 15 0 s.self).toNat

/-- R383 step 4: partition 0 and the launch queues. -/
def State.bringUp4 (s : State) (item : List Byte) : State :=
  let w0 := 2 ^ 63 + khCore item * 2 ^ 32 + khHi item * 2 ^ 16 + khLo item
  let w1 := 2 ^ 63 + 2 ^ 34 + s.self * 2 ^ 20
  let words := [w0, w1, 0, 0, 0, 0, khOvf item, khSemn item * 2 ^ 8 + khSemb item]
  let s1 := words.zipIdx.foldl (fun t e => t.fwStore (partOff 0 e.2) e.1) s
  (List.range 64).foldl (fun t q => t.fwStore (0x2000 + 16 * q) (2 ^ 63 + 2 * 2 ^ 52 + 63 * 2 ^ 40)) s1

/-- R383 step 5: a spawn of priority 0 by a core of the column. -/
def State.fwSpawn (s : State) (n dest asid : Nat) (pc : Word) (args : List Word) : State :=
  let seq := (s.core n).spawnSeq
  let w0 := setBits pc 63 57 0
  let p : Packet := ⟨[w0, packetW1 asid (s.gcid n) seq] ++ args, s.gcid dest, s.gcid n, .spawn, 2⟩
  let s1 := s.updCore n (fun c => { c with spawnSeq := (seq + 1) % 2 ^ 20, seqLog := [(seq, s.now)],
                                           bounce := c.bounce ++ [({ p := p, back := false, ord := s.serial, ctx := 2, uid := 0, dead := false } : Bounce)] })
  ({ s1 with serial := s1.serial + 1 } : State).sendPacket p

/-- R383: the first core of the column that serves. -/
def State.columnCore (s : State) : Nat :=
  (((List.range 128).map (fun r => mkCore r s.fwCol)).find? (fun n => !s.fenced n)).getD (mkCore 0 s.fwCol)

/-- R383: the shipped firmware brings up the resident kernel. -/
def State.bringUp (s : State) (k : Nat) : State :=
  let s1 := s.bringUp1
  match manKind (s.manifest k) 4 with
  | [] => s1
  | e :: _ =>
    let item := s.item k e
    let s2 := (s1.dramWrite (khLoad item) item).fwStore 0x4060000 (2 ^ 63 + khLoad item + khAtab item)
    (s2.bringUp4 item).fwSpawn s2.columnCore (khCore item) (khAsid item) (BitVec.ofNat 64 (khEntry item))
      [BitVec.ofNat 64 (khLoad item), BitVec.ofNat 64 s2.fwCol, s2.csrAt 0x40A0480, 0, 0, 0]

/-- R268, R339, R350, R361: what the shipped firmware and the link layer do from time to time. -/
def State.startTimers (s : State) : State :=
  (((s.after (10 * cyclesPerUs) .heartbeatSend {}).after (10 * cyclesPerUs) .coreProbe {}).after (1000000 * cyclesPerUs)
    .flashLogWrite {}).after scrubPass .patrolScrub {}

/-- R376: BOOTSTAT. -/
def bootStat (fallback rec : Bool) (gen slot : Nat) : Word :=
  BitVec.ofNat 64 ((if fallback then 2 ^ 63 else 0) + (if rec then 2 ^ 62 else 0) + gen % 2 ^ 32 * 2 ^ 8 + slot)

/-- R374 steps 3 to 6: slot `k` boots. -/
def State.boot (s : State) (k : Nat) : State :=
  let m := s.manifest k
  let fallback := s.slotOrder.headD 0 != k
  let gen := match s.chosenMarker with
    | some g => g.1
    | none => 0
  let s1 := (s.measureChoice fallback).measureSlot k
  let s2 := if manCommit m then { s1 with svnFloor := Nat.max s1.svnFloor (Nat.max s1.floorSvn (manSvn m)) } else s1
  let s3 := ((s2.setCsr 0x40A0480 (bootStat fallback false gen k)).loadSlot k).applyConfig (s.slotConfig k)
  let col := s3.fwCol
  let s4 := (List.range 128).foldl (fun t r => t.startFirmware (mkCore r col)) s3
  { (s4.bringUp k).startTimers with mode := .running }

/-- R377: the ROM is in recovery. -/
def State.recover (s : State) : State :=
  { (s.measureChoice false).setCsr 0x40A0480 (bootStat false true 0 0) with mode := .recovery }

/-- R374: CUBE_RESET: the cube is reset and the ROM runs, up to the start of the firmware, as one step. -/
def execCubeReset (s : State) : Out :=
  let c := s.coldReset
  match c.romCore with
  | none => .next c.useFree
  | some _ =>
    let s1 := c.selfTest
    match s1.bootSlot with
    | some k => .next (s1.boot k)
    | none => .next s1.recover

/-! ## Recovery and updates (R377, R378) -/

/-- R378: the bytes of an event. -/
def EvBody.theBytes : EvBody → List Byte
  | .bytes b => b
  | _ => []

/-- R377, R378: a message of the PLDM service of a transport (DSP0267's numbers, PRESUMED, log entry 29). -/
def State.pldm (s : State) (transport command code : Nat) : State :=
  s.sendOut transport [0x05, BitVec.ofNat 8 command, BitVec.ofNat 8 code]

/-- R369: an image is written to a slot. -/
def State.writeSlot (s : State) (k : Nat) (img : List Byte) : State :=
  (s.flashErase (slotBase k) slotSize).flashWrite (slotBase k) (img.take slotSize)

/-- R370, R378: a marker copy is erased, and written. -/
def State.eraseMarker (s : State) (copy : Nat) : State := s.flashErase (markerAddr copy) 0x1000
def State.writeMarker (s : State) (copy gen slot : Nat) : State := s.flashWrite (markerAddr copy) (markerBytes gen slot)

/-- R377: GEN for the markers that recovery writes; 0xFFFFFFFF is never written (R370). -/
def State.recoveryGen (s : State) : Nat :=
  match s.marker 0, s.marker 1 with
  | none, none => 1
  | a, b => Nat.min ((Nat.max ((a.map Prod.fst).getD 0) ((b.map Prod.fst).getD 0)) + 1) 0xFFFFFFFE

/-- R377: RECOVERY_IMAGE_RECEIVE of an image: the update, if one was requested, is over. -/
def execRecoveryImageReceive (s : State) : Out :=
  if s.mode != .recovery then .next s
  else
    let s1 := { s.writeSlot 0 (EvBody.theBytes s.arg.body) with update := none }
    if s1.verifySlot 0 then
      let g := s1.recoveryGen
      .next ((((((s1.eraseMarker 0).writeMarker 0 g 0).eraseMarker 1).writeMarker 1 g 0).pldm 1 0x17 0).post .cubeReset {})
    else .next (s1.pldm 1 0x17 1)

/-- R377, R378: an update over transport `t` begins, or finds one in progress. -/
def State.beginUpdate (s : State) (t : Nat) : State :=
  if s.update.isSome then s.pldm t 0x10 0x81 else { s with update := some { transport := t } }.pldm t 0x10 0

/-- R377, R378: REQUEST_UPDATE over transport `x`. In recovery the ROM serves the management port alone. -/
def execRequestUpdate (s : State) : Out :=
  match s.mode with
  | .running =>
    if s.update.isNone && s.csrField 0x40A0480 39 8 = 0xFFFFFFFE then .next (s.pldm s.arg.x 0x10 0x8A)
    else .next (s.beginUpdate s.arg.x)
  | .recovery => .next (if s.arg.x = 1 then s.beginUpdate 1 else s)
  | _ => .next s

/-- R378: the slot that an update writes. -/
def State.updateSlot (s : State) : Nat := 1 - s.csrField 0x40A0480 0 0
/-- R378: the GEN of the markers that an update writes. -/
def State.updateGen (s : State) : Nat := s.csrField 0x40A0480 39 8 + 1

/-- R378: the flash operation of a phase of an update: the slot is erased and written, then marker copy 0, then copy 1. -/
def State.updateFlash (s : State) (u : UpdateRun) : State :=
  match u.phase with
  | 0 => s.flashErase (slotBase s.updateSlot) slotSize
  | 1 => s.writeSlot s.updateSlot u.image
  | 2 => s.eraseMarker 0
  | 3 => s.writeMarker 0 s.updateGen s.updateSlot
  | 4 => s.eraseMarker 1
  | _ => s.writeMarker 1 s.updateGen s.updateSlot

/-- R378: a phase of an update, one to a step, so that power can be lost between any two. After phase 1 the image is
verified in full; no marker is touched unless it verifies. -/
def State.updatePhase (s : State) (u : UpdateRun) : State :=
  let s1 := s.updateFlash u
  if u.phase = 1 && !s1.verifySlot s.updateSlot then { s1 with update := none }.pldm u.transport 0x17 1
  else if 5 ≤ u.phase then { s1 with update := none }.pldm u.transport 0x17 0
  else { s1 with update := some { u with phase := u.phase + 1 } }.post .updateImageComplete {}

/-- R378: UPDATE_IMAGE_COMPLETE with an image, over the transport `x` of the update in progress, begins its
phases; without an image it is their next. -/
def execUpdateImageComplete (s : State) : Out :=
  match s.update, s.arg.body, s.mode with
  | some u, EvBody.bytes img, .running => .next (if u.phase = 0 && u.transport = s.arg.x then s.updatePhase { u with image := img } else s)
  | some u, _, .running => .next (if u.phase = 0 then s else s.updatePhase u)
  | _, _, _ => .next s

/-- R378: what power that is lost during a phase leaves in flash: its first `n` bytes erased or written, torn at the next. -/
def State.tearFlash (s : State) (u : UpdateRun) (n : Nat) : State :=
  let part := fun (a : Nat) (bs : List Byte) => s.flashWrite a (bs.take n)
  match u.phase with
  | 0 => s
  | 1 => part (slotBase s.updateSlot) (u.image.take slotSize)
  | 2 => s.flashErase (markerAddr 0) (Nat.min n 0x1000)
  | 3 => part (markerAddr 0) (markerBytes s.updateGen s.updateSlot)
  | 4 => s.flashErase (markerAddr 1) (Nat.min n 0x1000)
  | _ => part (markerAddr 1) (markerBytes s.updateGen s.updateSlot)

/-- R361: the lifetime counters as the field-life log holds them. -/
def State.lifeFromFlash (s : State) : SMap Nat :=
  (List.range lifeAll).foldl (fun m k =>
    let b := s.flashBytes (lifeBase + 4 * k) 4
    mset 0 m k (if b = [0xFF, 0xFF, 0xFF, 0xFF] then 0 else leNat b)) []

/-- R378: POWER_LOSS, after `x` bytes of the phase of an update that is under way: what is not in flash is lost; when power
comes back, the cube is reset. -/
def execPowerLoss (s : State) : Out :=
  let f := match s.update with
    | some u => if s.mode = Mode.running then s.tearFlash u s.arg.x else s
    | none => s
  .next { f.coldReset with lifetime := f.lifeFromFlash, i3cDynamic := none, agenda := [.event .cubeReset {}] }

end Sys2Proof.Machine
end

