-- ==== Sys2Proof/Machine/Branch.lean ====
section
/-! DEFINITION. Branches, jumps and loops (R17, R68 to R70). -/

namespace Sys2Proof.Machine

/-- R68: a conditional branch. -/
def branchIf (s : State) (a b : Reg) (t : BTarget) (cond : Word → Word → Bool) : Out :=
  .next (s.withRegs [.x a, .x b] [] (fun u =>
    if cond (u.getX a) (u.getX b) then u.jump (u.c.target t) else u.advance))

/-- R68: BEQ. -/
def execBeq (a b : Reg) (t : BTarget) (s : State) : Out := branchIf s a b t (fun x y => x == y)
/-- R68: BNE. -/
def execBne (a b : Reg) (t : BTarget) (s : State) : Out := branchIf s a b t (fun x y => x != y)
/-- R68: BLT. -/
def execBlt (a b : Reg) (t : BTarget) (s : State) : Out := branchIf s a b t (fun x y => x.slt y)
/-- R68: BGE. -/
def execBge (a b : Reg) (t : BTarget) (s : State) : Out := branchIf s a b t (fun x y => !x.slt y)
/-- R68: BLT.z. -/
def execBltZ (a b : Reg) (t : BTarget) (s : State) : Out := branchIf s a b t (fun x y => x.ult y)
/-- R68: BGE.z. -/
def execBgeZ (a b : Reg) (t : BTarget) (s : State) : Out := branchIf s a b t (fun x y => !x.ult y)

/-- R68: BR. -/
def execBr (t : BTarget) (s : State) : Out := .next (s.jump (s.c.target t))

/-- R69: JAL. -/
def execJal (d : Reg) (t : BTarget) (s : State) : Out :=
  .next (s.withRegs [] [.x d] (fun u => (u.setX d u.c.nextPc).jump (u.c.target t)))

/-- R17, R69: JALR. An odd target traps and writes no link. -/
def execJalr (d a : Reg) (imm : BitVec 11) (s : State) : Out :=
  .next (s.withRegs [.x a] [.x d] (fun u =>
    let target := u.getX a + 2 * sx imm
    if wbit target 0 then u.trap 0x04 target else (u.setX d u.c.nextPc).jump target))

/-- R70: LOOP. -/
def execLoop (a : Reg) (t : BTarget) (s : State) : Out :=
  .next (s.withRegs [.x a] [.x a] (fun u =>
    let x := u.getX a
    if x = 0 then u.advance
    else if x = 1 then (u.setX a 0).advance
    else (u.setX a (x - 1)).jump (u.c.target t)))

end Sys2Proof.Machine
end

