-- ==== Sys2Proof/Machine/Spdm.lean ====
section
/-! DEFINITION. Requests that the shipped firmware serves: writes for the resident kernel (R384) and attestation by SPDM
(R385, R386). The layouts of SPDM messages are DSP0274's (PRESUMED, log entry 29). -/

namespace Sys2Proof.Machine

/-! ## Writes for the kernel (R384) -/

/-- R384: the areas that the firmware writes for a kernel: first offset and the offset after the last. -/
def fwAreas : List (Nat × Nat) :=
  [(0x1040, 0x2000), (0x2000, 0x2400), (0x3000, 0x4000), (0x8000, 0x28000), (0x4020000, 0x4020820),
   (0x4030000, 0x4040000), (0x4050000, 0x4050600), (0x4060000, 0x4060008), (0x40C0000, 0x40C0008), (0x4100000, 0x4120000)]

/-- R384: an 8-byte-aligned offset in one of the areas. -/
def fwServes (off : Nat) : Bool := off % 8 = 0 && fwAreas.any (fun a => a.1 ≤ off && off < a.2)

/-- R384: the core that serves. -/
def State.fwCore (s : State) : Nat := mkCore 0 s.fwCol

/-- R384: the oldest request: a message that is no completion, from kernel level. -/
def State.fwRequest (s : State) : Option Message :=
  (s.core s.fwCore).messages.find? (fun m => !m.completion && m.level = 1)

/-- R384: whether the requester has room for the answer (R193). -/
def State.answerRoom (s : State) (m : Message) : Bool :=
  gcidCube m.sender != s.self || s.fenced (gcidCore m.sender) || !s.inboxFull (gcidCore m.sender) 4

/-- R384: a request can be served. -/
def State.fwReady (s : State) : Bool :=
  s.mode = .running && !s.fenced s.fwCore && (match s.fwRequest with
    | some m => s.answerRoom m
    | none => false)

/-- R384: whether a request is performed. -/
def State.fwAdmits (s : State) (m : Message) : Bool :=
  wd m.words 0 = 1 && s.partOfAsid m.asid = some 0 && fwServes m.pay1.toNat

/-- R384: the answer is a SEND to the requester, with its ASID; `code` is w0, and w1 is the offset. -/
def State.fwAnswer (s : State) (m : Message) (code : Nat) : State :=
  let me := s.gcid s.fwCore
  let n := gcidCore m.sender
  let words : List Word := [BitVec.ofNat 64 code, m.pay1, 0, 0, 0, 0, 0, 0]
  if gcidCube m.sender != s.self then
    let (src, s1) := s.number (.core s.fwCore)
    s1.sendPacket ⟨words.set 1 (packetW1 m.asid me src.seq), m.sender, me, .send 2 m.pay1, 0⟩
  else if s.fenced n then s
  else
    let a : Message := { words := words, asid := m.asid, sender := me, completion := false, level := 2, pay1 := m.pay1 }
    (s.updCore n (fun c => { c with messages := c.messages ++ [a] })).raise n
      { source := 3, sub := 1, tval := BitVec.ofNat 64 me, slot := 0 }

/-- R384: FIRMWARE_WRITE_REQUEST: the oldest request is served and answered. -/
def execFirmwareWriteRequest (s : State) : Out :=
  if !s.fwReady then .next s
  else
    match s.fwRequest with
    | none => .next s
    | some m =>
      let s1 := s.updCore s.fwCore (fun c => { c with messages := c.messages.erase m })
      if s.fwAdmits m then .next ((s1.ctlWrite m.pay1.toNat (wd m.words 2) 2 none).fwAnswer m 0)
      else .next (s1.fwAnswer m 1)

/-! ## SPDM (R385, R386) -/

/-- The request's bytes as a transcript holds them. -/
def requestBytes (code : Nat) (body : List Byte) : List Byte :=
  [if code = 0x84 then 0x10 else 0x13, BitVec.ofNat 8 code] ++ body

/-- R385: one request of a transport is served at a time: it makes the transport busy, and is answered in a later step.
A request that comes meanwhile is answered with Busy, and one that comes before stage `need` with UnexpectedRequest.
`answer` gives the connection and the answer. -/
def State.serve (s : State) (i : Instr) (code need : Nat) (answer : State → Spdm → List Byte → Spdm × List Byte) : State :=
  let t := s.arg.x
  let c := s.conn t
  let body := EvBody.theBytes s.arg.body
  if s.mode != .running then s
  else if !s.arg.flag then
    if c.busy then s.sendOut t (spdmError 0x03)
    else (s.setConn t { c with busy := true }).post i { s.arg with flag := true }
  else if c.stage < need then (s.setConn t { c with busy := false }).sendOut t (spdmError 0x04)
  else
    let r := answer s { c with busy := false, transcript := c.transcript ++ requestBytes code body } body
    (({ s with free := s.free + 1 }).setConn t { r.1 with transcript := r.1.transcript ++ r.2 }).sendOut t r.2

/-- R385: a request that the responder does not offer: UnsupportedRequest, or Busy while its transport is busy. -/
def State.notOffered (s : State) : State :=
  if s.mode != .running then s
  else s.sendOut s.arg.x (spdmError (if (s.conn s.arg.x).busy then 0x03 else 0x07))

/-- R385: GET_VERSION; it begins a connection. With `y` it is a request of that code, which is not offered. -/
def execGetVersion (s : State) : Out :=
  .next (if s.arg.y != 0 then s.notOffered else s.serve .getVersion 0x84 0 (fun _ _ body =>
    ({ stage := 1, transcript := requestBytes 0x84 body }, [0x10, 0x04, 0, 0, 0, 1, 0x00, 0x13])))

/-- R385: GET_CAPABILITIES: CERT_CAP, CHAL_CAP, MEAS_CAP 10, CTExponent 20. The sizes are not stated. -/
def execGetCapabilities (s : State) : Out :=
  .next (s.serve .getCapabilities 0xE1 1 (fun t c _ =>
    if c.stage != 1 then (c, spdmError 0x04)
    else ({ c with stage := 2 }, [0x13, 0x61, 0, 0, 0, 20, 0, 0, 0x16, 0, 0, 0] ++ (Config.nonce t.free).take 8)))

/-- R385: NEGOTIATE_ALGORITHMS: TPM_ALG_RSAPSS_4096 and TPM_ALG_SHA_512, where the request offers them. -/
def execNegotiateAlgorithms (s : State) : Out :=
  .next (s.serve .negotiateAlgorithms 0xE3 2 (fun _ c body =>
    if c.stage != 2 then (c, spdmError 0x04)
    else
      let asym := le32 body 6 &&& 0x40
      let hash := le32 body 10 &&& 0x04
      ({ c with stage := 3 }, [0x13, 0x63, 0, 0, 36, 0, 1, 0] ++ leBytes 4 0x08 ++ leBytes 4 asym ++ leBytes 4 hash ++
        List.replicate 16 0)))

/-- R385: GET_DIGESTS: slot 0 only. -/
def execGetDigests (s : State) : Out :=
  .next (s.serve .getDigests 0x81 3 (fun _ c _ => (c, [0x13, 0x01, 1, 1] ++ sha512 Config.certChain)))

/-- R385: GET_CERTIFICATE of slot 0: a part of the chain. -/
def execGetCertificate (s : State) : Out :=
  .next (s.serve .getCertificate 0x82 3 (fun _ c body =>
    let off := le16 body 2
    if body.getD 0 0 != 0 || Config.certChain.length < off then (c, spdmError 0x01)
    else
      let part := (Config.certChain.drop off).take (le16 body 4)
      (c, [0x13, 0x02, 0, 0] ++ leBytes 2 part.length ++ leBytes 2 (Config.certChain.length - off - part.length) ++ part)))

/-! ### Measurements (R386) -/

/-- R386: the value type of a measurement index. -/
def measType (idx : Nat) : Nat := if idx = 1 then 0 else if idx = 2 || idx = 4 then 3 else 1

/-- R386: a DMTF measurement block. -/
def measBlock (idx type : Nat) (v : List Byte) : List Byte :=
  [BitVec.ofNat 8 idx, 1] ++ leBytes 2 (v.length + 3) ++ [BitVec.ofNat 8 type] ++ leBytes 2 v.length ++ v

def State.measIndex (s : State) (idx : Nat) : List Byte := measBlock idx (measType idx) (s.measure (idx - 1))

/-- R346: the number by which a place is told from others. -/
def State.placeCounts (s : State) : List Byte :=
  ((s.errors.map Prod.fst).eraseDups).flatMap (fun p =>
    [BitVec.ofNat 8 (placeCode p)] ++ leBytes 8 (s.placeLoc p) ++ leBytes 4 (s.errorCount p))

/-- R361: `n` counters from number `k` on. -/
def State.lifeBytes (s : State) (k n : Nat) : List Byte :=
  (List.range n).flatMap (fun i => leBytes 4 (mget 0 s.lifetime (k + i)))

/-- R386: the field-life records of R361 (log entry 26). -/
def State.lifeRecord (s : State) (idx : Nat) : List Byte :=
  match idx with
  | 0x40 => s.lifeBytes 0 lifeCounts
  | 0x41 => s.lifeBytes (lifeTemp 0) 16 ++ s.lifeBytes (lifeVolt 0 0) (16 * supplies)
  | 0x42 => s.lifeBytes (lifeLink 0 0) (16 * 12)
  | _ => s.placeCounts

/-- R386: the record of a measurement index: how many blocks, and their bytes. -/
def State.measRecord (s : State) (idx : Nat) : Option (Nat × List Byte) :=
  if 1 ≤ idx && idx ≤ 16 then some (1, s.measIndex idx)
  else if 0x40 ≤ idx && idx ≤ 0x43 then some (1, measBlock idx 0x81 (s.lifeRecord idx))
  else if idx = 0xFF then some (16, (List.range 16).flatMap (fun n => s.measIndex (n + 1)))
  else none

/-- R385: an answer with the signature of the device key over the transcript. -/
def signed (c : Spdm) (b : List Byte) : Spdm × List Byte :=
  ({ c with transcript := [] }, b ++ Config.deviceSign (c.transcript ++ b))

/-- R385: CHALLENGE of slot 0. -/
def execChallenge (s : State) : Out :=
  .next (s.serve .challenge 0x83 3 (fun t c body =>
    if body.getD 0 0 != 0 then (c, spdmError 0x01)
    else
      let summary := if body.getD 1 0 = 0 then []
        else sha512 ((List.range 16).flatMap (fun n => t.measIndex (n + 1)))
      signed c ([0x13, 0x03, 0, 1] ++ sha512 Config.certChain ++ (Config.nonce t.free).take 32 ++ summary ++ [0, 0] ++
        (body.drop 34).take 8)))

/-- R386: GET_MEASUREMENTS: the record as it stands now, signed when the request asks for it. The requester's context comes
back; a request for a signature holds a nonce and a slot before it. -/
def execGetMeasurements (s : State) : Out :=
  .next (s.serve .getMeasurements 0xE0 3 (fun t c body =>
    match t.measRecord (body.getD 1 0).toNat with
    | none => (c, spdmError 0x01)
    | some (n, r) =>
      let sig := (body.getD 0 0).toNat % 2 = 1
      let b := [0x13, 0x60, 0, 0, BitVec.ofNat 8 n] ++ leBytes 3 r.length ++ r ++ (Config.nonce t.free).take 32 ++ [0, 0] ++
        (body.drop (if sig then 35 else 2)).take 8
      if sig then signed c b else (c, b)))

end Sys2Proof.Machine
end

