-- ==== Sys2Proof/Machine/HostAttach.lean ====
section
/-! DEFINITION. Host endpoints (R388 to R390), the management port's address (R368), and power (R391, R392). -/

namespace Sys2Proof.Machine

/-! ## Host ports (R388, R389) -/

/-- R389: the register block of host port 10 or 11. -/
def hostOff (p : Nat) : Nat := 0x4050400 + 0x100 * (p - 10)

/-- R388: a port that runs as an endpoint. -/
def State.hostPort (s : State) (p : Nat) : Bool := (p = 10 || p = 11) && s.portHost p

/-- R389: HOSTCTL.EN and HOSTCTL.PART. -/
def State.hostOpen (s : State) (p : Nat) : Bool := s.hostPort p && wbit (s.csrAt (hostOff p)) 63
def State.hostPart (s : State) (p : Nat) : Nat := s.csrField (hostOff p) 25 20

/-- What the host of a port receives: 0 and 1 are the completion statuses Successful and Unsupported Request of PCI
Express, 2 is an MSI-X message. -/
def State.tellHost (s : State) (p code : Nat) (b : List Byte) : State :=
  { s with sent := (16 + p, BitVec.ofNat 8 code :: b) :: s.sent }

/-- R390: the port as the maker of accesses, at Chervil. -/
def hostWho (p : Nat) (i : Instr) (a : EvArg) : Who :=
  { owner := ⟨p, 9, 0⟩, core := 0, asid := 0, level := 0, root := some 0, resume := some (i, { a with flag := true }) }

/-- R390: an access of the port is under way. -/
def State.hostBusy (s : State) (p : Nat) : Bool := s.memos.any (fun m => m.owner = ⟨p, 9, 0⟩)

/-- An event of host port `p`. -/
def hostItem (p : Nat) (it : Item) : Bool :=
  match it with
  | .event i a => (i = .hostWindowRead || i = .hostWindowWrite || i = .hostMailboxWrite || i = .hostDoorbell) && a.x = p
  | .issue _ => false

/-- R390: an event of a port waits for the access before it. -/
def State.hostInTurn (s : State) (i : Instr) (k : State → State) : State :=
  if !s.arg.flag && s.hostBusy s.arg.x then { s with held := s.held ++ [.event i s.arg] } else k s

/-- R390: the access of a port is over, and the events that waited for it go on in their order. -/
def State.hostDone (s : State) (p : Nat) : State :=
  let s1 := s.dropMemo ⟨p, 9, 0⟩
  { s1 with accs := 0, held := s1.held.filter (fun it => !hostItem p it), agenda := s1.held.filter (hostItem p) ++ s1.agenda }

/-- R390, R221: where a byte of the window lies, in partition PART. -/
def State.hostHome (s : State) (p gpa : Nat) : Option Home :=
  let r := bitsOf gpa 55 48
  if !s.regionOk r || s.regionPart r != s.hostPart p then none
  else
    match s.stripe gpa with
    | some h => if s.peerAllows h.cube (some (s.hostPart p)) 1 then some h else none
    | none => none

/-- The parts of an access by lines: GPA and length. -/
def hostPieces (gpa n : Nat) : List (Nat × Nat) :=
  ((List.range ((gpa % 64 + n + 63) / 64)).map (fun i =>
    let lo := Nat.max gpa ((gpa / 64 + i) * 64)
    (lo, Nat.min (gpa + n) ((gpa / 64 + i + 1) * 64) - lo))).filter (fun e => 0 < e.2)

/-- R388: the GPA of an offset of BAR0. -/
def State.hostGpa (s : State) (p off : Nat) : Nat := s.csrField (hostOff p) 19 0 * 2 ^ 36 + off

/-- R388: the access lies in BAR0. -/
def inBar (off n : Nat) : Bool := off + n ≤ 2 ^ 36

/-- R390: reads of the parts of a window access; `none` when one is refused. -/
def State.hostReads (s : State) (w : Who) (p : Nat) (got : List Byte) : List (Nat × Nat) → MRes (Option (List Byte))
  | [] => .ok (some got) s
  | (g, n) :: r =>
    match s.hostHome p g with
    | none => .ok none s
    | some h =>
      (s.readLine w h g n 1 .memo 0 (BitVec.ofNat 64 g)).bind (fun a s1 =>
        match a with
        | .data v => s1.hostReads w p (got ++ leBytes n v) r
        | _ => .ok none s1)

/-- R390: writes of the parts of a window access; false when one is refused. -/
def State.hostWrites (s : State) (w : Who) (p : Nat) (bs : List Byte) : List (Nat × Nat) → MRes Bool
  | [] => .ok true s
  | (g, n) :: r =>
    match s.hostHome p g with
    | none => .ok false s
    | some h =>
      (s.writeLine w h g (bs.take n) 1 .memo (BitVec.ofNat 64 g)).bind (fun a s1 =>
        match a with
        | .data _ => s1.hostWrites w p (bs.drop n) r
        | _ => .ok false s1)

/-- R388, R389: a byte of BAR2: the mailbox's sixteen words; beyond them the specification states no value. -/
def State.barByte (s : State) (p o : Nat) : Byte :=
  if o < 0x80 then (leBytes 8 (s.csrAt (hostOff p + 8 + o / 8 * 8)).toNat).getD (o % 8) 0 else Config.barByte s.free o

/-- R388: the host of port `p` reads `n` bytes of BAR2 at offset `o`. -/
def State.barRead (s : State) (p o n : Nat) : State :=
  if !s.hostOpen p || 4096 < o + n then s.tellHost p 1 []
  else s.useFree.tellHost p 0 ((List.range n).map (fun i => s.barByte p (o + i)))

/-- R390: HOST_WINDOW_READ of `z` bytes at offset `y` by the host of port `x`: of BAR0, or with `val` 2 of BAR2 (log
entry 84). -/
def execHostWindowRead (s : State) : Out :=
  let p := s.arg.x
  .next (s.hostInTurn .hostWindowRead (fun t =>
    if t.arg.val = 2 then (t.barRead p t.arg.y t.arg.z).hostDone p
    else if !t.hostOpen p || !inBar t.arg.y t.arg.z then (t.tellHost p 1 []).hostDone p
    else
      (t.hostReads (hostWho p .hostWindowRead t.arg) p [] (hostPieces (t.hostGpa p t.arg.y) t.arg.z)).fin (fun r u =>
        match r with
        | some b => (u.tellHost p 0 b).hostDone p
        | none => (u.tellHost p 1 []).hostDone p)))

/-- R390: a refused write is discarded and counted in the error log as structure 0x0C. -/
def State.hostRefused (s : State) : State := (s.errorRecord 0x0C 1 2 0 1 0).bumpLife (lifeError 0x0C 1)

/-- R390: HOST_WINDOW_WRITE of bytes at offset `y` by the host of port `x`. -/
def execHostWindowWrite (s : State) : Out :=
  let p := s.arg.x
  let bs := EvBody.theBytes s.arg.body
  .next (s.hostInTurn .hostWindowWrite (fun t =>
    let parts := hostPieces (t.hostGpa p t.arg.y) bs.length
    if !t.hostOpen p then (t.tellHost p 1 []).hostDone p
    else if !inBar t.arg.y bs.length || parts.any (fun e => (t.hostHome p e.1).isNone) then t.hostRefused.hostDone p
    else
      (t.hostWrites (hostWho p .hostWindowWrite t.arg) p bs parts).fin (fun r u =>
        if r then u.hostDone p else u.hostRefused.hostDone p)))

/-- R389: HOST_MAILBOX_WRITE: the host of port `x` writes `val` to word `y` of MBIN. -/
def execHostMailboxWrite (s : State) : Out :=
  let p := s.arg.x
  .next (s.hostInTurn .hostMailboxWrite (fun t =>
    if t.hostOpen p && t.arg.y < 8 then t.setCsr (hostOff p + 8 + 8 * t.arg.y) t.arg.val else t))

/-- R390: HOST_DOORBELL of port `x`, after every earlier write: source 3 with SUB 2 at KCORE of PART. -/
def execHostDoorbell (s : State) : Out :=
  let p := s.arg.x
  .next (s.hostInTurn .hostDoorbell (fun t =>
    if t.hostOpen p then
      t.raiseAt (some (t.hostPart p)) { source := 3, sub := 2, tval := BitVec.ofNat 64 (2 ^ 63 + p), slot := 0 }
    else t))

/-- R388: HOST_ATOMICOP of port `x` completes with Unsupported Request. -/
def execHostAtomicop (s : State) : Out := .next (s.tellHost s.arg.x 1 [])

/-- R389: HDB_RING of port `x`: MSI-X vector 0 to the host. -/
def execHdbRing (s : State) : Out := .next (if s.hostPort s.arg.x then s.tellHost s.arg.x 2 [0] else s)

/-! ## The management port (R368) -/

/-- R368: ENTDAA gives the dynamic address `x`. -/
def execEntdaa (s : State) : Out := .next { s with i3cDynamic := some (s.arg.x % 128) }

/-- R368: SETDASA gives the dynamic address `x`. -/
def execSetdasa (s : State) : Out := .next { s with i3cDynamic := some (s.arg.x % 128) }

/-! ## Power (R391, R392) -/

/-- R392: OVERTEMP_FAILURE: a logic failure of the cube (R353). -/
def execOvertempFailure (s : State) : Out :=
  .next (((s.bumpLife (lifeError 0x0E 3)).errorRecord 0x0E 3 2 0xC 1 0).lifeAction 0xC).takeDown

/-- R361: the histograms of the temperature and of the supplies' voltages count the minutes of powered time since they last
did, in the bin of `t` °C and in those of the voltages measured (log entry 26). -/
def State.sampleTemp (s : State) (t : Nat) : State :=
  let had := ((List.range 16).map (fun k => mget 0 s.lifetime (lifeTemp k))).sum
  let minutes := (s.powered + s.now) / (60000000 * cyclesPerUs) - had
  let bins := lifeTemp (Nat.min ((t - 20) / 8) 15) ::
    (List.range supplies).map (fun k => lifeVolt k (Config.supplyBin s.free k % 16))
  { s.useFree with lifetime := bins.foldl (fun m k => mupd 0 m k (fun n => Nat.min (n + minutes) (2 ^ 32 - 1))) s.lifetime }

/-- R391, R392: THROTTLE: the controller samples `x` W and `y` °C. The throttle level that it chooses is not stated. -/
def execThrottle (s : State) : Out :=
  let level := (Config.freeByte s.free).toNat
  let s1 := ((s.useFree.setCsrField 0x40C0008 15 0 (Nat.min s.arg.x 65535)).setCsrField 0x40C0008 39 32 level).setCsrField
    0x40C0008 47 40 (Nat.min s.arg.y 255)
  let s2 := s1.sampleTemp s.arg.y
  .next (if 115 < s.arg.y then s2.post .overtempFailure {} else s2)

end Sys2Proof.Machine
end

