-- ==== Sys2Proof/Machine/Scalar.lean ====
section
/-! DEFINITION. The scalar arithmetic instructions (R59 to R67). -/

namespace Sys2Proof.Machine

/-! ## Shapes -/

/-- The head writes X[d] with a value of X[a], and completes. -/
def unary (s : State) (d a : Reg) (f : Word → Word) : Out :=
  .next (s.withRegs [.x a] [.x d] (fun t => (t.setX d (f (t.getX a))).advance))

/-- The head writes X[d] with a value of X[a] and X[b], and completes. -/
def binary (s : State) (d a b : Reg) (f : Word → Word → Word) : Out :=
  .next (s.withRegs [.x a, .x b] [.x d] (fun t => (t.setX d (f (t.getX a) (t.getX b))).advance))

/-- The head writes X[d] with a value of X[a], X[b] and X[c], and completes. -/
def ternary (s : State) (d a b c : Reg) (f : Word → Word → Word → Word) : Out :=
  .next (s.withRegs [.x a, .x b, .x c] [.x d]
    (fun t => (t.setX d (f (t.getX a) (t.getX b) (t.getX c))).advance))

/-- 1 or 0. -/
def flagWord (b : Bool) : Word := if b then 1 else 0

/-! ## Functions -/

/-- R63: the signed quotient, truncated; all ones for a zero divisor. -/
def divS (a b : Word) : Word :=
  if b = 0 then BitVec.allOnes 64 else BitVec.ofInt 64 (a.toInt.tdiv b.toInt)
/-- R63: the unsigned quotient. -/
def divU (a b : Word) : Word := if b = 0 then BitVec.allOnes 64 else BitVec.ofNat 64 (a.toNat / b.toNat)
/-- R63: the signed remainder, with the sign of the dividend. -/
def remS (a b : Word) : Word := if b = 0 then a else BitVec.ofInt 64 (a.toInt.tmod b.toInt)
/-- R63: the unsigned remainder. -/
def remU (a b : Word) : Word := if b = 0 then a else BitVec.ofNat 64 (a.toNat % b.toNat)
/-- R63: the upper half of the signed product. -/
def mulHighS (a b : Word) : Word := BitVec.ofInt 64 ((a.toInt * b.toInt) / 2 ^ 64)
/-- R63: the upper half of the unsigned product. -/
def mulHighU (a b : Word) : Word := BitVec.ofNat 64 (a.toNat * b.toNat / 2 ^ 64)

/-- R64: the field of `w` bits at position `p`, zero-extended. -/
def fieldZ (v : Word) (p w : Nat) : Word := BitVec.ofNat 64 (bitsOf v.toNat (p + w - 1) p)
/-- R64: the field, sign-extended. -/
def fieldS (v : Word) (p w : Nat) : Word := (BitVec.ofNat w (bitsOf v.toNat (p + w - 1) p)).signExtend 64

/-- R65: leading zero bits of the low `n` bits. -/
def leadZeros (v : Nat) : Nat → Nat
  | 0 => 0
  | n + 1 => if v.testBit n then 0 else 1 + leadZeros v n
/-- R65: trailing zero bits, counted from bit `i` over `n` bits. -/
def trailZeros (v : Nat) (i : Nat) : Nat → Nat
  | 0 => 0
  | n + 1 => if v.testBit i then 0 else 1 + trailZeros v (i + 1) n
/-- The number of one bits among the low `n`. -/
def popCount (v : Nat) (n : Nat) : Nat := ((List.range n).filter (fun i => v.testBit i)).length
/-- R65: the 64 bits reversed. -/
def bitReverse (v : Word) : Word :=
  BitVec.ofNat 64 ((List.range 64).foldl (fun acc i => acc + (if v.getLsbD i then 2 ^ (63 - i) else 0)) 0)
/-- R65: the eight bytes reversed. -/
def byteReverse (v : Word) : Word := BitVec.ofNat 64 (leNat (leBytes 8 v.toNat).reverse)

/-! ## The instructions -/

/-- R61: LI. -/
def execLi (d : Reg) (imm : BitVec 32) (s : State) : Out :=
  .next (s.withRegs [] [.x d] (fun t => (t.setX d (sx imm)).advance))

/-- R61: LI.z. -/
def execLiZ (d : Reg) (imm : BitVec 32) (s : State) : Out :=
  .next (s.withRegs [] [.x d] (fun t => (t.setX d (zx imm)).advance))

/-- R61: LIHI. -/
def execLihi (d : Reg) (imm : BitVec 32) (s : State) : Out :=
  unary s d d (fun x => imm ++ x.extractLsb' 0 32)

/-- R61: ADDI. -/
def execAddi (d a : Reg) (imm : BitVec 11) (s : State) : Out :=
  unary s d a (fun x => x + sx imm)

/-- R61: ANDI. -/
def execAndi (d a : Reg) (imm : BitVec 11) (s : State) : Out :=
  unary s d a (fun x => x &&& sx imm)

/-- R61: ORI. -/
def execOri (d a : Reg) (imm : BitVec 11) (s : State) : Out :=
  unary s d a (fun x => x ||| sx imm)

/-- R61: XORI. -/
def execXori (d a : Reg) (imm : BitVec 11) (s : State) : Out :=
  unary s d a (fun x => x ^^^ sx imm)

/-- R61: SLLI. -/
def execSlli (d a : Reg) (sh : BitVec 6) (s : State) : Out :=
  unary s d a (fun x => x <<< sh.toNat)

/-- R61: SRLI. -/
def execSrli (d a : Reg) (sh : BitVec 6) (s : State) : Out :=
  unary s d a (fun x => x >>> sh.toNat)

/-- R61: SRAI. -/
def execSrai (d a : Reg) (sh : BitVec 6) (s : State) : Out :=
  unary s d a (fun x => x.sshiftRight sh.toNat)

/-- R61: RORI. -/
def execRori (d a : Reg) (sh : BitVec 6) (s : State) : Out :=
  unary s d a (fun x => x.rotateRight sh.toNat)

/-- R61: ADDIL. -/
def execAddil (d a : Reg) (imm : BitVec 27) (s : State) : Out :=
  unary s d a (fun x => x + sx imm)

/-- R61: ADR, from the address of its own head. -/
def execAdr (d : Reg) (imm : BitVec 27) (s : State) : Out :=
  .next (s.withRegs [] [.x d] (fun t => (t.setX d (t.c.pc + sx imm)).advance))

/-- R61: SLTI. -/
def execSlti (d a : Reg) (imm : BitVec 11) (s : State) : Out :=
  unary s d a (fun x => flagWord (x.slt (sx imm)))

/-- R61: SLTI.z, unsigned against the sign-extended immediate. -/
def execSltiZ (d a : Reg) (imm : BitVec 11) (s : State) : Out :=
  unary s d a (fun x => flagWord (x.ult (sx imm)))

/-- R61: SEQI. -/
def execSeqi (d a : Reg) (imm : BitVec 11) (s : State) : Out :=
  unary s d a (fun x => flagWord (x == sx imm))

/-- R62: ADD. -/
def execAdd (d a b : Reg) (s : State) : Out :=
  binary s d a b (fun x y => x + y)

/-- R62: SUB. -/
def execSub (d a b : Reg) (s : State) : Out :=
  binary s d a b (fun x y => x - y)

/-- R62: AND. -/
def execAnd (d a b : Reg) (s : State) : Out :=
  binary s d a b (fun x y => x &&& y)

/-- R62: OR. -/
def execOr (d a b : Reg) (s : State) : Out :=
  binary s d a b (fun x y => x ||| y)

/-- R62: XOR. -/
def execXor (d a b : Reg) (s : State) : Out :=
  binary s d a b (fun x y => x ^^^ y)

/-- R62: ANDN. -/
def execAndn (d a b : Reg) (s : State) : Out :=
  binary s d a b (fun x y => x &&& ~~~y)

/-- R62: ORN. -/
def execOrn (d a b : Reg) (s : State) : Out :=
  binary s d a b (fun x y => x ||| ~~~y)

/-- R62: XNOR. -/
def execXnor (d a b : Reg) (s : State) : Out :=
  binary s d a b (fun x y => ~~~(x ^^^ y))

/-- R62: SLL. -/
def execSll (d a b : Reg) (s : State) : Out :=
  binary s d a b (fun x y => x <<< (y.toNat % 64))

/-- R62: SRL. -/
def execSrl (d a b : Reg) (s : State) : Out :=
  binary s d a b (fun x y => x >>> (y.toNat % 64))

/-- R62: SRA. -/
def execSra (d a b : Reg) (s : State) : Out :=
  binary s d a b (fun x y => x.sshiftRight (y.toNat % 64))

/-- R62: ROL. -/
def execRol (d a b : Reg) (s : State) : Out :=
  binary s d a b (fun x y => x.rotateLeft (y.toNat % 64))

/-- R62: ROR. -/
def execRor (d a b : Reg) (s : State) : Out :=
  binary s d a b (fun x y => x.rotateRight (y.toNat % 64))

/-- R62: SLT. -/
def execSlt (d a b : Reg) (s : State) : Out :=
  binary s d a b (fun x y => flagWord (x.slt y))

/-- R62: SLT.z. -/
def execSltZ (d a b : Reg) (s : State) : Out :=
  binary s d a b (fun x y => flagWord (x.ult y))

/-- R62: SEQ. -/
def execSeq (d a b : Reg) (s : State) : Out :=
  binary s d a b (fun x y => flagWord (x == y))

/-- R63: MUL. -/
def execMul (d a b : Reg) (s : State) : Out :=
  binary s d a b (fun x y => x * y)

/-- R63: MULH. -/
def execMulh (d a b : Reg) (s : State) : Out :=
  binary s d a b mulHighS

/-- R63: MULH.z. -/
def execMulhZ (d a b : Reg) (s : State) : Out :=
  binary s d a b mulHighU

/-- R63: DIV. -/
def execDiv (d a b : Reg) (s : State) : Out :=
  binary s d a b divS

/-- R63: DIV.z. -/
def execDivZ (d a b : Reg) (s : State) : Out :=
  binary s d a b divU

/-- R63: REM. -/
def execRem (d a b : Reg) (s : State) : Out :=
  binary s d a b remS

/-- R63: REM.z. -/
def execRemZ (d a b : Reg) (s : State) : Out :=
  binary s d a b remU

/-- R64: EXT; `w` is the width minus one. -/
def execExt (d a : Reg) (p w : BitVec 6) (s : State) : Out :=
  unary s d a (fun x => fieldS x p.toNat (w.toNat + 1))

/-- R64: EXT.z. -/
def execExtZ (d a : Reg) (p w : BitVec 6) (s : State) : Out :=
  unary s d a (fun x => fieldZ x p.toNat (w.toNat + 1))

/-- R64: INS. -/
def execIns (d a b : Reg) (p w : BitVec 6) (s : State) : Out :=
  binary s d a b (fun x y => setBits x (p.toNat + w.toNat) p.toNat y.toNat)

/-- R65: CLZ. -/
def execClz (d a : Reg) (s : State) : Out :=
  unary s d a (fun x => BitVec.ofNat 64 (leadZeros x.toNat 64))

/-- R65: CTZ. -/
def execCtz (d a : Reg) (s : State) : Out :=
  unary s d a (fun x => BitVec.ofNat 64 (trailZeros x.toNat 0 64))

/-- R65: POPC. -/
def execPopc (d a : Reg) (s : State) : Out :=
  unary s d a (fun x => BitVec.ofNat 64 (popCount x.toNat 64))

/-- R65: BREV. -/
def execBrev (d a : Reg) (s : State) : Out :=
  unary s d a (fun x => bitReverse x)

/-- R65: BSWAP. -/
def execBswap (d a : Reg) (s : State) : Out :=
  unary s d a (fun x => byteReverse x)

/-- R65: SEXT.8. -/
def execSext8 (d a : Reg) (s : State) : Out :=
  unary s d a (fun x => sx (x.extractLsb' 0 8))

/-- R65: SEXT.16. -/
def execSext16 (d a : Reg) (s : State) : Out :=
  unary s d a (fun x => sx (x.extractLsb' 0 16))

/-- R65: SEXT.32. -/
def execSext32 (d a : Reg) (s : State) : Out :=
  unary s d a (fun x => sx (x.extractLsb' 0 32))

/-- R65: ZEXT.8. -/
def execZext8 (d a : Reg) (s : State) : Out :=
  unary s d a (fun x => zx (x.extractLsb' 0 8))

/-- R65: ZEXT.16. -/
def execZext16 (d a : Reg) (s : State) : Out :=
  unary s d a (fun x => zx (x.extractLsb' 0 16))

/-- R65: ZEXT.32. -/
def execZext32 (d a : Reg) (s : State) : Out :=
  unary s d a (fun x => zx (x.extractLsb' 0 32))

/-- R66: SEL.NZ. -/
def execSelNz (d a b c : Reg) (s : State) : Out :=
  ternary s d a b c (fun x y z => if z ≠ 0 then x else y)

/-- R66: SEL.Z. -/
def execSelZ (d a b c : Reg) (s : State) : Out :=
  ternary s d a b c (fun x y z => if z = 0 then x else y)

/-- R66: MIN. -/
def execMin (d a b : Reg) (s : State) : Out :=
  binary s d a b (fun x y => if y.slt x then y else x)

/-- R66: MAX. -/
def execMax (d a b : Reg) (s : State) : Out :=
  binary s d a b (fun x y => if x.slt y then y else x)

/-- R66: MIN.z. -/
def execMinZ (d a b : Reg) (s : State) : Out :=
  binary s d a b (fun x y => if y.ult x then y else x)

/-- R66: MAX.z. -/
def execMaxZ (d a b : Reg) (s : State) : Out :=
  binary s d a b (fun x y => if x.ult y then y else x)

/-- R67: NOP. -/
def execNop (s : State) : Out := .next s.advance

end Sys2Proof.Machine
end

