-- ==== Sys2Proof/Machine/Sync.lean ====
section
/-! DEFINITION. Semaphore instructions (R155 to R159) and barriers (R160, R161). -/

namespace Sys2Proof.Machine

/-! ## Semaphores -/

/-- R155: the semaphore that X[a] names; a cube semaphore of another partition traps. -/
def State.withSem (s : State) (cube : Bool) (a : Reg) (k : Space → Nat → State → State) : State :=
  let n := wbits (s.getX a) 7 0
  if cube then
    let p := s.partOfSem n
    if p.isSome && p = s.partOfAsid s.c.asid then k .cube n s else s.trap 0x08 (s.getX a)
  else k (.cluster s.clu) n s

/-- R156, R157: SEMADD, a release at the scope of its space. -/
def execSemadd (cube : Bool) (d a b : Reg) (s : State) : Out :=
  .next (s.withRegs [.x a, .x b] [.x d] (fun t => t.withSem cube a (fun sp n t1 => t1.afterOwn (fun u =>
    let old := u.sem sp n
    let v := u.getX b
    if v.toInt < 0 then
      if old.toNat + v.toInt < 0 then u.trap 0x0B (BitVec.ofNat 64 (sp.code * 256 + n))
      else (((u.setSem sp n (old + v)).semRelease sp n).setX d old).advance
    else ((u.semAdd sp n v.toNat u.cur.core).setX d old).advance))))

/-- R156, R159: SEMWAIT. -/
def execSemwait (cube : Bool) (d a b : Reg) (s : State) : Out :=
  .next (s.withRegs [.x a, .x b] [.x d] (fun t => t.withSem cube a (fun sp n u =>
    let v := u.getX b
    if v.toNat ≤ (u.sem sp n).toNat then (u.setX d (u.sem sp n)).advance
    else
      (u.setSemWaiters sp (u.semWaiters sp ++ [(n, u.cur.core, u.cur.ctx)])).stall
        { kind := if cube then .cubeSem else .clusterSem, what := n, thr := v.toNat, d := d })))

/-- R156: SEMTRY. -/
def execSemtry (cube : Bool) (d a b : Reg) (s : State) : Out :=
  .next (s.withRegs [.x a, .x b] [.x d] (fun t => t.withSem cube a (fun sp n u =>
    let v := u.getX b
    if v.toNat ≤ (u.sem sp n).toNat then ((u.setSem sp n (u.sem sp n - v)).setX d 1).advance
    else (u.setX d 0).advance)))

/-- R156: SEMRD. -/
def execSemrd (cube : Bool) (d a b : Reg) (s : State) : Out :=
  .next (s.withRegs [.x a, .x b] [.x d] (fun t => t.withSem cube a (fun sp n u => (u.setX d (u.sem sp n)).advance)))

/-! ## Barriers -/

/-- R160, R181: two membership words name the same rectangle; the CUBE field and the ignored bits are not
compared (DEDUCED, log entry 15). -/
def sameRect (a b : Word) : Bool :=
  rectKind a = rectKind b && (rectKind a != 0 || wbits a 19 0 = wbits b 19 0)

/-- R160: a phase of group `g` of the rectangle of `core` is complete. -/
def State.phaseDone (s : State) (core g : Nat) : Bool :=
  let m := (s.barrier core g).m
  (rectCores m).all (fun n => let b := s.barrier n g; b.ar && sameRect b.m m)

/-- R160: ARRIVE, a release at RECT M. -/
def execArrive (d : Reg) (g : BitVec 4) (s : State) : Out :=
  .next (s.withRegs [] [.x d] (fun t0 => t0.afterOwn (fun t =>
    let b := t.barrier t.cur.core g.toNat
    if b.ar then t.trap 0x13 (zx g)
    else
      let t1 := ((t.setBarrier t.cur.core g.toNat { b with ar := true, j := true }).setX d (if b.ph then 1 else 0)).advance
      if t1.phaseDone t1.cur.core g.toNat then t1.post .barrierPhaseComplete { x := t1.cur.core, y := g.toNat } else t1)))

/-- R160: WAITB, which R168 lists as a release at RECT M too. -/
def execWaitb (d : Reg) (g : BitVec 4) (s : State) : Out :=
  .next (s.withRegs [] [.x d] (fun t0 => t0.afterOwn (fun t =>
    let b := t.barrier t.cur.core g.toNat
    if !b.j then t.trap 0x13 (zx g)
    else if b.ar then t.stall { kind := .barrier, what := g.toNat, d := d }
    else (t.setX d (if b.ph then 1 else 0)).advance)))

/-- R160: BMISS. -/
def execBmiss (d a : Reg) (g : BitVec 4) (s : State) : Out :=
  .next (s.withRegs [.x a] [.x d] (fun t =>
    let cl := wbits (t.getX a) 9 0
    let m := (t.barrier t.cur.core g.toNat).m
    let bit := fun (q : Nat) =>
      let n := coreAt cl q
      let b := t.barrier n g.toNat
      rectHas m n && (!sameRect b.m m || !b.ar)
    (t.setX d (BitVec.ofNat 64 ((List.range 16).foldl (fun acc q => if bit q then acc + 2 ^ q else acc) 0))).advance))

/-- R160: BMEMB. -/
def execBmemb (d a : Reg) (g : BitVec 4) (s : State) : Out :=
  .next (s.withRegs [.x a] [.x d] (fun t =>
    let w := t.getX a
    let b := t.barrier t.cur.core g.toNat
    if !rectLegal w then t.trap 0x0A w
    else if b.ar then t.trap 0x13 (zx g)
    else if rectKind w = 2 || !rectHas w t.cur.core then t.trap 0x13 (zx g)
    else
      ((t.setBarrier t.cur.core g.toNat { m := w, ar := false, ph := false, j := false }).setX d b.m).advance))

/-- R160: BARRIER_PHASE_COMPLETE: the tree clears AR and toggles PH in every core of the rectangle of core `x`,
in one act, and the waiters of the phase receive the new PH. -/
def execBarrierPhaseComplete (s : State) : Out :=
  let g := s.arg.y
  if !s.phaseDone s.arg.x g then .next s
  else
    let ms := rectCores (s.barrier s.arg.x g).m
    .next (ms.foldl (fun t n =>
      let b := t.barrier n g
      let t1 := t.setBarrier n g { b with ar := false, ph := !b.ph }
      (t1.ctxsOf n).foldl (fun u e =>
        match e.2.wait with
        | some w =>
          if w.kind = .barrier && w.what = g then u.wake n e.1 (fun c => c.setX w.d (if b.ph then 0 else 1)) else u
        | none => u) t1) s)

end Sys2Proof.Machine
end

