-- ==== Sys2Proof/Machine/Dispatch.lean ====
section
/-! DEFINITION. The meaning of every instruction and event: one arm per constructor. -/

namespace Sys2Proof.Machine

def exec (i : Instr) (s : State) : Host.Outcome State Fault Refusal :=
  match i with
  | .beq a b t => Sys2Proof.Machine.execBeq a b t s
  | .bne a b t => Sys2Proof.Machine.execBne a b t s
  | .blt a b t => Sys2Proof.Machine.execBlt a b t s
  | .bge a b t => Sys2Proof.Machine.execBge a b t s
  | .bltZ a b t => Sys2Proof.Machine.execBltZ a b t s
  | .bgeZ a b t => Sys2Proof.Machine.execBgeZ a b t s
  | .br t => Sys2Proof.Machine.execBr t s
  | .jal d t => Sys2Proof.Machine.execJal d t s
  | .jalr d a imm => Sys2Proof.Machine.execJalr d a imm s
  | .loop a t => Sys2Proof.Machine.execLoop a t s
  | .bsdone v t => Sys2Proof.Machine.execBsdone v t s
  | .bsmore v t => Sys2Proof.Machine.execBsmore v t s
  | .li d imm => Sys2Proof.Machine.execLi d imm s
  | .liZ d imm => Sys2Proof.Machine.execLiZ d imm s
  | .lihi d imm => Sys2Proof.Machine.execLihi d imm s
  | .addi d a imm => Sys2Proof.Machine.execAddi d a imm s
  | .andi d a imm => Sys2Proof.Machine.execAndi d a imm s
  | .ori d a imm => Sys2Proof.Machine.execOri d a imm s
  | .xori d a imm => Sys2Proof.Machine.execXori d a imm s
  | .slli d a sh => Sys2Proof.Machine.execSlli d a sh s
  | .srli d a sh => Sys2Proof.Machine.execSrli d a sh s
  | .srai d a sh => Sys2Proof.Machine.execSrai d a sh s
  | .rori d a sh => Sys2Proof.Machine.execRori d a sh s
  | .addil d a imm => Sys2Proof.Machine.execAddil d a imm s
  | .adr d imm => Sys2Proof.Machine.execAdr d imm s
  | .slti d a imm => Sys2Proof.Machine.execSlti d a imm s
  | .sltiZ d a imm => Sys2Proof.Machine.execSltiZ d a imm s
  | .seqi d a imm => Sys2Proof.Machine.execSeqi d a imm s
  | .add d a b => Sys2Proof.Machine.execAdd d a b s
  | .sub d a b => Sys2Proof.Machine.execSub d a b s
  | .and d a b => Sys2Proof.Machine.execAnd d a b s
  | .or d a b => Sys2Proof.Machine.execOr d a b s
  | .xor d a b => Sys2Proof.Machine.execXor d a b s
  | .andn d a b => Sys2Proof.Machine.execAndn d a b s
  | .orn d a b => Sys2Proof.Machine.execOrn d a b s
  | .xnor d a b => Sys2Proof.Machine.execXnor d a b s
  | .sll d a b => Sys2Proof.Machine.execSll d a b s
  | .srl d a b => Sys2Proof.Machine.execSrl d a b s
  | .sra d a b => Sys2Proof.Machine.execSra d a b s
  | .rol d a b => Sys2Proof.Machine.execRol d a b s
  | .ror d a b => Sys2Proof.Machine.execRor d a b s
  | .slt d a b => Sys2Proof.Machine.execSlt d a b s
  | .sltZ d a b => Sys2Proof.Machine.execSltZ d a b s
  | .seq d a b => Sys2Proof.Machine.execSeq d a b s
  | .mul d a b => Sys2Proof.Machine.execMul d a b s
  | .mulh d a b => Sys2Proof.Machine.execMulh d a b s
  | .mulhZ d a b => Sys2Proof.Machine.execMulhZ d a b s
  | .div d a b => Sys2Proof.Machine.execDiv d a b s
  | .divZ d a b => Sys2Proof.Machine.execDivZ d a b s
  | .rem d a b => Sys2Proof.Machine.execRem d a b s
  | .remZ d a b => Sys2Proof.Machine.execRemZ d a b s
  | .ext d a p w => Sys2Proof.Machine.execExt d a p w s
  | .extZ d a p w => Sys2Proof.Machine.execExtZ d a p w s
  | .ins d a b p w => Sys2Proof.Machine.execIns d a b p w s
  | .clz d a => Sys2Proof.Machine.execClz d a s
  | .ctz d a => Sys2Proof.Machine.execCtz d a s
  | .popc d a => Sys2Proof.Machine.execPopc d a s
  | .brev d a => Sys2Proof.Machine.execBrev d a s
  | .bswap d a => Sys2Proof.Machine.execBswap d a s
  | .sext8 d a => Sys2Proof.Machine.execSext8 d a s
  | .sext16 d a => Sys2Proof.Machine.execSext16 d a s
  | .sext32 d a => Sys2Proof.Machine.execSext32 d a s
  | .zext8 d a => Sys2Proof.Machine.execZext8 d a s
  | .zext16 d a => Sys2Proof.Machine.execZext16 d a s
  | .zext32 d a => Sys2Proof.Machine.execZext32 d a s
  | .selNz d a b c => Sys2Proof.Machine.execSelNz d a b c s
  | .selZ d a b c => Sys2Proof.Machine.execSelZ d a b c s
  | .min d a b => Sys2Proof.Machine.execMin d a b s
  | .max d a b => Sys2Proof.Machine.execMax d a b s
  | .minZ d a b => Sys2Proof.Machine.execMinZ d a b s
  | .maxZ d a b => Sys2Proof.Machine.execMaxZ d a b s
  | .ldS8 d a imm => Sys2Proof.Machine.execLdS8 d a imm s
  | .ldS16 d a imm => Sys2Proof.Machine.execLdS16 d a imm s
  | .ldS32 d a imm => Sys2Proof.Machine.execLdS32 d a imm s
  | .ldS64 d a imm => Sys2Proof.Machine.execLdS64 d a imm s
  | .ldZ8 d a imm => Sys2Proof.Machine.execLdZ8 d a imm s
  | .ldZ16 d a imm => Sys2Proof.Machine.execLdZ16 d a imm s
  | .ldZ32 d a imm => Sys2Proof.Machine.execLdZ32 d a imm s
  | .ldZ64 d a imm => Sys2Proof.Machine.execLdZ64 d a imm s
  | .stS8 r a imm => Sys2Proof.Machine.execStS8 r a imm s
  | .stS16 r a imm => Sys2Proof.Machine.execStS16 r a imm s
  | .stS32 r a imm => Sys2Proof.Machine.execStS32 r a imm s
  | .stS64 r a imm => Sys2Proof.Machine.execStS64 r a imm s
  | .ldx d a b k t => Sys2Proof.Machine.execLdx d a b k t s
  | .stx c a b k t => Sys2Proof.Machine.execStx c a b k t s
  | .ldAcq d a t sc => Sys2Proof.Machine.execLdAcq d a t sc s
  | .stRel b a t sc => Sys2Proof.Machine.execStRel b a t sc s
  | .ldff d a disp => Sys2Proof.Machine.execLdff d a disp s
  | .ldfe d a disp => Sys2Proof.Machine.execLdfe d a disp s
  | .stef b a disp => Sys2Proof.Machine.execStef b a disp s
  | .stsf b a disp => Sys2Proof.Machine.execStsf b a disp s
  | .stse b a disp => Sys2Proof.Machine.execStse b a disp s
  | .ferd d a disp => Sys2Proof.Machine.execFerd d a disp s
  | .pref a imm => Sys2Proof.Machine.execPref a imm s
  | .prefW a imm => Sys2Proof.Machine.execPrefW a imm s
  | .wb a imm => Sys2Proof.Machine.execWb a imm s
  | .drop a imm => Sys2Proof.Machine.execDrop a imm s
  | .vld d a imm => Sys2Proof.Machine.execVld d a imm s
  | .vst r a imm => Sys2Proof.Machine.execVst r a imm s
  | .vgath d a b t m => Sys2Proof.Machine.execVgath d a b t m s
  | .vscat d a b t m => Sys2Proof.Machine.execVscat d a b t m s
  | .vadd d a b t m => Sys2Proof.Machine.execVadd d a b t m s
  | .vsub d a b t m => Sys2Proof.Machine.execVsub d a b t m s
  | .vmul d a b t m => Sys2Proof.Machine.execVmul d a b t m s
  | .vmulh d a b t m => Sys2Proof.Machine.execVmulh d a b t m s
  | .vmin d a b t m => Sys2Proof.Machine.execVmin d a b t m s
  | .vmax d a b t m => Sys2Proof.Machine.execVmax d a b t m s
  | .vand d a b t m => Sys2Proof.Machine.execVand d a b t m s
  | .vor d a b t m => Sys2Proof.Machine.execVor d a b t m s
  | .vxor d a b t m => Sys2Proof.Machine.execVxor d a b t m s
  | .vandn d a b t m => Sys2Proof.Machine.execVandn d a b t m s
  | .vsll d a b t m => Sys2Proof.Machine.execVsll d a b t m s
  | .vsrl d a b t m => Sys2Proof.Machine.execVsrl d a b t m s
  | .vsra d a b t m => Sys2Proof.Machine.execVsra d a b t m s
  | .vabs d a t m => Sys2Proof.Machine.execVabs d a t m s
  | .vneg d a t m => Sys2Proof.Machine.execVneg d a t m s
  | .vadds d a b t m => Sys2Proof.Machine.execVadds d a b t m s
  | .vsubs d a b t m => Sys2Proof.Machine.execVsubs d a b t m s
  | .vavg d a b t m => Sys2Proof.Machine.execVavg d a b t m s
  | .vmac d a b t m => Sys2Proof.Machine.execVmac d a b t m s
  | .vfadd d a b t m => Sys2Proof.Machine.execVfadd d a b t m s
  | .vfsub d a b t m => Sys2Proof.Machine.execVfsub d a b t m s
  | .vfmul d a b t m => Sys2Proof.Machine.execVfmul d a b t m s
  | .vfdiv d a b t m => Sys2Proof.Machine.execVfdiv d a b t m s
  | .vfma d a b c t m => Sys2Proof.Machine.execVfma d a b c t m s
  | .vfms d a b c t m => Sys2Proof.Machine.execVfms d a b c t m s
  | .vfnma d a b c t m => Sys2Proof.Machine.execVfnma d a b c t m s
  | .vfmin d a b t m => Sys2Proof.Machine.execVfmin d a b t m s
  | .vfmax d a b t m => Sys2Proof.Machine.execVfmax d a b t m s
  | .vfabs d a t m => Sys2Proof.Machine.execVfabs d a t m s
  | .vfneg d a t m => Sys2Proof.Machine.execVfneg d a t m s
  | .vfsqrt d a t m => Sys2Proof.Machine.execVfsqrt d a t m s
  | .vcmpEq d a b t m => Sys2Proof.Machine.execVcmpEq d a b t m s
  | .vcmpNe d a b t m => Sys2Proof.Machine.execVcmpNe d a b t m s
  | .vcmpLt d a b t m => Sys2Proof.Machine.execVcmpLt d a b t m s
  | .vcmpLe d a b t m => Sys2Proof.Machine.execVcmpLe d a b t m s
  | .vcmpGt d a b t m => Sys2Proof.Machine.execVcmpGt d a b t m s
  | .vcmpGe d a b t m => Sys2Proof.Machine.execVcmpGe d a b t m s
  | .vcmpUnord d a b t m => Sys2Proof.Machine.execVcmpUnord d a b t m s
  | .vcvt d a src dst m => Sys2Proof.Machine.execVcvt d a src dst m s
  | .vcvtSat d a src dst m => Sys2Proof.Machine.execVcvtSat d a src dst m s
  | .vmxpack d a src dst => Sys2Proof.Machine.execVmxpack d a src dst s
  | .vmxunpk d a src dst => Sys2Proof.Machine.execVmxunpk d a src dst s
  | .vcvtsr d a b src dst m => Sys2Proof.Machine.execVcvtsr d a b src dst m s
  | .vcvtsrSat d a b src dst m => Sys2Proof.Machine.execVcvtsrSat d a b src dst m s
  | .vdot d a b t m => Sys2Proof.Machine.execVdot d a b t m s
  | .vdotf d a b t m => Sys2Proof.Machine.execVdotf d a b t m s
  | .vdotf8 d a b t m => Sys2Proof.Machine.execVdotf8 d a b t m s
  | .vrsum d a t m => Sys2Proof.Machine.execVrsum d a t m s
  | .vrmin d a t m => Sys2Proof.Machine.execVrmin d a t m s
  | .vrmax d a t m => Sys2Proof.Machine.execVrmax d a t m s
  | .vrfsum d a t m => Sys2Proof.Machine.execVrfsum d a t m s
  | .vrfmin d a t m => Sys2Proof.Machine.execVrfmin d a t m s
  | .vrfmax d a t m => Sys2Proof.Machine.execVrfmax d a t m s
  | .vmov d a b t m => Sys2Proof.Machine.execVmov d a b t m s
  | .vperm d a b t m => Sys2Proof.Machine.execVperm d a b t m s
  | .vbcast d a t m => Sys2Proof.Machine.execVbcast d a t m s
  | .vins d a b t => Sys2Proof.Machine.execVins d a b t s
  | .vext d a b t => Sys2Proof.Machine.execVext d a b t s
  | .vslide d a b t m => Sys2Proof.Machine.execVslide d a b t m s
  | .vzip d a b t m => Sys2Proof.Machine.execVzip d a b t m s
  | .vunzip d a b t m => Sys2Proof.Machine.execVunzip d a b t m s
  | .vexp2 d a t m => Sys2Proof.Machine.execVexp2 d a t m s
  | .vlog2 d a t m => Sys2Proof.Machine.execVlog2 d a t m s
  | .vrcp d a t m => Sys2Proof.Machine.execVrcp d a t m s
  | .vrsqrt d a t m => Sys2Proof.Machine.execVrsqrt d a t m s
  | .vsin d a t m => Sys2Proof.Machine.execVsin d a t m s
  | .vcos d a t m => Sys2Proof.Machine.execVcos d a t m s
  | .vtanh d a t m => Sys2Proof.Machine.execVtanh d a t m s
  | .vsigm d a t m => Sys2Proof.Machine.execVsigm d a t m s
  | .vard d a b acc => Sys2Proof.Machine.execVard d a b acc s
  | .vawr d a b acc => Sys2Proof.Machine.execVawr d a b acc s
  | .mand d a b => Sys2Proof.Machine.execMand d a b s
  | .mor d a b => Sys2Proof.Machine.execMor d a b s
  | .mxor d a b => Sys2Proof.Machine.execMxor d a b s
  | .mnot d a => Sys2Proof.Machine.execMnot d a s
  | .mandn d a b => Sys2Proof.Machine.execMandn d a b s
  | .mpopc d a => Sys2Proof.Machine.execMpopc d a s
  | .mfirst d a => Sys2Proof.Machine.execMfirst d a s
  | .mset d a => Sys2Proof.Machine.execMset d a s
  | .mget d a => Sys2Proof.Machine.execMget d a s
  | .sbind v a => Sys2Proof.Machine.execSbind v a s
  | .sunbind v a => Sys2Proof.Machine.execSunbind v a s
  | .mma acc w d a wt sg => Sys2Proof.Machine.execMma acc w d a wt sg s
  | .amzero acc a wt sg => Sys2Proof.Machine.execAmzero acc a wt sg s
  | .amin acc d a wt sg => Sys2Proof.Machine.execAmin acc d a wt sg s
  | .amout acc d a wt sg => Sys2Proof.Machine.execAmout acc d a wt sg s
  | .amoutClr acc d a wt sg => Sys2Proof.Machine.execAmoutClr acc d a wt sg s
  | .tcopy d a b wt sg => Sys2Proof.Machine.execTcopy d a b wt sg s
  | .tcopyw w d a b wt sg => Sys2Proof.Machine.execTcopyw w d a b wt sg s
  | .tgath d a b wt sg => Sys2Proof.Machine.execTgath d a b wt sg s
  | .tfill d a b wt sg => Sys2Proof.Machine.execTfill d a b wt sg s
  | .cred d a b wt sg => Sys2Proof.Machine.execCred d a b wt sg s
  | .cmcast d a b wt sg => Sys2Proof.Machine.execCmcast d a b wt sg s
  | .estat d a b => Sys2Proof.Machine.execEstat d a b s
  | .ecancel a b => Sys2Proof.Machine.execEcancel a b s
  | .eresume n => Sys2Proof.Machine.execEresume n s
  | .spawn d a b => Sys2Proof.Machine.execSpawn d a b s
  | .spawna d a b => Sys2Proof.Machine.execSpawna d a b s
  | .send d a b => Sys2Proof.Machine.execSend d a b s
  | .recv d a => Sys2Proof.Machine.execRecv d a s
  | .recvTry d a => Sys2Proof.Machine.execRecvTry d a s
  | .lqpush d a b => Sys2Proof.Machine.execLqpush d a b s
  | .jdec d a b => Sys2Proof.Machine.execJdec d a b s
  | .semadd cube d a b => Sys2Proof.Machine.execSemadd cube d a b s
  | .semwait cube d a b => Sys2Proof.Machine.execSemwait cube d a b s
  | .semtry cube d a b => Sys2Proof.Machine.execSemtry cube d a b s
  | .semrd cube d a b => Sys2Proof.Machine.execSemrd cube d a b s
  | .arrive d g => Sys2Proof.Machine.execArrive d g s
  | .waitb d g => Sys2Proof.Machine.execWaitb d g s
  | .bmiss d a g => Sys2Proof.Machine.execBmiss d a g s
  | .bmemb d a g => Sys2Proof.Machine.execBmemb d a g s
  | .amoAdd d a b w64 acq rel sc => Sys2Proof.Machine.execAmoAdd d a b w64 acq rel sc s
  | .amoAnd d a b w64 acq rel sc => Sys2Proof.Machine.execAmoAnd d a b w64 acq rel sc s
  | .amoOr d a b w64 acq rel sc => Sys2Proof.Machine.execAmoOr d a b w64 acq rel sc s
  | .amoXor d a b w64 acq rel sc => Sys2Proof.Machine.execAmoXor d a b w64 acq rel sc s
  | .amoMin d a b w64 acq rel sc => Sys2Proof.Machine.execAmoMin d a b w64 acq rel sc s
  | .amoMax d a b w64 acq rel sc => Sys2Proof.Machine.execAmoMax d a b w64 acq rel sc s
  | .amoMinZ d a b w64 acq rel sc => Sys2Proof.Machine.execAmoMinZ d a b w64 acq rel sc s
  | .amoMaxZ d a b w64 acq rel sc => Sys2Proof.Machine.execAmoMaxZ d a b w64 acq rel sc s
  | .amoSwap d a b w64 acq rel sc => Sys2Proof.Machine.execAmoSwap d a b w64 acq rel sc s
  | .cas d a b w64 acq rel sc => Sys2Proof.Machine.execCas d a b w64 acq rel sc s
  | .cas16 d a b acq rel sc => Sys2Proof.Machine.execCas16 d a b acq rel sc s
  | .redAdd a b w64 rel sc => Sys2Proof.Machine.execRedAdd a b w64 rel sc s
  | .redAnd a b w64 rel sc => Sys2Proof.Machine.execRedAnd a b w64 rel sc s
  | .redOr a b w64 rel sc => Sys2Proof.Machine.execRedOr a b w64 rel sc s
  | .redXor a b w64 rel sc => Sys2Proof.Machine.execRedXor a b w64 rel sc s
  | .redMin a b w64 rel sc => Sys2Proof.Machine.execRedMin a b w64 rel sc s
  | .redMax a b w64 rel sc => Sys2Proof.Machine.execRedMax a b w64 rel sc s
  | .redMinZ a b w64 rel sc => Sys2Proof.Machine.execRedMinZ a b w64 rel sc s
  | .redMaxZ a b w64 rel sc => Sys2Proof.Machine.execRedMaxZ a b w64 rel sc s
  | .fence sc ld st eng => Sys2Proof.Machine.execFence sc ld st eng s
  | .trap imm => Sys2Proof.Machine.execTrap imm s
  | .crrd d n => Sys2Proof.Machine.execCrrd d n s
  | .crwr a n => Sys2Proof.Machine.execCrwr a n s
  | .tlbinv a b => Sys2Proof.Machine.execTlbinv a b s
  | .icinv a b => Sys2Proof.Machine.execIcinv a b s
  | .ctxsw a => Sys2Proof.Machine.execCtxsw a s
  | .ctxflush a => Sys2Proof.Machine.execCtxflush a s
  | .prset a b => Sys2Proof.Machine.execPrset a b s
  | .ptload a b => Sys2Proof.Machine.execPtload a b s
  | .pdrain a b => Sys2Proof.Machine.execPdrain a b s
  | .nop => Sys2Proof.Machine.execNop s
  | .tend => Sys2Proof.Machine.execTend s
  | .yield => Sys2Proof.Machine.execYield s
  | .kret => Sys2Proof.Machine.execKret s
  | .fret => Sys2Proof.Machine.execFret s
  | .wfi => Sys2Proof.Machine.execWfi s
  | .gets => Sys2Proof.Machine.execGets s
  | .getx => Sys2Proof.Machine.execGetx s
  | .putr => Sys2Proof.Machine.execPutr s
  | .wbr => Sys2Proof.Machine.execWbr s
  | .uread => Sys2Proof.Machine.execUread s
  | .uwrite => Sys2Proof.Machine.execUwrite s
  | .amor => Sys2Proof.Machine.execAmor s
  | .dropr => Sys2Proof.Machine.execDropr s
  | .recall => Sys2Proof.Machine.execRecall s
  | .inv => Sys2Proof.Machine.execInv s
  | .rcls => Sys2Proof.Machine.execRcls s
  | .rcli => Sys2Proof.Machine.execRcli s
  | .upd => Sys2Proof.Machine.execUpd s
  | .putg => Sys2Proof.Machine.execPutg s
  | .disc => Sys2Proof.Machine.execDisc s
  | .dats => Sys2Proof.Machine.execDats s
  | .datx => Sys2Proof.Machine.execDatx s
  | .datu => Sys2Proof.Machine.execDatu s
  | .ack => Sys2Proof.Machine.execAck s
  | .dath => Sys2Proof.Machine.execDath s
  | .ackh => Sys2Proof.Machine.execAckh s
  | .putn => Sys2Proof.Machine.execPutn s
  | .nack => Sys2Proof.Machine.execNack s
  | .flt => Sys2Proof.Machine.execFlt s
  | .backoffExpire => Sys2Proof.Machine.execBackoffExpire s
  | .feWithdraw => Sys2Proof.Machine.execFeWithdraw s
  | .waitlimExpire => Sys2Proof.Machine.execWaitlimExpire s
  | .prsetSwitch => Sys2Proof.Machine.execPrsetSwitch s
  | .vectorOpComplete => Sys2Proof.Machine.execVectorOpComplete s
  | .engineCommandStart => Sys2Proof.Machine.execEngineCommandStart s
  | .engineCommandComplete => Sys2Proof.Machine.execEngineCommandComplete s
  | .engineFault => Sys2Proof.Machine.execEngineFault s
  | .engineRecordWrite => Sys2Proof.Machine.execEngineRecordWrite s
  | .pendingMessageDeliver => Sys2Proof.Machine.execPendingMessageDeliver s
  | .barrierPhaseComplete => Sys2Proof.Machine.execBarrierPhaseComplete s
  | .packetArrive => Sys2Proof.Machine.execPacketArrive s
  | .bounceReturn => Sys2Proof.Machine.execBounceReturn s
  | .sendMessageArrive => Sys2Proof.Machine.execSendMessageArrive s
  | .sendAnswer => Sys2Proof.Machine.execSendAnswer s
  | .continuationReturned => Sys2Proof.Machine.execContinuationReturned s
  | .continuationResend => Sys2Proof.Machine.execContinuationResend s
  | .dispatch => Sys2Proof.Machine.execDispatch s
  | .park => Sys2Proof.Machine.execPark s
  | .inboxAging => Sys2Proof.Machine.execInboxAging s
  | .launchStart => Sys2Proof.Machine.execLaunchStart s
  | .startBufferReoffer => Sys2Proof.Machine.execStartBufferReoffer s
  | .launchComplete => Sys2Proof.Machine.execLaunchComplete s
  | .watchdogExpire => Sys2Proof.Machine.execWatchdogExpire s
  | .lqReset => Sys2Proof.Machine.execLqReset s
  | .ktimerExpire => Sys2Proof.Machine.execKtimerExpire s
  | .interruptTake => Sys2Proof.Machine.execInterruptTake s
  | .eventReoffer => Sys2Proof.Machine.execEventReoffer s
  | .packetRoute => Sys2Proof.Machine.execPacketRoute s
  | .decombine => Sys2Proof.Machine.execDecombine s
  | .journalSplit => Sys2Proof.Machine.execJournalSplit s
  | .holdExpire => Sys2Proof.Machine.execHoldExpire s
  | .recordExpire => Sys2Proof.Machine.execRecordExpire s
  | .escapeTimeout => Sys2Proof.Machine.execEscapeTimeout s
  | .ageExpire => Sys2Proof.Machine.execAgeExpire s
  | .retryTimeout => Sys2Proof.Machine.execRetryTimeout s
  | .journalEntryExpire => Sys2Proof.Machine.execJournalEntryExpire s
  | .requestFilterExpire => Sys2Proof.Machine.execRequestFilterExpire s
  | .dispatcherHoldExpire => Sys2Proof.Machine.execDispatcherHoldExpire s
  | .groupReceive => Sys2Proof.Machine.execGroupReceive s
  | .heartbeatSend => Sys2Proof.Machine.execHeartbeatSend s
  | .heartbeatMiss => Sys2Proof.Machine.execHeartbeatMiss s
  | .portEnable => Sys2Proof.Machine.execPortEnable s
  | .trainingComplete => Sys2Proof.Machine.execTrainingComplete s
  | .portDownNotice => Sys2Proof.Machine.execPortDownNotice s
  | .probe => Sys2Proof.Machine.execProbe s
  | .probeTimeout => Sys2Proof.Machine.execProbeTimeout s
  | .collectivePacketArrive => Sys2Proof.Machine.execCollectivePacketArrive s
  | .collectiveResultDeliver => Sys2Proof.Machine.execCollectiveResultDeliver s
  | .cmcastPacketArrive => Sys2Proof.Machine.execCmcastPacketArrive s
  | .collectiveBufferFree => Sys2Proof.Machine.execCollectiveBufferFree s
  | .errorDetected => Sys2Proof.Machine.execErrorDetected s
  | .selfTestComplete => Sys2Proof.Machine.execSelfTestComplete s
  | .logicError => Sys2Proof.Machine.execLogicError s
  | .patrolScrub => Sys2Proof.Machine.execPatrolScrub s
  | .coreProbe => Sys2Proof.Machine.execCoreProbe s
  | .sparemapWrite => Sys2Proof.Machine.execSparemapWrite s
  | .lminjWrite => Sys2Proof.Machine.execLminjWrite s
  | .cmbinjWrite => Sys2Proof.Machine.execCmbinjWrite s
  | .cmbstatClear => Sys2Proof.Machine.execCmbstatClear s
  | .vbPause => Sys2Proof.Machine.execVbPause s
  | .vbResume => Sys2Proof.Machine.execVbResume s
  | .vbtestGo => Sys2Proof.Machine.execVbtestGo s
  | .vbtestStepComplete => Sys2Proof.Machine.execVbtestStepComplete s
  | .vbmuxWrite => Sys2Proof.Machine.execVbmuxWrite s
  | .busRetire => Sys2Proof.Machine.execBusRetire s
  | .measExtend => Sys2Proof.Machine.execMeasExtend s
  | .flashLogWrite => Sys2Proof.Machine.execFlashLogWrite s
  | .cubeReset => Sys2Proof.Machine.execCubeReset s
  | .recoveryImageReceive => Sys2Proof.Machine.execRecoveryImageReceive s
  | .requestUpdate => Sys2Proof.Machine.execRequestUpdate s
  | .updateImageComplete => Sys2Proof.Machine.execUpdateImageComplete s
  | .powerLoss => Sys2Proof.Machine.execPowerLoss s
  | .firmwareWriteRequest => Sys2Proof.Machine.execFirmwareWriteRequest s
  | .getVersion => Sys2Proof.Machine.execGetVersion s
  | .getCapabilities => Sys2Proof.Machine.execGetCapabilities s
  | .negotiateAlgorithms => Sys2Proof.Machine.execNegotiateAlgorithms s
  | .getDigests => Sys2Proof.Machine.execGetDigests s
  | .getCertificate => Sys2Proof.Machine.execGetCertificate s
  | .challenge => Sys2Proof.Machine.execChallenge s
  | .getMeasurements => Sys2Proof.Machine.execGetMeasurements s
  | .entdaa => Sys2Proof.Machine.execEntdaa s
  | .setdasa => Sys2Proof.Machine.execSetdasa s
  | .hostWindowRead => Sys2Proof.Machine.execHostWindowRead s
  | .hostWindowWrite => Sys2Proof.Machine.execHostWindowWrite s
  | .hostMailboxWrite => Sys2Proof.Machine.execHostMailboxWrite s
  | .hostDoorbell => Sys2Proof.Machine.execHostDoorbell s
  | .hostAtomicop => Sys2Proof.Machine.execHostAtomicop s
  | .hdbRing => Sys2Proof.Machine.execHdbRing s
  | .overtempFailure => Sys2Proof.Machine.execOvertempFailure s
  | .registerWrite => Sys2Proof.Machine.execRegisterWrite s
  | .sequenceNumberReuse => Sys2Proof.Machine.execSequenceNumberReuse s
  | .singleFault => Sys2Proof.Machine.execSingleFault s
  | .throttle => Sys2Proof.Machine.execThrottle s

end Sys2Proof.Machine
end

