-- ==== Sys2Proof/Machine/Run.lean ====
section
/-! DEFINITION. What can happen next when the agenda is empty, the passing of time, and the placing of an
instruction where the next fetch finds it. -/

namespace Sys2Proof.Machine

/-- The cores that hold anything. -/
def State.liveCores (s : State) : List Nat := s.cores.map Prod.fst

/-- The cores at which a slot is held. -/
def State.heldCores (s : State) : List Nat := (s.slots.map (fun e => e.1 / 4)).eraseDups

/-- The steps of the dispatchers and of the cores that are possible (R146, R188, R194). -/
def State.coreItems (s : State) : List Item :=
  let own : List Nat := List.map (fun e => e.1 / 256) s.ctxs
  let all : List Nat := (s.liveCores ++ s.heldCores ++ own).eraseDups
  (all.filter (fun n => s.coreRuns n && s.dispatcherIdle n &&
        (((s.freeSlot n).isSome && (s.candidate n none).isSome) || (s.drainedFront n).isSome))).map
      (fun n => .event .dispatch { x := n }) ++
    (all.filter (fun n => s.demand n && (s.parkChoice n).isSome)).map (fun n => .event .park { x := n }) ++
    (all.filter (fun n => (s.nextSlot n).isSome)).map .issue

/-- The steps of the engines that are possible (R114, R121, R136). -/
def State.engineItems (s : State) : List Item :=
  (s.clusters.map Prod.fst).flatMap (fun cl =>
    ([0, 1, 2].filter (s.engineReady cl)).map (fun q => Item.event .engineCommandStart { x := cl, y := q }) ++
      (if s.pendingReady cl then [Item.event .pendingMessageDeliver { x := cl }] else []) ++
      (if s.recordReady cl then [Item.event .engineRecordWrite { x := cl }] else []))

/-- The steps of the launch sequencer, of range switches and of the firmware that are possible (R201, R259, R384). -/
def State.cubeItems (s : State) : List Item :=
  (if s.launchReady then [Item.event .launchStart {}] else []) ++
    (((s.startBuf.map Prod.fst).eraseDups).filter s.reofferable).map (fun n => .event .startBufferReoffer { x := n }) ++
    (s.prsets.filter s.prsetReady).map (fun p => .event .prsetSwitch { x := p.id }) ++
    (if s.fwReady then [Item.event .firmwareWriteRequest {}] else [])

/-- The steps that are possible when the agenda is empty. -/
def State.enabled (s : State) : List Item := s.coreItems ++ s.engineItems ++ s.cubeItems

/-- A timer in its place among others, by the time at which they are due. -/
def insertTimer (t : Nat × Instr × EvArg) : List (Nat × Instr × EvArg) → List (Nat × Instr × EvArg)
  | [] => [t]
  | u :: r => if t.1 < u.1 then t :: u :: r else u :: insertTimer t r

/-- Timers that are due go to the agenda, in the order of their times. -/
def State.ring (s : State) : State :=
  let due := (s.timers.filter (fun t => t.1 ≤ s.now)).foldl (fun l t => insertTimer t l) []
  { s with timers := s.timers.filter (fun t => !(t.1 ≤ s.now)),
           agenda := s.agenda ++ due.map (fun (t : Nat × Instr × EvArg) => Item.event t.2.1 t.2.2) }

/-- How often a possible step has been passed over since it became possible. -/
def State.waited (s : State) (it : Item) : Nat := (s.passed.lookup it).getD 0

/-- R196: after so many passes a possible step is taken before any that has waited less (log entry 5). -/
def fairLimit : Nat := 256

/-- The possible step to take: any, but one that has waited the longest where one has been passed over too often. -/
def State.pick (s : State) (first : Item) (rest : List Item) : Item :=
  let oldest := rest.foldl (fun b it => if s.waited b < s.waited it then it else b) first
  if rest.isEmpty || fairLimit ≤ s.waited oldest then oldest
  else (first :: rest).getD (Config.pickCore s.free % (rest.length + 1)) first

/-- The next step: the front of the agenda, or one of the possible ones; those that it passes over are counted, and then
the timers ring that are due (log entry 5). -/
def State.choose (s : State) : Option (Item × State) :=
  match s.agenda with
  | it :: rest => some (it, { s with agenda := rest })
  | [] =>
    match s.enabled with
    | [] => none
    | first :: rest =>
      let it := s.pick first rest
      let others := (first :: rest).filter (fun o => decide (o ≠ it))
      some (it, { s.useFree with passed := others.map (fun o => (o, s.waited o + 1)) }.ring)

/-- Time passes to cycle `n`: requests that have set out are timed (R284), and parked contexts whose wait is over become
ready (R186). -/
def State.pass (s : State) (n : Nat) : State := ({ s with now := n } : State).timeRequests.wakeParked

/-- Time passes to cycle `n`, and the timers ring. -/
def State.settleTime (s : State) (n : Nat) : State := (s.pass n).ring

/-- The time that a step takes (log entry 5). -/
def State.tick (s : State) : State := s.pass (s.now + 1 + Config.stepCycles s.now)

/-- Nothing can happen now: time passes to the next timer, or to the cycle at which a wait has lasted long enough for its
context to be parked (R188). -/
def State.idle (s : State) : State :=
  match s.timers.map Prod.fst ++ s.heldCores.flatMap s.parkTimes with
  | [] => s.tick
  | t :: r => s.settleTime (Nat.max (s.now + 1) (r.foldl Nat.min t))

/-- The slot and context whose head a core issues. -/
def State.enter (s : State) (core k : Nat) : State :=
  { s.updCore core (fun c => { c with lastSlot := k }) with
    cur := ⟨core, k, ((s.slot core k).ctx).getD 0⟩, accs := 0 }

/-- R71 steps 4 and 5, R347: the failure that a waiting head finds when it issues again. -/
def State.failedWait (s : State) : Option (Nat × Nat) :=
  match s.c.wait with
  | some w =>
    (match w.got with
      | some (.fail c) => some (c, w.thr)
      | _ => none)
  | none => none

/-- R344: the pending-operation block that comes before the next head has bad parity. -/
def State.badBlock (s : State) : Bool := s.level ≤ s.c.lvl && s.c.pob && s.c.bad.contains (4, 0)

/-- What a head that issues meets before it is fetched: the failure that it waited for, or a pending-operation block that
cannot be read. -/
def State.beforeHead (s : State) : Option State :=
  match s.failedWait with
  | some (c, va) => some (s.trap c (BitVec.ofNat 64 va))
  | none =>
    if s.badBlock then some (s.coreError s.cur.core (regPlace s.cur.core s.cur.ctx 4 0) (parityTval 4 0)) else none

/-- The core, slot and context of a placed instruction. -/
def placeCore : Nat := 127

/-- R10: a context at firmware level on core (0, 127), the core on which the ROM runs, whose copy of its line
holds the one head given; it issues next. -/
def State.placeHead (s : State) (head : BitVec 16) (tail : BitVec 48) : State :=
  let addr : Word := 0x1000
  let c : Ctx := { st := .running, pc := addr + 2, line := some ⟨addr, oneHeadLine head tail⟩, sbank := .resident }
  let empty := (List.range 4).foldl (fun t k => t.setSlot placeCore k {}) s
  let s1 := (empty.setCtx placeCore 0 c).updSlot placeCore 0 (fun t => { t with ctx := some 0, level := 2 })
  { s1.updCore placeCore (fun c => { c with events := [], testing := false, lastSlot := 3 }) with
    agenda := [.issue placeCore], acts := [], mode := .running, memos := [],
    csr := mset 0 s1.csr (0x4070000 + 8 * clusterOf placeCore) 0 }

end Sys2Proof.Machine
end

