-- ==== Sys2Proof/Machine/Step.lean ====
section
/-! DEFINITION. One step of the cube: the front event of the agenda, or one of the possible ones. -/

namespace Sys2Proof.Machine

/-- Time passes after a step (R5). -/
def afterStep (o : Out) : Out :=
  match o with
  | .next s => .next s.tick
  | .fault f => .fault f
  | .refused r => .refused r

/-- A core issues the next head of a slot, which takes a pending interrupt first (R195, R317). -/
def issueSlot (s : State) (core k : Nat) : Out :=
  let s0 := s.enter core k
  if (s.takeable core k).isSome then exec .interruptTake { s0 with arg := { x := core, y := k } }
  else
    match s0.beforeHead with
    | some s1 => .next s1
    | none =>
      match s0.fetch with
      | .head i s1 => exec i s1
      | .stop s1 => .next s1

/-- One entry of the agenda happens. -/
def runItem (it : Item) (s : State) : Out :=
  match it with
  | .event i a => exec i { s with arg := a, accs := 0 }
  | .issue core =>
    match s.nextSlot core with
    | some k => issueSlot s core k
    | none => .next s

/-- R303: the actions that stores of the step have started are part of it. -/
def runActs : List (Instr × EvArg) → State → Out
  | [], s => .next s
  | (i, a) :: rest, s =>
    match exec i { s with arg := a, accs := 0 } with
    | .next t => runActs rest t
    | .fault f => .fault f
    | .refused r => .refused r

/-- The end of a step: the actions of its stores, and time passes. -/
def endStep (o : Out) : Out :=
  match o with
  | .next s => afterStep (runActs s.acts { s with acts := [] })
  | .fault f => .fault f
  | .refused r => .refused r

/-- One step. -/
def step (s : State) : Out :=
  match s.choose with
  | some (it, s1) => endStep (runItem it s1)
  | none => if s.mode = .inReset then .fault .heldInReset else .next s.idle

/-- The instruction of a table word stands where the next step fetches; the bits above `nbits` are zero. -/
def State.withFetchWord (s : State) (_nbits w : Nat) : State :=
  s.placeHead (BitVec.ofNat 16 w) (BitVec.ofNat 48 (w / 65536))

end Sys2Proof.Machine
end

