-- ==== Sys2Proof/Certificates/Slice0/Obligations.lean ====
section
/-! DEFINITION. The statements for the provers. Each says what its title says; the rule of spec/ that it
formalises stands in its docstring. -/

open Sys2Proof Sys2Proof.Machine

/-! ## Words of the statements -/

namespace Sys2Proof.Spec

/-- The registers that a head reads have good parity (R344), and no unanswered access of the context will still
write a register that it reads or writes (R318): the head goes on at once. -/
abbrev Ready (s : State) (src dst : List RRef) : Prop := s.c.hungOn (src ++ dst) = false ∧ s.c.badAmong src = none

/-- No access of the thread's earlier heads that an interrupt left under way is still to be performed (R74, R86): stores,
atomics, releases and vector instructions go on at once; else they wait (`Obligations.EarlierAccessesFirst`). -/
abbrev Settled (s : State) : Prop := s.c.ownPending = false

/-- The head completes with `v` in X[d] and the PC on the next head (R15, R18). -/
def Gives (i : Instr) (s : State) (d : Reg) (v : Word) : Prop := exec i s = .next ((s.setX d v).advance)

/-- The encoding of `i` has the OP and, in a T16.R tail (`at_` 10) or a T32.X tail (`at_` 15), the f given (R11, R12). -/
def Coded (i : Instr) (op at_ f : Nat) : Prop :=
  ∃ h t, encode i = some (h, t) ∧ headOP h = op ∧ (t.extractLsb' at_ 6).toNat = f

/-- The head traps with the cause and KTVAL, KEPC being its own PC (R319). -/
def TrapsWith (i : Instr) (s : State) (cause : Nat) (tval : Word) : Prop := exec i s = .next (s.trap cause tval)

/-- 1 or 0. -/
def bit (b : Bool) : Word := if b then 1 else 0

/-- Every byte of DRAM, of the local memories and of the flash reads as before, and every full-empty bit. -/
def SameMemory (s t : State) : Prop :=
  (∀ a, mget 0 t.dram a = mget 0 s.dram a) ∧ (∀ a, mget 0 t.lmem a = mget 0 s.lmem a) ∧
    (∀ a, mget 0xFF t.flash a = mget 0xFF s.flash a) ∧ (∀ w, mget true t.fe w = mget true s.fe w)

/-- Every slot (its level, its kernel and firmware registers of R308) and every core-wide register is as before. -/
def SameSpecial (s t : State) : Prop :=
  (∀ k, mget {} t.slots k = mget {} s.slots k) ∧ (∀ n, mget {} t.cores n = mget {} s.cores n) ∧
    (∀ n, mget {} t.clusters n = mget {} s.clusters n) ∧ t.csr = s.csr

/-- Every context but the one being executed is as before. -/
def OtherContexts (s t : State) : Prop :=
  ∀ k, k ≠ ctxKey s.cur.core s.cur.ctx → mget {} t.ctxs k = mget {} s.ctxs k

/-- Within the context being executed: every scalar register but `d`, every vector and mask register, FPCTL,
FPSTAT, the streams, the ASID and the roots of translation are as before. -/
def OnlyX (d : Reg) (s t : State) : Prop :=
  (∀ r, r ≠ d → t.getX r = s.getX r) ∧ (∀ r, t.c.getV r = s.c.getV r) ∧ (∀ m, t.c.getM m = s.c.getM m) ∧
    t.c.fpctl = s.c.fpctl ∧ t.c.fpstat = s.c.fpstat ∧ t.c.streams = s.c.streams ∧ t.c.asid = s.c.asid ∧
    t.c.ptbase = s.c.ptbase ∧ t.c.fptbase = s.c.fptbase

/-- The whole frame of a head that writes X[d] and the PC. -/
def Frame (d : Reg) (s t : State) : Prop :=
  SameMemory s t ∧ SameSpecial s t ∧ OtherContexts s t ∧ OnlyX d s t

end Sys2Proof.Spec

open Sys2Proof.Spec

/-! ## Registers and the program counter -/

/-- R18: x0 reads as zero, whatever has been written to it, and a write to x0 changes nothing. -/
def Sys2Proof.Spec.ZeroRegister : Prop :=
  ∀ (s : State) (v : Word), s.getX 0 = 0 ∧ (s.setX 0 v).c = s.c ∧ (s.setX 0 v).getX 0 = 0

/-- A register other than x0 that is written reads as what was written, and every other register as before; its
parity is good again (R344). -/
def Sys2Proof.Spec.RegisterReadAfterWrite : Prop :=
  ∀ (s : State) (d r : Reg) (v : Word), d ≠ 0 →
    (s.setX d v).getX r = (if r = d then v else s.getX r) ∧ (s.setX d v).c.badAmong [.x d] = none

/-- ZeroRegister and RegisterReadAfterWrite, stated above. -/
def Obligations.Registers : Prop :=
  ZeroRegister ∧ RegisterReadAfterWrite

/-- R15: when a head completes without transferring control, the next PC is PC + 2 if PC[5:1] < H, and otherwise
(PC & ~0x3F) + 0x42; H is that of the line being executed. JAL and JALR write this next PC as the link. -/
def Sys2Proof.Spec.NextProgramCounter : Prop :=
  ∀ (s : State) (l : LineCopy) (b : Byte) (r : List Byte) (d a : Reg) (t : BTarget) (imm : BitVec 11),
    s.c.line = some l → l.bytes = b :: r →
    let next := if (s.c.pc.toNat / 2) % 32 < b.toNat % 32 then s.c.pc + 2 else (s.c.pc &&& ~~~0x3F#64) + 0x42
    (exec .nop s = .next s.advance ∧ s.advance.c.pc = next) ∧
    (d ≠ 0 → Ready s [.x a] [.x d] →
      (∃ u, exec (.jal d t) s = .next u ∧ u.getX d = next) ∧
      ((s.getX a).getLsbD 0 = false → ∃ u, exec (.jalr d a imm) s = .next u ∧ u.getX d = next))

/-- R67: NOP changes nothing but the PC, which advances under R15. -/
def Sys2Proof.Spec.NopChangesOnlyThePc : Prop :=
  ∀ s : State, ∃ t, exec .nop s = .next t ∧ t.c.pc = s.c.nextPc ∧ Frame 0 s t

/-- NextProgramCounter and NopChangesOnlyThePc, stated above. -/
def Obligations.ProgramCounter : Prop :=
  NextProgramCounter ∧ NopChangesOnlyThePc

/-! ## Scalar results -/

/-- R61: the constants, immediates and addresses of OP 0x08 to 0x0D. -/
def Obligations.ImmediateResults : Prop :=
  ∀ (s : State) (d a : Reg) (i11 : BitVec 11) (i27 : BitVec 27) (i32 : BitVec 32) (sh : BitVec 6),
    (Ready s [] [.x d] →
      Gives (.li d i32) s d (i32.signExtend 64) ∧ Gives (.liZ d i32) s d (i32.setWidth 64) ∧
      Gives (.adr d i27) s d (s.c.pc + i27.signExtend 64)) ∧
    (Ready s [.x d] [.x d] → Gives (.lihi d i32) s d ((i32.setWidth 64 <<< 32) ||| ((s.getX d).extractLsb' 0 32).setWidth 64)) ∧
    (Ready s [.x a] [.x d] →
      Gives (.addi d a i11) s d (s.getX a + i11.signExtend 64) ∧
      Gives (.andi d a i11) s d (s.getX a &&& i11.signExtend 64) ∧
      Gives (.ori d a i11) s d (s.getX a ||| i11.signExtend 64) ∧
      Gives (.xori d a i11) s d (s.getX a ^^^ i11.signExtend 64) ∧
      Gives (.slli d a sh) s d (s.getX a <<< sh.toNat) ∧
      Gives (.srli d a sh) s d (s.getX a >>> sh.toNat) ∧
      Gives (.srai d a sh) s d ((s.getX a).sshiftRight sh.toNat) ∧
      Gives (.rori d a sh) s d ((s.getX a).rotateRight sh.toNat) ∧
      Gives (.addil d a i27) s d (s.getX a + i27.signExtend 64) ∧
      Gives (.slti d a i11) s d (bit (decide ((s.getX a).toInt < i11.toInt))) ∧
      Gives (.sltiZ d a i11) s d (bit (decide ((s.getX a).toNat < (i11.signExtend 64).toNat))) ∧
      Gives (.seqi d a i11) s d (bit (decide (s.getX a = i11.signExtend 64))))

/-- R62: the register arithmetic of OP 0x10; the shift count is X[b][5:0]. -/
def Obligations.RegisterArithmetic : Prop :=
  (∀ (s : State) (d a b : Reg), Ready s [.x a, .x b] [.x d] →
    Gives (.add d a b) s d (s.getX a + s.getX b) ∧
    Gives (.sub d a b) s d (s.getX a - s.getX b) ∧
    Gives (.and d a b) s d (s.getX a &&& s.getX b) ∧
    Gives (.or d a b) s d (s.getX a ||| s.getX b) ∧
    Gives (.xor d a b) s d (s.getX a ^^^ s.getX b) ∧
    Gives (.andn d a b) s d (s.getX a &&& ~~~s.getX b) ∧
    Gives (.orn d a b) s d (s.getX a ||| ~~~s.getX b) ∧
    Gives (.xnor d a b) s d (~~~(s.getX a ^^^ s.getX b)) ∧
    Gives (.sll d a b) s d (s.getX a <<< ((s.getX b).extractLsb' 0 6).toNat) ∧
    Gives (.srl d a b) s d (s.getX a >>> ((s.getX b).extractLsb' 0 6).toNat) ∧
    Gives (.sra d a b) s d ((s.getX a).sshiftRight ((s.getX b).extractLsb' 0 6).toNat) ∧
    Gives (.rol d a b) s d ((s.getX a).rotateLeft ((s.getX b).extractLsb' 0 6).toNat) ∧
    Gives (.ror d a b) s d ((s.getX a).rotateRight ((s.getX b).extractLsb' 0 6).toNat) ∧
    Gives (.slt d a b) s d (bit (decide ((s.getX a).toInt < (s.getX b).toInt))) ∧
    Gives (.sltZ d a b) s d (bit (decide ((s.getX a).toNat < (s.getX b).toNat))) ∧
    Gives (.seq d a b) s d (bit (decide (s.getX a = s.getX b)))) ∧
  ∀ d a b : Reg,
    Coded (.add d a b) 0x10 10 0 ∧ Coded (.sub d a b) 0x10 10 1 ∧ Coded (.and d a b) 0x10 10 2 ∧
    Coded (.or d a b) 0x10 10 3 ∧ Coded (.xor d a b) 0x10 10 4 ∧ Coded (.andn d a b) 0x10 10 5 ∧
    Coded (.orn d a b) 0x10 10 6 ∧ Coded (.xnor d a b) 0x10 10 7 ∧ Coded (.sll d a b) 0x10 10 8 ∧
    Coded (.srl d a b) 0x10 10 9 ∧ Coded (.sra d a b) 0x10 10 10 ∧ Coded (.rol d a b) 0x10 10 11 ∧
    Coded (.ror d a b) 0x10 10 12 ∧ Coded (.slt d a b) 0x10 10 13 ∧ Coded (.sltZ d a b) 0x10 10 14 ∧
    Coded (.seq d a b) 0x10 10 15

/-- R63: multiplication and division. The high halves are those of the exact product; signed division truncates
toward zero and a signed remainder takes the sign of the dividend; the edge cases are fixed as the rule fixes them. -/
def Obligations.MultiplyAndDivide : Prop :=
  (∀ (s : State) (d a b : Reg), Ready s [.x a, .x b] [.x d] →
    ∃ h hz q qz r rz : Word,
      Gives (.mul d a b) s d (s.getX a * s.getX b) ∧ Gives (.mulh d a b) s d h ∧ Gives (.mulhZ d a b) s d hz ∧
      Gives (.div d a b) s d q ∧ Gives (.divZ d a b) s d qz ∧ Gives (.rem d a b) s d r ∧ Gives (.remZ d a b) s d rz ∧
      h.toInt * 2 ^ 64 ≤ (s.getX a).toInt * (s.getX b).toInt ∧
      (s.getX a).toInt * (s.getX b).toInt < (h.toInt + 1) * 2 ^ 64 ∧
      hz.toNat = (s.getX a).toNat * (s.getX b).toNat / 2 ^ 64 ∧
      (s.getX b = 0 → q = 0xFFFFFFFFFFFFFFFF ∧ qz = 0xFFFFFFFFFFFFFFFF ∧ r = s.getX a ∧ rz = s.getX a) ∧
      (s.getX b ≠ 0 →
        qz.toNat = (s.getX a).toNat / (s.getX b).toNat ∧ rz.toNat = (s.getX a).toNat % (s.getX b).toNat ∧
        (s.getX a = 0x8000000000000000 ∧ s.getX b = 0xFFFFFFFFFFFFFFFF → q = 0x8000000000000000 ∧ r = 0) ∧
        (¬(s.getX a = 0x8000000000000000 ∧ s.getX b = 0xFFFFFFFFFFFFFFFF) →
          q.toInt = (s.getX a).toInt.tdiv (s.getX b).toInt ∧ r.toInt = (s.getX a).toInt.tmod (s.getX b).toInt))) ∧
  ∀ d a b : Reg,
    Coded (.mul d a b) 0x11 10 0 ∧ Coded (.mulh d a b) 0x11 10 1 ∧ Coded (.mulhZ d a b) 0x11 10 2 ∧
    Coded (.div d a b) 0x11 10 3 ∧ Coded (.divZ d a b) 0x11 10 4 ∧ Coded (.rem d a b) 0x11 10 5 ∧
    Coded (.remZ d a b) 0x11 10 6

/-- R64: EXT and EXT.z give the field of `w` bits at position p, by bits; INS replaces it; `w1` is w − 1. -/
def Sys2Proof.Spec.BitFields : Prop :=
  ∀ (s : State) (d a b : Reg) (p w1 : BitVec 6), p.toNat + w1.toNat + 1 ≤ 64 →
    (Ready s [.x a] [.x d] → ∃ e z : Word,
      Gives (.ext d a p w1) s d e ∧ Gives (.extZ d a p w1) s d z ∧
      ∀ i, i < 64 →
        e.getLsbD i = (s.getX a).getLsbD (p.toNat + min i w1.toNat) ∧
        z.getLsbD i = (decide (i ≤ w1.toNat) && (s.getX a).getLsbD (p.toNat + i))) ∧
    (Ready s [.x a, .x b] [.x d] → ∃ v : Word,
      Gives (.ins d a b p w1) s d v ∧
      ∀ i, i < 64 → v.getLsbD i =
        if p.toNat ≤ i ∧ i ≤ p.toNat + w1.toNat then (s.getX b).getLsbD (i - p.toNat) else (s.getX a).getLsbD i)

/-- R65: the unary functions of OP 0x13: counting, reversal and extension. -/
def Sys2Proof.Spec.UnaryFunctions : Prop :=
  (∀ (s : State) (d a : Reg), Ready s [.x a] [.x d] →
    ∃ lz tz n rv sw : Word,
      Gives (.clz d a) s d lz ∧ Gives (.ctz d a) s d tz ∧ Gives (.popc d a) s d n ∧ Gives (.brev d a) s d rv ∧
      Gives (.bswap d a) s d sw ∧
      Gives (.sext8 d a) s d (((s.getX a).extractLsb' 0 8).signExtend 64) ∧
      Gives (.sext16 d a) s d (((s.getX a).extractLsb' 0 16).signExtend 64) ∧
      Gives (.sext32 d a) s d (((s.getX a).extractLsb' 0 32).signExtend 64) ∧
      Gives (.zext8 d a) s d (((s.getX a).extractLsb' 0 8).setWidth 64) ∧
      Gives (.zext16 d a) s d (((s.getX a).extractLsb' 0 16).setWidth 64) ∧
      Gives (.zext32 d a) s d (((s.getX a).extractLsb' 0 32).setWidth 64) ∧
      (s.getX a = 0 → lz = 64 ∧ tz = 64) ∧
      (s.getX a ≠ 0 →
        lz.toNat < 64 ∧ (s.getX a).getLsbD (63 - lz.toNat) = true ∧
        (∀ i, i < 64 → 63 - lz.toNat < i → (s.getX a).getLsbD i = false) ∧
        tz.toNat < 64 ∧ (s.getX a).getLsbD tz.toNat = true ∧ ∀ i, i < tz.toNat → (s.getX a).getLsbD i = false) ∧
      n.toNat = (List.range 64).countP (fun i => (s.getX a).getLsbD i) ∧
      (∀ i, i < 64 → rv.getLsbD (63 - i) = (s.getX a).getLsbD i) ∧
      ∀ i, i < 64 → sw.getLsbD i = (s.getX a).getLsbD (8 * (7 - i / 8) + i % 8)) ∧
  ∀ d a : Reg,
    Coded (.clz d a) 0x13 10 0 ∧ Coded (.ctz d a) 0x13 10 1 ∧ Coded (.popc d a) 0x13 10 2 ∧
    Coded (.brev d a) 0x13 10 3 ∧ Coded (.bswap d a) 0x13 10 4 ∧ Coded (.sext8 d a) 0x13 10 5 ∧
    Coded (.sext16 d a) 0x13 10 6 ∧ Coded (.sext32 d a) 0x13 10 7 ∧ Coded (.zext8 d a) 0x13 10 8 ∧
    Coded (.zext16 d a) 0x13 10 9 ∧ Coded (.zext32 d a) 0x13 10 10

/-- R66: selects, and the smaller and larger of two registers. -/
def Sys2Proof.Spec.SelectsAndExtremes : Prop :=
  (∀ (s : State) (d a b c : Reg),
    (Ready s [.x a, .x b, .x c] [.x d] →
      Gives (.selNz d a b c) s d (if s.getX c = 0 then s.getX b else s.getX a) ∧
      Gives (.selZ d a b c) s d (if s.getX c = 0 then s.getX a else s.getX b)) ∧
    (Ready s [.x a, .x b] [.x d] →
      Gives (.min d a b) s d (if (s.getX a).toInt ≤ (s.getX b).toInt then s.getX a else s.getX b) ∧
      Gives (.max d a b) s d (if (s.getX a).toInt ≤ (s.getX b).toInt then s.getX b else s.getX a) ∧
      Gives (.minZ d a b) s d (if (s.getX a).toNat ≤ (s.getX b).toNat then s.getX a else s.getX b) ∧
      Gives (.maxZ d a b) s d (if (s.getX a).toNat ≤ (s.getX b).toNat then s.getX b else s.getX a))) ∧
  ∀ d a b c : Reg,
    Coded (.selNz d a b c) 0x14 15 0 ∧ Coded (.selZ d a b c) 0x14 15 1 ∧ Coded (.min d a b) 0x14 15 2 ∧
    Coded (.max d a b) 0x14 15 3 ∧ Coded (.minZ d a b) 0x14 15 4 ∧ Coded (.maxZ d a b) 0x14 15 5

/-- BitFields, UnaryFunctions and SelectsAndExtremes, stated above. -/
def Obligations.BitAndSelectFunctions : Prop :=
  BitFields ∧ UnaryFunctions ∧ SelectsAndExtremes

/-- The frame of the scalar arithmetic heads: whatever next state one of them gives (also where it traps on a
register with failed parity or waits), it changes no memory, no other context, no vector, mask or FP register and
no scalar register but X[d]; and where the registers are ready, no special register either. -/
def Obligations.ScalarFrame : Prop :=
  ∀ (s t : State) (d a b c : Reg) (i11 : BitVec 11) (i27 : BitVec 27) (i32 : BitVec 32) (sh p w : BitVec 6) (i : Instr),
    i ∈ [Instr.li d i32, .liZ d i32, .lihi d i32, .addi d a i11, .andi d a i11, .ori d a i11, .xori d a i11,
      .slli d a sh, .srli d a sh, .srai d a sh, .rori d a sh, .addil d a i27, .adr d i27, .slti d a i11,
      .sltiZ d a i11, .seqi d a i11, .add d a b, .sub d a b, .and d a b, .or d a b, .xor d a b, .andn d a b,
      .orn d a b, .xnor d a b, .sll d a b, .srl d a b, .sra d a b, .rol d a b, .ror d a b, .slt d a b, .sltZ d a b,
      .seq d a b, .mul d a b, .mulh d a b, .mulhZ d a b, .div d a b, .divZ d a b, .rem d a b, .remZ d a b,
      .ext d a p w, .extZ d a p w, .ins d a b p w, .clz d a, .ctz d a, .popc d a, .brev d a, .bswap d a, .sext8 d a,
      .sext16 d a, .sext32 d a, .zext8 d a, .zext16 d a, .zext32 d a, .selNz d a b c, .selZ d a b c, .min d a b,
      .max d a b, .minZ d a b, .maxZ d a b] →
    exec i s = .next t →
      SameMemory s t ∧ OtherContexts s t ∧ OnlyX d s t ∧
        (Ready s [.x a, .x b, .x c, .x d] [.x d] → SameSpecial s t)

/-! ## Control transfer -/

/-- R68: a conditional branch goes to its target where its condition holds, and to the next head otherwise; BR always
goes to its target. -/
def Sys2Proof.Spec.Branches : Prop :=
  ∀ (s : State) (a b : Reg) (t : BTarget),
    exec (.br t) s = .next (s.jump (s.c.target t)) ∧
    (Ready s [.x a, .x b] [] →
      let go := fun (cond : Bool) => (Host.Outcome.next (if cond then s.jump (s.c.target t) else s.advance) : Out)
      exec (.beq a b t) s = go (decide (s.getX a = s.getX b)) ∧
      exec (.bne a b t) s = go (decide (s.getX a ≠ s.getX b)) ∧
      exec (.blt a b t) s = go (decide ((s.getX a).toInt < (s.getX b).toInt)) ∧
      exec (.bge a b t) s = go (decide ((s.getX b).toInt ≤ (s.getX a).toInt)) ∧
      exec (.bltZ a b t) s = go (decide ((s.getX a).toNat < (s.getX b).toNat)) ∧
      exec (.bgeZ a b t) s = go (decide ((s.getX b).toNat ≤ (s.getX a).toNat)))

/-- R16: the target of a T32.B tail is (PC & ~0x3F) + 64 × sext(line delta) + 2 × head index; a transfer puts the PC
there and changes no register, no memory and no special register. A head index of 0 is an illegal encoding. -/
def Sys2Proof.Spec.TransferToTarget : Prop :=
  ∀ (s : State) (t : BTarget),
    s.c.target t = (s.c.pc &&& ~~~0x3F#64) + 64 * t.delta.signExtend 64 + 2 * t.idx.setWidth 64 ∧
    (s.jump (s.c.target t)).c.pc = s.c.target t ∧ Frame 0 s (s.jump (s.c.target t)) ∧
    (t.idx = 0 → (Instr.br t).wellFormed = false ∧ ∀ a b, (Instr.beq a b t).wellFormed = false)

/-- R69, R17: JAL links and goes to its target. JALR goes to X[a] + 2 × sext(imm11) and links, X[a] being read before
the link is written; with bit 0 of the target set it traps with cause 0x04 and writes no link. -/
def Sys2Proof.Spec.JumpsAndLinks : Prop :=
  ∀ (s : State) (d a : Reg) (t : BTarget) (imm : BitVec 11),
    (Ready s [] [.x d] → exec (.jal d t) s = .next ((s.setX d s.c.nextPc).jump (s.c.target t))) ∧
    (Ready s [.x a] [.x d] →
      ((s.getX a).getLsbD 0 = false →
        exec (.jalr d a imm) s = .next ((s.setX d s.c.nextPc).jump (s.getX a + 2 * imm.signExtend 64))) ∧
      ((s.getX a).getLsbD 0 = true → TrapsWith (.jalr d a imm) s 0x04 (s.getX a + 2 * imm.signExtend 64)))

/-- R70: LOOP. -/
def Sys2Proof.Spec.LoopClosesACountedLoop : Prop :=
  ∀ (s : State) (a : Reg) (t : BTarget), Ready s [.x a] [.x a] →
    (s.getX a = 0 → exec (.loop a t) s = .next s.advance) ∧
    (s.getX a = 1 → exec (.loop a t) s = .next ((s.setX a 0).advance)) ∧
    (1 < (s.getX a).toNat → exec (.loop a t) s = .next ((s.setX a (s.getX a - 1)).jump (s.c.target t)))

/-- Branches, TransferToTarget, JumpsAndLinks and LoopClosesACountedLoop, stated above. -/
def Obligations.ControlTransfers : Prop :=
  Branches ∧ TransferToTarget ∧ JumpsAndLinks ∧ LoopClosesACountedLoop

/-! ## Loads and stores -/

namespace Sys2Proof.Spec

/-- R71, R218: the checks that an access of `n` bytes to the local window of the core's cluster passes. -/
abbrev WindowAccess (s : State) (va : Word) (n : Nat) : Prop :=
  va.toNat % n = 0 ∧ inWindow va = true ∧ s.carveBlocks s.clu (winOff va) n s.level = false ∧
    s.fwBlocks s.clu (winOff va) s.level = false

/-- The words of 32 bits that the access touches have good parity, and no injected error waits for them (R335, R344). -/
abbrev GoodWords (s : State) (va : Word) (n : Nat) : Prop :=
  (s.injArmed && (lmemWords s.clu (winOff va) n).contains s.injKey) = false ∧
    ∀ w ∈ lmemWords s.clu (winOff va) n, s.lmemBad.lookup w = none

/-- The `n` bytes at the address, least significant first, as a number. -/
def windowValue (s : State) (va : Word) (n : Nat) : Nat :=
  leNat ((List.range n).map (fun i => mget 0 s.lmem (s.clu * 0x80000 + (va.toNat - 0x7F0000000000) + i)))

/-- The state with `n` bytes of `v` stored at the address, least significant first. -/
def windowStored (s : State) (va : Word) (n v : Nat) : State := s.lmemWrite s.clu (winOff va) (leBytes n v)

end Sys2Proof.Spec

/-- R73: the loads of OP 0x18 and 0x19, LDX and LD.ACQ give the sign- or zero-extended bytes at their address: here
in the local window, which is reached without translation. -/
def Sys2Proof.Spec.LoadsFromTheWindow : Prop :=
  ∀ (s : State) (d a b : Reg) (imm : BitVec 11) (k : BitVec 2) (t : MTy) (sc : Scope),
    let va := s.getX a + imm.signExtend 64
    let vx := s.getX a + (s.getX b <<< k.toNat)
    let ok := fun (x : Word) (n : Nat) => WindowAccess s x n ∧ GoodWords s x n
    (Ready s [.x a] [.x d] →
      (ok va 1 → Gives (.ldS8 d a imm) s d ((BitVec.ofNat 8 (windowValue s va 1)).signExtend 64) ∧
        Gives (.ldZ8 d a imm) s d (BitVec.ofNat 64 (windowValue s va 1))) ∧
      (ok va 2 → Gives (.ldS16 d a imm) s d ((BitVec.ofNat 16 (windowValue s va 2)).signExtend 64) ∧
        Gives (.ldZ16 d a imm) s d (BitVec.ofNat 64 (windowValue s va 2))) ∧
      (ok va 4 → Gives (.ldS32 d a imm) s d ((BitVec.ofNat 32 (windowValue s va 4)).signExtend 64) ∧
        Gives (.ldZ32 d a imm) s d (BitVec.ofNat 64 (windowValue s va 4))) ∧
      (ok va 8 → Gives (.ldS64 d a imm) s d (BitVec.ofNat 64 (windowValue s va 8)) ∧
        Gives (.ldZ64 d a imm) s d (BitVec.ofNat 64 (windowValue s va 8)))) ∧
    (Ready s [.x a, .x b] [.x d] → ok vx t.size → Gives (.ldx d a b k t) s d (t.conv (windowValue s vx t.size))) ∧
    (Ready s (.x a :: scopeReads sc) [.x d] → (∀ c, sc = .rect c → rectLegal (s.getX c) = true) →
      ok (s.getX a) t.size → Gives (.ldAcq d a t sc) s d (t.conv (windowValue s (s.getX a) t.size)))

/-- R73: the stores of OP 0x1A, STX and ST.REL put the low bytes of their register at their address: here in the
local window. -/
def Sys2Proof.Spec.StoresToTheWindow : Prop :=
  ∀ (s : State) (r a b : Reg) (imm : BitVec 11) (k : BitVec 2) (t : MSize) (sc : Scope),
    let va := s.getX a + imm.signExtend 64
    let vx := s.getX a + (s.getX b <<< k.toNat)
    let put := fun (x : Word) (n : Nat) => (Host.Outcome.next (windowStored s x n (s.getX r).toNat).advance : Out)
    Settled s →
    (Ready s [.x r, .x a] [] →
      (WindowAccess s va 1 → exec (.stS8 r a imm) s = put va 1) ∧
      (WindowAccess s va 2 → exec (.stS16 r a imm) s = put va 2) ∧
      (WindowAccess s va 4 → exec (.stS32 r a imm) s = put va 4) ∧
      (WindowAccess s va 8 → exec (.stS64 r a imm) s = put va 8)) ∧
    (Ready s [.x r, .x a, .x b] [] → WindowAccess s vx (sizeBytes t) →
      exec (.stx r a b k t) s = put vx (sizeBytes t)) ∧
    (Ready s (.x r :: .x a :: scopeReads sc) [] → s.c.storeFail = none →
      (∀ c, sc = .rect c → rectLegal (s.getX c) = true) → WindowAccess s (s.getX a) (sizeBytes t) →
      exec (.stRel r a t sc) s = put (s.getX a) (sizeBytes t))

/-- The frame of a store to the local window: the bytes stored are the `n` low bytes of the value, every other byte
reads as before, and no register and no special register changes. -/
def Sys2Proof.Spec.WindowStoreFrame : Prop :=
  ∀ (s : State) (va : Word) (n v : Nat),
    let t := windowStored s va n v
    let at_ := s.clu * 0x80000 + (va.toNat - 0x7F0000000000)
    (∀ i, i < n → (mget 0 t.lmem (at_ + i)).toNat = v / 256 ^ i % 256) ∧
      (∀ a, a < at_ ∨ at_ + n ≤ a → mget 0 t.lmem a = mget 0 s.lmem a) ∧
      (∀ a, mget 0 t.dram a = mget 0 s.dram a) ∧ (∀ a, mget 0xFF t.flash a = mget 0xFF s.flash a) ∧
      (∀ w, mget true t.fe w = mget true s.fe w) ∧ SameSpecial s t ∧ OtherContexts s t ∧ t.c = s.c ∧ t.cur = s.cur

/-- R74: a load returns the value of the latest store to its bytes in program order: ST.s64 followed by a load of the
same doubleword of the window by the same thread. -/
def Sys2Proof.Spec.LoadAfterStore : Prop :=
  ∀ (s t : State) (d r a : Reg) (imm : BitVec 11),
    let va := s.getX a + imm.signExtend 64
    Settled s → Ready s [.x r, .x a] [] → Ready s [.x a] [.x d] → WindowAccess s va 8 → GoodWords s va 8 →
    exec (.stS64 r a imm) s = .next t →
      Gives (.ldS64 d a imm) t d (s.getX r) ∧ Gives (.ldZ64 d a imm) t d (s.getX r) ∧
      Gives (.ldZ32 d a imm) t d (((s.getX r).extractLsb' 0 32).setWidth 64) ∧
      Gives (.ldS8 d a imm) t d (((s.getX r).extractLsb' 0 8).signExtend 64)

/-- LoadsFromTheWindow, StoresToTheWindow, WindowStoreFrame and LoadAfterStore, stated above. -/
def Obligations.WindowAccesses : Prop :=
  LoadsFromTheWindow ∧ StoresToTheWindow ∧ WindowStoreFrame ∧ LoadAfterStore

/-- R71: a load whose checks or whose data fail traps precisely with the cause of the step, KTVAL being the virtual
address; one that succeeds, wherever its line is, writes X[d]. `loadAt` is the access of R71 at the head's address. -/
def Sys2Proof.Spec.LoadOutcomes : Prop :=
  ∀ (s u : State) (d a : Reg) (imm : BitVec 11) (v c : Nat) (i : Instr) (t : MTy),
    (i, t) ∈ [(Instr.ldS8 d a imm, MTy.s8), (.ldS16 d a imm, .s16), (.ldS32 d a imm, .s32), (.ldS64 d a imm, .s64),
      (.ldZ8 d a imm, .z8), (.ldZ16 d a imm, .z16), (.ldZ32 d a imm, .z32), (.ldZ64 d a imm, .z64)] →
    Ready s [.x a] [.x d] →
    let va := s.getX a + imm.signExtend 64
    let got := s.loadAt s.headWho { kind := .load, control := t.size = 8 } va t.size t.size (.load t) d
    (got = .ok (.data v) u → exec i s = .next ((u.setX d (t.conv v)).advance)) ∧
      (got = .ok (.fail c) u → exec i s = .next (u.trap c va))

/-- R71 to R73, R75, R162 to R166: what a store, an AMO, a CAS or a RED does at its head once its access has been made, wherever
its line is (`storeAt`, `resolve` and `atomTarget` are the access of R71 at the head's address): one that has been performed
completes, an atomic with the old value in X[d]; a plain store and a RED trap where a check of steps 1 to 3 fails, and record a
failure of steps 4 and 5; ST.REL, AMO and CAS trap precisely in either case. -/
def Sys2Proof.Spec.StoreOutcomes : Prop :=
  ∀ (s u w : State) (d r a b : Reg) (imm : BitVec 11) (k : BitVec 2) (z : MSize) (sc : Scope) (w64 acq rel : Bool) (n v c : Nat)
    (tg : Target) (op : AOp) (i j : Instr), Settled s →
    let va := s.getX a + imm.signExtend 64
    let vx := s.getX a + (s.getX b <<< k.toNat)
    let at_ := s.getX a
    let legal := ∀ c, sc = .rect c → rectLegal (s.getX c) = true
    let got := fun (x : Word) (m : Nat) (rk : RKind) =>
      s.storeAt s.headWho { kind := .store, control := m = 8 } x m (leBytes m (s.getX r).toNat) rk
    let plain := fun (h : Instr) (x : Word) (m : Nat) =>
      (∀ g, got x m .store = .ok (.fail c, g) u → exec h s = .next (u.trap c x)) ∧
      ((∀ y, tg ≠ .fail y) →
        (got x m .store = .ok (tg, .data v) u → exec h s = .next u.advance) ∧
        (got x m .store = .ok (tg, .fail c) u → exec h s = .next (u.updC (fun y => y.recordStore x c)).advance))
    let len := if w64 then 8 else 4
    let form : Form := { kind := .atomic, device := false }
    let old := if w64 then BitVec.ofNat 64 v else (BitVec.ofNat 32 v).signExtend 64
    let pair := fun (x y : Word) => x.toNat + y.toNat * 2 ^ 64
    ((n, i) ∈ [(1, Instr.stS8 r a imm), (2, .stS16 r a imm), (4, .stS32 r a imm), (8, .stS64 r a imm)] →
      Ready s [.x r, .x a] [] → plain i va n) ∧
    (Ready s [.x r, .x a, .x b] [] → plain (.stx r a b k z) vx (sizeBytes z)) ∧
    (Ready s (.x r :: .x a :: scopeReads sc) [] → s.c.storeFail = none → legal →
      (got at_ (sizeBytes z) .plain = .ok (tg, .data v) u → exec (.stRel r a z sc) s = .next u.advance) ∧
      (got at_ (sizeBytes z) .plain = .ok (tg, .fail c) u → exec (.stRel r a z sc) s = .next (u.trap c at_))) ∧
    (legal → s.resolve s.headWho form at_ len len = .ok tg u →
      (op, i, j) ∈ [(AOp.add, Instr.amoAdd d a b w64 acq rel sc, Instr.redAdd a b w64 rel sc),
        (.and, .amoAnd d a b w64 acq rel sc, .redAnd a b w64 rel sc), (.or, .amoOr d a b w64 acq rel sc, .redOr a b w64 rel sc),
        (.xor, .amoXor d a b w64 acq rel sc, .redXor a b w64 rel sc), (.min, .amoMin d a b w64 acq rel sc, .redMin a b w64 rel sc),
        (.max, .amoMax d a b w64 acq rel sc, .redMax a b w64 rel sc),
        (.minZ, .amoMinZ d a b w64 acq rel sc, .redMinZ a b w64 rel sc),
        (.maxZ, .amoMaxZ d a b w64 acq rel sc, .redMaxZ a b w64 rel sc),
        (.swap, .amoSwap d a b w64 acq rel sc, .redAdd a b w64 rel sc)] →
      let act := AtomOp.amo op w64 ((u.getX b).toNat % 2 ^ (8 * len))
      (Ready s (.x a :: .x b :: scopeReads sc) [.x d] →
        (u.atomTarget u.headWho tg act (.atomic w64) d at_ = .ok (.data v) w → exec i s = .next ((w.setX d old).advance)) ∧
        (u.atomTarget u.headWho tg act (.atomic w64) d at_ = .ok (.fail c) w → exec i s = .next (w.trap c at_))) ∧
      (op ≠ .swap → Ready s (.x a :: .x b :: scopeReads sc) [] →
        (tg = .fail c → exec j s = .next (u.trap c at_)) ∧
        ((∀ y, tg ≠ .fail y) →
          (u.atomTarget u.headWho tg act .store 0 at_ = .ok (.data v) w → exec j s = .next w.advance) ∧
          (u.atomTarget u.headWho tg act .store 0 at_ = .ok (.fail c) w →
            exec j s = .next (w.updC (fun y => y.recordStore at_ c)).advance)))) ∧
    (legal → s.resolve s.headWho form at_ len len = .ok tg u → Ready s (.x d :: .x a :: .x b :: scopeReads sc) [.x d] →
      let act := AtomOp.cas w64 (u.getX d).toNat (u.getX b).toNat
      (u.atomTarget u.headWho tg act (.atomic w64) d at_ = .ok (.data v) w →
        exec (.cas d a b w64 acq rel sc) s = .next ((w.setX d old).advance)) ∧
      (u.atomTarget u.headWho tg act (.atomic w64) d at_ = .ok (.fail c) w →
        exec (.cas d a b w64 acq rel sc) s = .next (w.trap c at_))) ∧
    (legal → s.resolve s.headWho form at_ 16 16 = .ok tg u →
      Ready s (.x d :: .x (d + 1) :: .x a :: .x b :: .x (b + 1) :: scopeReads sc) [.x d, .x (d + 1)] →
      let act := AtomOp.cas16 (pair (u.getX d) (u.getX (d + 1))) (pair (u.getX b) (u.getX (b + 1)))
      (u.atomTarget u.headWho tg act .cas16 d at_ = .ok (.data v) w → exec (.cas16 d a b acq rel sc) s =
        .next (((w.setX d (BitVec.ofNat 64 v)).setX (d + 1) (BitVec.ofNat 64 (v / 2 ^ 64))).advance)) ∧
      (u.atomTarget u.headWho tg act .cas16 d at_ = .ok (.fail c) w →
        exec (.cas16 d a b acq rel sc) s = .next (w.trap c at_)))

/-- R71 step 1: an address that is not a multiple of the access size traps with cause 0x04, KTVAL being the virtual
address, and the head has no other effect: the loads and stores of OP 0x18 to 0x1A, LDX, STX, LD.ACQ, ST.REL, the full-empty
forms, AMO, RED, CAS and CAS16. (One that may change memory first waits for the thread's earlier accesses.) -/
def Sys2Proof.Spec.MisalignedAccesses : Prop :=
  ∀ (s : State) (d a b : Reg) (imm : BitVec 11) (k : BitVec 2) (t : MTy) (z : MSize) (w64 acq rel : Bool) (sc : Scope) (op j : Instr),
    let va := s.getX a + imm.signExtend 64
    let vf := s.getX a + 8 * imm.signExtend 64
    let vx := s.getX a + (s.getX b <<< k.toNat)
    let at_ := s.getX a
    let legal := ∀ c, sc = .rect c → rectLegal (s.getX c) = true
    (vx.toNat % t.size ≠ 0 → Ready s [.x a, .x b] [.x d] → TrapsWith (.ldx d a b k t) s 0x04 vx) ∧
    (at_.toNat % t.size ≠ 0 → Ready s (.x a :: scopeReads sc) [.x d] → legal → TrapsWith (.ldAcq d a t sc) s 0x04 at_) ∧
    (Settled s →
      (vx.toNat % sizeBytes z ≠ 0 → Ready s [.x d, .x a, .x b] [] → TrapsWith (.stx d a b k z) s 0x04 vx) ∧
      (at_.toNat % sizeBytes z ≠ 0 → Ready s (.x d :: .x a :: scopeReads sc) [] → s.c.storeFail = none → legal →
        TrapsWith (.stRel d a z sc) s 0x04 at_) ∧
      (at_.toNat % (if w64 then 8 else 4) ≠ 0 → legal →
        (op ∈ [Instr.amoAdd d a b w64 acq rel sc, .amoAnd d a b w64 acq rel sc, .amoOr d a b w64 acq rel sc,
            .amoXor d a b w64 acq rel sc, .amoSwap d a b w64 acq rel sc, .amoMin d a b w64 acq rel sc,
            .amoMax d a b w64 acq rel sc, .amoMinZ d a b w64 acq rel sc, .amoMaxZ d a b w64 acq rel sc] →
          Ready s (.x a :: .x b :: scopeReads sc) [.x d] → TrapsWith op s 0x04 at_) ∧
        (j ∈ [Instr.redAdd a b w64 rel sc, .redAnd a b w64 rel sc, .redOr a b w64 rel sc, .redXor a b w64 rel sc,
            .redMin a b w64 rel sc, .redMax a b w64 rel sc, .redMinZ a b w64 rel sc, .redMaxZ a b w64 rel sc] →
          Ready s (.x a :: .x b :: scopeReads sc) [] → TrapsWith j s 0x04 at_) ∧
        (Ready s (.x d :: .x a :: .x b :: scopeReads sc) [.x d] → TrapsWith (.cas d a b w64 acq rel sc) s 0x04 at_)) ∧
      (at_.toNat % 16 ≠ 0 → legal → Ready s (.x d :: .x (d + 1) :: .x a :: .x b :: .x (b + 1) :: scopeReads sc) [.x d, .x (d + 1)] →
        TrapsWith (.cas16 d a b acq rel sc) s 0x04 at_)) ∧
    (Ready s [.x a] [.x d] →
      (va.toNat % 2 ≠ 0 → TrapsWith (.ldS16 d a imm) s 0x04 va ∧ TrapsWith (.ldZ16 d a imm) s 0x04 va) ∧
      (va.toNat % 4 ≠ 0 → TrapsWith (.ldS32 d a imm) s 0x04 va ∧ TrapsWith (.ldZ32 d a imm) s 0x04 va) ∧
      (va.toNat % 8 ≠ 0 → TrapsWith (.ldS64 d a imm) s 0x04 va ∧ TrapsWith (.ldZ64 d a imm) s 0x04 va)) ∧
    (Settled s → Ready s [.x b, .x a] [] →
      (va.toNat % 2 ≠ 0 → TrapsWith (.stS16 b a imm) s 0x04 va) ∧
      (va.toNat % 4 ≠ 0 → TrapsWith (.stS32 b a imm) s 0x04 va) ∧
      (va.toNat % 8 ≠ 0 → TrapsWith (.stS64 b a imm) s 0x04 va)) ∧
    (vf.toNat % 8 ≠ 0 →
      (Ready s [.x a] [.x d] →
        TrapsWith (.ldff d a imm) s 0x04 vf ∧ TrapsWith (.ldfe d a imm) s 0x04 vf ∧ TrapsWith (.ferd d a imm) s 0x04 vf) ∧
      (Settled s → Ready s [.x b, .x a] [] → s.c.storeFail = none →
        TrapsWith (.stef b a imm) s 0x04 vf ∧ TrapsWith (.stsf b a imm) s 0x04 vf ∧ TrapsWith (.stse b a imm) s 0x04 vf))

/-- R72: a plain store whose failure is recorded completes; the earliest failure in program order is kept, and ST.REL, STEF,
STSF, STSE, TEND and a FENCE with st then trap with its cause and address, which clears the record. -/
def Sys2Proof.Spec.RecordedStoreFailures : Prop :=
  ∀ (s u : State) (r a b : Reg) (imm : BitVec 11) (k : BitVec 2) (z : MSize) (c n : Nat) (tg : Target) (old : Option (Word × Nat))
    (i : Instr), Settled s →
    let va := s.getX a + imm.signExtend 64
    let vx := s.getX a + (s.getX b <<< k.toNat)
    let fails := fun (x : Word) (m : Nat) => (∀ y, tg ≠ .fail y) ∧
      s.storeAt s.headWho { kind := .store, control := m = 8 } x m (leBytes m (s.getX r).toNat) .store =
        .ok (tg, .fail c) u ∧ u.c.storeFail = old
    let recorded := fun (h : Instr) (x : Word) => ∃ t, exec h s = .next t ∧
      t = (u.updC (fun y => y.recordStore x c)).advance ∧ t.c.storeFail = some (old.getD (x, c))
    ((n, i) ∈ [(1, Instr.stS8 r a imm), (2, .stS16 r a imm), (4, .stS32 r a imm), (8, .stS64 r a imm)] →
      Ready s [.x r, .x a] [] → fails va n → recorded i va) ∧
    (Ready s [.x r, .x a, .x b] [] → fails vx (sizeBytes z) → recorded (.stx r a b k z) vx) ∧
    (s.c.storeFail = some (va, c) →
      let t := (s.updC (fun x => { x with storeFail := none })).trap c va
      exec .tend s = .next t ∧ t.c.storeFail = none ∧
      (Ready s [.x r, .x a] [] → ∀ ty disp,
        exec (.stRel r a ty .core) s = .next t ∧ exec (.stef r a disp) s = .next t ∧
        exec (.stsf r a disp) s = .next t ∧ exec (.stse r a disp) s = .next t) ∧
      (Ready s [] [] → ∀ ld eng, exec (.fence .core ld true eng) s = .next t))

/-- R74, R86, R147, R151, R153, R156, R160, R167, R168, R172, R173: a store, an atomic, a release, TEND and a FENCE of a thread
wait while an access of its earlier heads that an interrupt left under way is still to be performed. -/
def Obligations.EarlierAccessesFirst : Prop :=
  ∀ (s u : State) (d r a b : Reg) (imm : BitVec 11) (k : BitVec 2) (z : MSize) (sc : Scope) (w64 acq rel cube ld eng : Bool) (v : Nat)
    (img : List Word) (g : BitVec 4) (i : Instr),
    let waits := fun (h : Instr) => exec h s = .next (s.stall { kind := .own })
    let legal := ∀ c, sc = .rect c → rectLegal (s.getX c) = true
    (s.c.ownPending = true →
      (i ∈ [Instr.stS8 r a imm, .stS16 r a imm, .stS32 r a imm, .stS64 r a imm] → Ready s [.x r, .x a] [] → waits i) ∧
      (Ready s [.x r, .x a, .x b] [] → waits (.stx r a b k z)) ∧
      (Ready s (.x r :: .x a :: scopeReads sc) [] → waits (.stRel r a z sc)) ∧
      (i ∈ [Instr.stef r a imm, .stsf r a imm, .stse r a imm] → Ready s [.x r, .x a] [] →
        exec i s = .next (s.limitWait (s.stall { kind := .own }))) ∧
      (Ready s [.x a] [] → waits (.wb a imm)) ∧ waits .tend ∧
      (legal → i ∈ [Instr.amoAdd d a b w64 acq rel sc, .amoAnd d a b w64 acq rel sc, .amoOr d a b w64 acq rel sc,
          .amoXor d a b w64 acq rel sc, .amoSwap d a b w64 acq rel sc, .amoMin d a b w64 acq rel sc,
          .amoMax d a b w64 acq rel sc, .amoMinZ d a b w64 acq rel sc, .amoMaxZ d a b w64 acq rel sc] →
        Ready s (.x a :: .x b :: scopeReads sc) [.x d] → waits i) ∧
      (legal → i ∈ [Instr.redAdd a b w64 rel sc, .redAnd a b w64 rel sc, .redOr a b w64 rel sc, .redXor a b w64 rel sc,
          .redMin a b w64 rel sc, .redMax a b w64 rel sc, .redMinZ a b w64 rel sc, .redMaxZ a b w64 rel sc] →
        Ready s (.x a :: .x b :: scopeReads sc) [] → waits i) ∧
      (legal → Ready s (.x d :: .x a :: .x b :: scopeReads sc) [.x d] → waits (.cas d a b w64 acq rel sc)) ∧
      (legal → Ready s (.x d :: .x (d + 1) :: .x a :: .x b :: .x (b + 1) :: scopeReads sc) [.x d, .x (d + 1)] →
        waits (.cas16 d a b acq rel sc)) ∧
      (Ready s (scopeReads sc) [] → waits (.fence sc ld true eng)) ∧
      (Ready s (scopeReads sc) [] → legal →
        exec (.fence sc true false eng) s = .next (s.stall { kind := .fence, what := if eng then 1 else 0 })) ∧
      (Ready s [.x a, .x b] [.x d] →
        (cube = false ∨ (s.partOfSem (wbits (s.getX a) 7 0)).isSome = true ∧
          s.partOfSem (wbits (s.getX a) 7 0) = s.partOfAsid s.c.asid) → waits (.semadd cube d a b)) ∧
      (Ready s [] [.x d] → waits (.arrive d g) ∧ waits (.waitb d g)) ∧
      (Ready s [.x a, .x b] [] → s.farWaits = false →
        waits (.icinv a b) ∧ (1 ≤ s.level → rectLegal (s.getX b) = true → waits (.tlbinv a b)))) ∧
    (s.image64 s.headWho (s.getX b) = .ok (.data v, img) u → u.c.ownPending = true → Ready s [.x a, .x b] [.x d] →
      exec (.lqpush d a b) s = .next (u.stall { kind := .own }) ∧
      (u.peerAllows (gcidCube (wbits (u.getX a) 27 0)) (u.partOfAsid u.c.asid) u.level = true →
        exec (.send d a b) s = .next (u.stall { kind := .own }) ∧
        ((u.core u.cur.core).bounce.length < 4 → exec (.spawn d a b) s = .next (u.stall { kind := .own }))))

/-- R77: the full-empty forms once their access has been performed: LDFF, LDFE and FERD write X[d], the others write no
register. `atomTarget` is the access at the word's home. -/
def Sys2Proof.Spec.FullEmptyCompletion : Prop :=
  ∀ (s u w : State) (d a b : Reg) (disp : BitVec 11) (tg : Target) (v : Nat),
    let va := s.getX a + 8 * disp.signExtend 64
    let ld : Form := { kind := .load, device := false, window := false, fe := true }
    let st : Form := { kind := .store, device := false, window := false, fe := true }
    (Ready s [.x a] [.x d] → s.resolve s.headWho ld va 8 8 = .ok tg u →
      ∀ f i, (f, i) ∈ [(FeOp.ldff, Instr.ldff d a disp), (.ldfe, .ldfe d a disp), (.ferd, .ferd d a disp)] →
        u.atomTarget u.headWho tg (.fe f 0) (.load .z64) d va = .ok (.data v) w →
        exec i s = .next ((w.setX d (BitVec.ofNat 64 v)).advance)) ∧
    (Settled s → Ready s [.x b, .x a] [] → s.c.storeFail = none → s.resolve s.headWho st va 8 8 = .ok tg u →
      ∀ f i, (f, i) ∈ [(FeOp.stef, Instr.stef b a disp), (.stsf, .stsf b a disp), (.stse, .stse b a disp)] →
        u.atomTarget u.headWho tg (.fe f (s.getX b).toNat) .plain 0 va = .ok (.data v) w →
        exec i s = .next w.advance)

/-- R77, R79: a full-empty access at its home. LDFF and LDFE wait for a full bit, STEF for an empty one, also while
others have waited for the word before it; it waits at the back of the list, or at its place if it is there already. A
performed one has left the list, and leaves word and bit as the table says. -/
def Sys2Proof.Spec.FullEmptyAtHome : Prop :=
  ∀ (s : State) (m : Msg) (f : FeOp) (y : Nat), y < 2 ^ 64 →
    let l := (s.tile (homeTile m.la)).fe
    let there := l.any (fun w => w.msg.src = m.src) = true
    let before := (l.takeWhile (fun w => w.msg.src != m.src)).any (fun w => w.la / 8 = m.la / 8) = true
    let blocked := (f = .ldff ∨ f = .ldfe) ∧ (s.feBit m.la = false ∨ before) ∨ f = .stef ∧ (s.feBit m.la = true ∨ before)
    (blocked → there ∨ l.length < 1024 → ∃ t, s.doFe m f y = .waits t ∧ t.dram = s.dram ∧ t.fe = s.fe ∧
      (there → (t.tile (homeTile m.la)).fe.map FeWait.msg = l.map FeWait.msg) ∧
      (¬there → (t.tile (homeTile m.la)).fe = l ++ [{ la := m.la, msg := m }])) ∧
    (¬blocked → ∃ v t, s.doFe m f y = .value v t ∧
      (t.tile (homeTile m.la)).fe = l.filter (fun w => w.msg.src != m.src) ∧
      v = (if f = .ferd then (if s.feBit m.la then 1 else 0) else leNat (s.dramRead m.la 8)) ∧
      leNat (t.dramRead m.la 8) = (if f = .stef ∨ f = .stsf ∨ f = .stse then y else leNat (s.dramRead m.la 8)) ∧
      t.feBit m.la = (if f = .ldfe ∨ f = .stse then false else if f = .stef ∨ f = .stsf then true else s.feBit m.la) ∧
      ∀ a, a < m.la ∨ m.la + 8 ≤ a → mget 0 t.dram a = mget 0 s.dram a)

/-- FullEmptyCompletion and FullEmptyAtHome, stated above. -/
def Obligations.FullEmptyAccesses : Prop :=
  FullEmptyCompletion ∧ FullEmptyAtHome

/-- R78, R84, R82: in the local window a full-empty access and DROP trap with cause 0x08, and PREF, PREF.w and WB
complete with no action. -/
def Sys2Proof.Spec.WindowRefusesTheseForms : Prop :=
  ∀ (s : State) (d a b : Reg) (disp : BitVec 11),
    let va := s.getX a + disp.signExtend 64
    let vf := s.getX a + 8 * disp.signExtend 64
    (inWindow vf = true → vf.toNat % 8 = 0 →
      (Ready s [.x a] [.x d] → TrapsWith (.ldff d a disp) s 0x08 vf ∧ TrapsWith (.ldfe d a disp) s 0x08 vf ∧
        TrapsWith (.ferd d a disp) s 0x08 vf) ∧
      (Settled s → Ready s [.x b, .x a] [] → s.c.storeFail = none →
        TrapsWith (.stef b a disp) s 0x08 vf ∧ TrapsWith (.stsf b a disp) s 0x08 vf ∧
        TrapsWith (.stse b a disp) s 0x08 vf)) ∧
    (Ready s [.x a] [] → inWindow va = true →
      TrapsWith (.drop a disp) s 0x08 va ∧ exec (.pref a disp) s = .next s.advance ∧
        exec (.prefW a disp) s = .next s.advance ∧
        (WindowAccess s va 1 → Settled s → exec (.wb a disp) s = .next s.advance))

/-- R84, R71: DROP of a line whose home has performed it completes, and one that the home refuses traps precisely. -/
def Sys2Proof.Spec.DropOutcomes : Prop :=
  ∀ (s u w : State) (a : Reg) (imm : BitVec 11) (h : Home) (gpa type c : Nat) (r : AccRes),
    let va := s.getX a + imm.signExtend 64
    let f : Form := { kind := .store, device := false, window := false }
    let ask := u.request u.headWho .plain 0 va (u.numberers u.headWho type) (fun own t1 =>
      let m := accMsg u.headWho t1 { h with la := h.la / 64 * 64 } (gpa / 64 * 64) 64 type own
      if t1.bypasses u.headWho type then t1.uncached .dropr m else t1.cached u.headWho .dropl m)
    Ready s [.x a] [] → s.resolve s.headWho f va 1 1 = .ok (.line h gpa type) u → ask = .ok r w →
      (r = .data 0 → exec (.drop a imm) s = .next w.advance) ∧ (r = .fail c → exec (.drop a imm) s = .next (w.trap c va))

/-- LoadOutcomes, StoreOutcomes, MisalignedAccesses, RecordedStoreFailures, WindowRefusesTheseForms and DropOutcomes, stated above. -/
def Obligations.AccessOutcomes : Prop :=
  LoadOutcomes ∧ StoreOutcomes ∧ MisalignedAccesses ∧ RecordedStoreFailures ∧ WindowRefusesTheseForms ∧ DropOutcomes

/-! ## Atomics -/

/-- R163: the functions of AMO and RED on doublewords and words. -/
def Sys2Proof.Spec.AtomicFunctions : Prop :=
  ∀ (m y : Word) (m4 y4 : BitVec 32),
    let f := fun (op : AOp) => BitVec.ofNat 64 (op.apply 64 m.toNat y.toNat)
    let g := fun (op : AOp) => BitVec.ofNat 32 (op.apply 32 m4.toNat y4.toNat)
    f .add = m + y ∧ f .and = m &&& y ∧ f .or = m ||| y ∧ f .xor = m ^^^ y ∧ f .swap = y ∧
    f .min = (if m.toInt ≤ y.toInt then m else y) ∧ f .max = (if m.toInt ≤ y.toInt then y else m) ∧
    f .minZ = (if m.toNat ≤ y.toNat then m else y) ∧ f .maxZ = (if m.toNat ≤ y.toNat then y else m) ∧
    g .add = m4 + y4 ∧ g .and = m4 &&& y4 ∧ g .or = m4 ||| y4 ∧ g .xor = m4 ^^^ y4 ∧ g .swap = y4 ∧
    g .min = (if m4.toInt ≤ y4.toInt then m4 else y4) ∧ g .max = (if m4.toInt ≤ y4.toInt then y4 else m4) ∧
    g .minZ = (if m4.toNat ≤ y4.toNat then m4 else y4) ∧ g .maxZ = (if m4.toNat ≤ y4.toNat then y4 else m4)

/-- R162, R163, R166: AMO and RED in the local window are performed at the cluster interface: AMO returns the old word
(a 32-bit one sign-extended) and both leave the new one. -/
def Sys2Proof.Spec.AtomicsInTheWindow : Prop :=
  ∀ (s : State) (d a b : Reg) (w64 acq rel : Bool) (sc : Scope) (op : AOp) (i j : Instr),
    (op, i, j) ∈ [(AOp.add, Instr.amoAdd d a b w64 acq rel sc, Instr.redAdd a b w64 rel sc),
      (.and, .amoAnd d a b w64 acq rel sc, .redAnd a b w64 rel sc), (.or, .amoOr d a b w64 acq rel sc, .redOr a b w64 rel sc),
      (.xor, .amoXor d a b w64 acq rel sc, .redXor a b w64 rel sc), (.min, .amoMin d a b w64 acq rel sc, .redMin a b w64 rel sc),
      (.max, .amoMax d a b w64 acq rel sc, .redMax a b w64 rel sc),
      (.minZ, .amoMinZ d a b w64 acq rel sc, .redMinZ a b w64 rel sc),
      (.maxZ, .amoMaxZ d a b w64 acq rel sc, .redMaxZ a b w64 rel sc)] →
    let va := s.getX a
    let n := if w64 then 8 else 4
    let old := windowValue s va n
    let new := op.apply (8 * n) old ((s.getX b).toNat % 2 ^ (8 * n))
    Settled s → (∀ c, sc = .rect c → rectLegal (s.getX c) = true) → WindowAccess s va n → GoodWords s va n →
      (Ready s (.x a :: .x b :: scopeReads sc) [.x d] →
        exec i s = .next (((windowStored s va n new).setX d
          (if w64 then BitVec.ofNat 64 old else (BitVec.ofNat 32 old).signExtend 64)).advance)) ∧
      (Ready s (.x a :: .x b :: scopeReads sc) [] → exec j s = .next (windowStored s va n new).advance)

/-- R163, R165: AMO.SWAP exchanges; CAS and CAS16 write the new value only where the old one equals the expected one,
and give the old one in either case. -/
def Sys2Proof.Spec.SwapAndCompare : Prop :=
  ∀ (s : State) (d a b : Reg) (w64 acq rel : Bool) (sc : Scope),
    let va := s.getX a
    let n := if w64 then 8 else 4
    let old := windowValue s va n
    let old16 := windowValue s va 16
    let low := fun (v : Word) => v.toNat % 2 ^ (8 * n)
    let pair := fun (x y : Word) => x.toNat + y.toNat * 2 ^ 64
    let ret := fun (t : State) => t.setX d (if w64 then BitVec.ofNat 64 old else (BitVec.ofNat 32 old).signExtend 64)
    Settled s → (∀ c, sc = .rect c → rectLegal (s.getX c) = true) →
      (WindowAccess s va n → GoodWords s va n →
        (Ready s (.x a :: .x b :: scopeReads sc) [.x d] →
          exec (.amoSwap d a b w64 acq rel sc) s = .next (ret (windowStored s va n (low (s.getX b)))).advance) ∧
        (Ready s (.x d :: .x a :: .x b :: scopeReads sc) [.x d] →
          exec (.cas d a b w64 acq rel sc) s = .next
            (ret (if old = low (s.getX d) then windowStored s va n (low (s.getX b)) else s)).advance)) ∧
      (WindowAccess s va 16 → GoodWords s va 16 →
        Ready s (.x d :: .x (d + 1) :: .x a :: .x b :: .x (b + 1) :: scopeReads sc) [.x d, .x (d + 1)] →
          exec (.cas16 d a b acq rel sc) s = .next
            ((((if old16 = pair (s.getX d) (s.getX (d + 1))
                then windowStored s va 16 (pair (s.getX b) (s.getX (b + 1))) else s).setX d
              (BitVec.ofNat 64 old16)).setX (d + 1) (BitVec.ofNat 64 (old16 / 2 ^ 64))).advance))

/-- R162, R165: an AMO or RED, a CAS and a CAS16 at its home reads the old value, writes the new one (a CAS only where the old
one is the expected one) and answers the old one, as one action; no other byte of DRAM and no full-empty bit changes. -/
def Sys2Proof.Spec.AtomicsAtHome : Prop :=
  ∀ (s : State) (m : Msg) (op : AOp) (w64 : Bool) (x y : Nat),
    let does := fun (n new : Nat) => ∃ t, s.doAtomic m = .value (leNat (s.dramRead m.la n)) t ∧
      leNat (t.dramRead m.la n) = new % 2 ^ (8 * n) ∧
      (∀ a, a < m.la ∨ m.la + n ≤ a → mget 0 t.dram a = mget 0 s.dram a) ∧ t.fe = s.fe
    let n := if w64 then 8 else 4
    let old := fun (k : Nat) => leNat (s.dramRead m.la k)
    (m.op = some (.amo op w64 y) → does n (op.apply (8 * n) (old n) y)) ∧
    (m.op = some (.cas w64 x y) → does n (if old n = x % 2 ^ (8 * n) then y else old n)) ∧
    (m.op = some (.cas16 x y) → does 16 (if old 16 = x then y else old 16))

/-- AtomicFunctions, AtomicsInTheWindow, SwapAndCompare and AtomicsAtHome, stated above. -/
def Obligations.Atomics : Prop :=
  AtomicFunctions ∧ AtomicsInTheWindow ∧ SwapAndCompare ∧ AtomicsAtHome

/-- R167: a FENCE completes and changes nothing but the PC once the thread's earlier accesses are performed; one with eng
waits while an engine command of the thread is not final. -/
def Sys2Proof.Spec.Fences : Prop :=
  ∀ (s : State) (sc : Scope) (ld st eng : Bool), Ready s (scopeReads sc) [] →
    (st = true → s.c.storeFail = none) → (∀ c, sc = .rect c → rectLegal (s.getX c) = true) → Settled s →
    (eng = false ∨ s.engBusy s.cur.core s.cur.ctx = false → exec (.fence sc ld st eng) s = .next s.advance) ∧
    (eng = true → s.engBusy s.cur.core s.cur.ctx = true → exec (.fence sc ld st eng) s =
      .next (s.stall { kind := .fence, what := 1 }))

/-! ## Semaphores and barriers -/

/-- R156 to R158: what the semaphore instructions do on semaphore X[a][7:0] of a space: SEMRD reads; SEMTRY subtracts X[b] and
gives 1 where the value reaches it, and gives 0 and changes nothing otherwise; SEMWAIT gives the value once it reaches X[b] and
waits before; SEMADD adds, releases the waiters and gives the old value; a sum above 2^64 - 1 leaves 2^64 - 1 and is recorded in
SEMERR; a sum below zero traps with cause 0x0B and is not performed. -/
def Sys2Proof.Spec.SemaphoreActs (s : State) (cube : Bool) (sp : Space) (d a b : Reg) : Prop :=
  let n := ((s.getX a).extractLsb' 0 8).toNat
  let S := s.sem sp n
  let v := s.getX b
  let added := Host.Outcome.next ((((s.setSem sp n (S + v)).semRelease sp n).setX d S).advance)
  let full := s.setSem sp n (BitVec.allOnes 64)
  let err := fun (t : State) => (t.cluster s.clu).semerr
  let low := if cube then 16 else 8
  Gives (.semrd cube d a b) s d S ∧
  (v.toNat ≤ S.toNat →
    exec (.semtry cube d a b) s = .next (((s.setSem sp n (S - v)).setX d 1).advance) ∧
    Gives (.semwait cube d a b) s d S) ∧
  (S.toNat < v.toNat →
    Gives (.semtry cube d a b) s d 0 ∧
    exec (.semwait cube d a b) s = .next ((s.setSemWaiters sp (s.semWaiters sp ++ [(n, s.cur.core, s.cur.ctx)])).stall
      { kind := if cube then .cubeSem else .clusterSem, what := n, thr := v.toNat, d := d })) ∧
  (Settled s →
    (0 ≤ v.toInt → S.toNat + v.toNat < 2 ^ 64 → exec (.semadd cube d a b) s = added) ∧
    (v.toInt < 0 → 0 ≤ S.toNat + v.toInt → exec (.semadd cube d a b) s = added) ∧
    (S.toNat + v.toInt < 0 → TrapsWith (.semadd cube d a b) s 0x0B (BitVec.ofNat 64 ((if cube then 256 else 0) + n))) ∧
    (0 ≤ v.toInt → 2 ^ 64 ≤ S.toNat + v.toNat →
      exec (.semadd cube d a b) s = .next ((((full.semSaturated sp n s.cur.core).semRelease sp n).setX d S).advance) ∧
      full.sem sp n = BitVec.allOnes 64 ∧
      (err (full.semSaturated sp n s.cur.core)).getLsbD (if cube then 25 else 24) = true ∧
      ((err (full.semSaturated sp n s.cur.core)).extractLsb' low 8).toNat = n))

/-- R156, R157, R158: the semaphore instructions on cluster semaphore X[a][7:0] of the issuing core's cluster. -/
def Sys2Proof.Spec.ClusterSemaphores : Prop :=
  ∀ (s : State) (d a b : Reg), Ready s [.x a, .x b] [.x d] → SemaphoreActs s false (.cluster s.clu) d a b

/-- R155: a cube semaphore of another partition than the context's traps with cause 0x08; one of its own acts as R156 to R158
say. -/
def Sys2Proof.Spec.CubeSemaphores : Prop :=
  ∀ (s : State) (d a b : Reg), Ready s [.x a, .x b] [.x d] →
    let n := ((s.getX a).extractLsb' 0 8).toNat
    (s.partOfSem n = none ∨ s.partOfSem n ≠ s.partOfAsid s.c.asid →
      TrapsWith (.semadd true d a b) s 0x08 (s.getX a) ∧ TrapsWith (.semwait true d a b) s 0x08 (s.getX a) ∧
      TrapsWith (.semtry true d a b) s 0x08 (s.getX a) ∧ TrapsWith (.semrd true d a b) s 0x08 (s.getX a)) ∧
    (s.partOfSem n = s.partOfAsid s.c.asid → (s.partOfSem n).isSome = true → SemaphoreActs s true .cube d a b)

/-- R157: a semaphore read after an addition gives the sum, and no other semaphore of the space changes. -/
def Sys2Proof.Spec.SemaphoreReadAfterWrite : Prop :=
  ∀ (s : State) (sp : Space) (n k : Nat) (v : Word),
    (s.setSem sp n v).sem sp n = v ∧ (k ≠ n → (s.setSem sp n v).sem sp k = s.sem sp k) ∧
      (s.setSem sp n v).lmem = s.lmem ∧ (s.setSem sp n v).dram = s.dram ∧ (s.setSem sp n v).ctxs = s.ctxs

/-- ClusterSemaphores, CubeSemaphores and SemaphoreReadAfterWrite, stated above. -/
def Obligations.Semaphores : Prop :=
  ClusterSemaphores ∧ CubeSemaphores ∧ SemaphoreReadAfterWrite

/-- R160: ARRIVE sets AR and J of the core's group and gives the old PH; WAITB gives PH once the phase is complete; BMEMB
replaces the membership word and gives the old one; BMISS gives a bit for each core of a cluster that has not arrived. That two
membership words name the same rectangle is the model's reading, `sameRect` (log entry 15). -/
def Sys2Proof.Spec.Barriers : Prop :=
  ∀ (s : State) (d a : Reg) (g : BitVec 4),
    let b := s.barrier s.cur.core g.toNat
    let w := s.getX a
    (Settled s → Ready s [] [.x d] →
      (b.ar = true → TrapsWith (.arrive d g) s 0x13 (g.setWidth 64)) ∧
      (b.ar = false →
        let t := ((s.setBarrier s.cur.core g.toNat { b with ar := true, j := true }).setX d (bit b.ph)).advance
        exec (.arrive d g) s = .next (if t.phaseDone t.cur.core g.toNat then
          t.post .barrierPhaseComplete { x := t.cur.core, y := g.toNat } else t)) ∧
      (b.j = false → TrapsWith (.waitb d g) s 0x13 (g.setWidth 64)) ∧
      (b.j = true → b.ar = false → Gives (.waitb d g) s d (bit b.ph)) ∧
      (b.j = true → b.ar = true →
        exec (.waitb d g) s = .next (s.stall { kind := .barrier, what := g.toNat, d := d }))) ∧
    (Ready s [.x a] [.x d] →
      (rectLegal w = false → TrapsWith (.bmemb d a g) s 0x0A w) ∧
      (rectLegal w = true → b.ar = true ∨ rectKind w = 2 ∨ rectHas w s.cur.core = false →
        TrapsWith (.bmemb d a g) s 0x13 (g.setWidth 64)) ∧
      (rectLegal w = true → b.ar = false → rectKind w ≠ 2 → rectHas w s.cur.core = true →
        exec (.bmemb d a g) s = .next
          (((s.setBarrier s.cur.core g.toNat { m := w, ar := false, ph := false, j := false }).setX d b.m).advance)) ∧
      ∃ v : Word, Gives (.bmiss d a g) s d v ∧ ∀ q, q < 64 →
        let n := coreAt (wbits w 9 0) q
        let bn := s.barrier n g.toNat
        v.getLsbD q = (decide (q < 16) && rectHas b.m n && (!sameRect bn.m b.m || !bn.ar)))

/-- R160: when every core of the rectangle of core `x` has arrived at group `y` under the same rectangle, AR is cleared
and PH toggled in every one of them; before that BARRIER_PHASE_COMPLETE changes nothing. (`phaseDone` compares rectangles by
`sameRect`, log entry 15.) -/
def Sys2Proof.Spec.BarrierPhase : Prop :=
  ∀ s : State,
    let g := s.arg.y
    let ms := rectCores (s.barrier s.arg.x g).m
    (s.phaseDone s.arg.x g = false → exec .barrierPhaseComplete s = .next s) ∧
    (s.phaseDone s.arg.x g = true → ms.Nodup → ∃ t, exec .barrierPhaseComplete s = .next t ∧
      (∀ n ∈ ms, t.barrier n g = { s.barrier n g with ar := false, ph := !(s.barrier n g).ph }) ∧
      (∀ n, n ∉ ms → t.barrier n g = s.barrier n g) ∧ t.lmem = s.lmem ∧ t.dram = s.dram ∧
      ((∀ e ∈ s.ctxs, e.2.wait = none) → t.ctxs = s.ctxs))

/-- Fences, Barriers and BarrierPhase, stated above. -/
def Obligations.FencesAndBarriers : Prop :=
  Fences ∧ Barriers ∧ BarrierPhase

/-! ## Tasks and messages -/

/-- R142, R145, R283: a spawn with a free bounce slot takes the next spawn number, keeps the packet in the slot, sends it,
and gives the number in X[d]; u is the state once the 64-byte image has been read. -/
def Sys2Proof.Spec.SpawnLeaves : Prop :=
  ∀ (s u : State) (d a b : Reg) (v : Nat) (img : List Word), Ready s [.x a, .x b] [.x d] →
    s.image64 s.headWho (s.getX b) = .ok (.data v, img) u →
    let core := u.cur.core
    let dest := wbits (u.getX a) 27 0
    let seq := (u.core core).spawnSeq
    let p : Packet := ⟨u.spawnWords img seq, dest, u.gcid core, .spawn, u.level⟩
    u.peerAllows (gcidCube dest) (u.partOfAsid u.c.asid) u.level = true → (u.core core).bounce.length < 4 → Settled u →
    (u.core core).seqLog.all (fun e => e.1 != seq || decide (e.2 + 2400000 ≤ u.now)) = true →
    ∃ t, exec (.spawn d a b) s = .next t ∧ t.c.pc = u.c.nextPc ∧
      t.getX d = (if d = 0 then 0 else BitVec.ofNat 64 seq) ∧
      (t.core core).bounce = (u.core core).bounce ++ [⟨p, false, u.serial, u.cur.ctx, u.c.uid, false⟩] ∧
      (t.core core).spawnSeq = (seq + 1) % 2 ^ 20 ∧
      (gcidCube dest = u.self → t.agenda = u.agenda ++ [.event .packetArrive { body := .packet p }]) ∧
      t.dram = u.dram ∧ t.lmem = u.lmem

/-- R144: SPAWNA sends its packet to the core that owns the data of its address, in the home tile of the line. -/
def Sys2Proof.Spec.SpawnaFollowsTheData : Prop :=
  ∀ (s u w : State) (d a b : Reg) (v gpa ty : Nat) (img : List Word) (h : Home), Ready s [.x a, .x b] [.x d] →
    s.image64 s.headWho (s.getX b) = .ok (.data v, img) u →
    u.resolve u.headWho { kind := .load, device := false, window := false } (u.getX a) 1 1 = .ok (.line h gpa ty) w →
    w.peerAllows h.cube (w.partOfAsid w.c.asid) w.level = true →
    exec (.spawna d a b) s =
      .next (w.spawnTo d img (h.cube * 16384 + ownerCore h.la) (.spawna (homeTile h.la)))

/-- R147: SEND sends its message and waits for the target's answer. -/
def Sys2Proof.Spec.SendLeaves : Prop :=
  ∀ (s u : State) (d a b : Reg) (v : Nat) (img : List Word), Ready s [.x a, .x b] [.x d] →
    s.image64 s.headWho (s.getX b) = .ok (.data v, img) u → u.level < 2 →
    let core := u.cur.core
    let dest := wbits (u.getX a) 27 0
    let seq := (u.core core).spawnSeq
    u.peerAllows (gcidCube dest) (u.partOfAsid u.c.asid) u.level = true → Settled u →
    (u.core core).seqLog.all (fun e => e.1 != seq || decide (e.2 + 2400000 ≤ u.now)) = true → gcidCube dest = u.self →
    ∃ t p w, exec (.send d a b) s = .next t ∧ t.agenda = u.agenda ++ [.event .sendMessageArrive { body := .packet p }] ∧
      p.dest = dest ∧ p.sender = u.gcid core ∧ p.words.head? = some (wd img 0) ∧ p.words.drop 2 = img.drop 2 ∧
      t.c.wait = some w ∧ w.kind = .send ∧ w.d = d ∧ t.c.pc = u.c.pc ∧ t.c.x = u.c.x ∧ t.c.st = .blocked

/-- R147: the answer of a SEND is written to X[d] of the context that waits, and its head completes; an answer that nothing
waits for is discarded. -/
def Sys2Proof.Spec.SendAnswered : Prop :=
  ∀ (s : State) (w : Wait),
    let core := s.arg.x
    let id := s.arg.y
    ((s.ctx core id).wait = some w → w.kind = .send → w.got = none → w.thr = s.arg.val.toNat →
      ∃ t, exec .sendAnswer s = .next t ∧ (t.ctx core id).getX w.d = (if w.d = 0 then 0 else BitVec.ofNat 64 s.arg.z) ∧
        (t.ctx core id).pc = w.next ∧ (t.ctx core id).wait = none) ∧
    ((s.ctx core id).wait = none → (s.ctx core id).hung = [] → exec .sendAnswer s = .next s)

/-- R149: RECV and RECV.try with a message for the context's ASID write its 64 bytes at X[a] in the window, take it off the
queue and give its kind and sender in X[d]; without one RECV.try gives 0. -/
def Sys2Proof.Spec.Receiving : Prop :=
  ∀ (s : State) (d a : Reg) (m : Message), Ready s [.x a] [.x d] →
    let va := s.getX a
    let win : Prop := va.toNat % 64 = 0 ∧ WindowAccess s va 64
    (va.toNat % 64 ≠ 0 → TrapsWith (.recv d a) s 0x04 va ∧ TrapsWith (.recvTry d a) s 0x04 va) ∧
    (win → (s.core s.cur.core).messages.find? (fun x => decide (x.asid = s.c.asid)) = none → Gives (.recvTry d a) s d 0) ∧
    (win → (s.core s.cur.core).messages.find? (fun x => decide (x.asid = s.c.asid)) = some m →
      let t := (((s.lmemWrite s.clu (winOff va) (wordBytes m.words)).updCore s.cur.core (fun c =>
        { c with messages := c.messages.erase m })).setX d
          (if m.completion then 1 else BitVec.ofNat 64 (m.sender * 2 ^ 36 + 2))).advance
      exec (.recv d a) s = .next t ∧ exec (.recvTry d a) s = .next t)

/-- SpawnLeaves, SpawnaFollowsTheData, SendLeaves, SendAnswered and Receiving, stated above. -/
def Obligations.SpawnsAndMessages : Prop :=
  SpawnLeaves ∧ SpawnaFollowsTheData ∧ SendLeaves ∧ SendAnswered ∧ Receiving

/-- R151: LQPUSH of a legal descriptor on a queue of the context's partition with room appends it and gives its id in
X[d]. -/
def Sys2Proof.Spec.LaunchPushed : Prop :=
  ∀ (s u : State) (d a b : Reg) (v : Nat) (img : List Word), Ready s [.x a, .x b] [.x d] →
    s.image64 s.headWho (s.getX b) = .ok (.data v, img) u →
    let q := wbits (u.getX a) 5 0
    let w := wd img 1
    Settled u → u.lqEnabled q = true → u.partOfAsid u.c.asid = some (u.lqPart q) →
    rectLegal w = true → rectKind w ≤ 1 → rectCube w = u.self → u.rectInPart w (u.lqPart q) = true →
    (u.lq q).descs.length < u.lqDepth q + 1 →
    ∃ t e, exec (.lqpush d a b) s = .next t ∧ t.c.pc = u.c.nextPc ∧
      t.getX d = (if d = 0 then 0 else BitVec.ofNat 64 (q * 2 ^ 24 + (u.lq q).pushes)) ∧
      (t.lq q).descs = (u.lq q).descs ++ [e] ∧ e.words = img ∧ e.asid = u.c.asid ∧ e.ptbase = u.c.ptbase ∧
      (t.lq q).pushes = ((u.lq q).pushes + 1) % 2 ^ 24 ∧ (∀ k, k ≠ q → t.lq k = u.lq k) ∧ t.dram = u.dram ∧ t.lmem = u.lmem

/-- R152: JDEC once the record's home has answered: X[d] receives the count that is left. -/
def Sys2Proof.Spec.JoinDecrement : Prop :=
  ∀ (s u w : State) (d a b : Reg) (tg : Target) (v : Nat), Ready s [.x a, .x b] [.x d] →
    let va := s.getX a
    s.resolve s.headWho { kind := .atomic, device := false, window := false } va 64 64 = .ok tg u →
    u.atomTarget u.headWho tg (.jdec (u.getX b).toNat u.c.asid) .flag d va = .ok (.data v) w →
    exec (.jdec d a b) s = .next ((w.setX d (BitVec.ofNat 64 v)).advance)

/-- R152: at the home of a join record in a FUSED range, a decrement by more than the count fails with cause 0x14 and changes
nothing; one that leaves the count above zero stores and answers what is left; the one that reaches zero also releases the
continuation. -/
def Sys2Proof.Spec.JoinRecordAtHome : Prop :=
  ∀ (s : State) (m : Msg) (n asid : Nat),
    let cnt := leNat ((s.homeLine m.la).take 8)
    s.rangeSlot (homeTile m.la) m.gpa = 5 →
    (cnt < n → s.doJdec m n asid = .fails 0x14 s) ∧
    (n ≤ cnt → ∃ t, s.doJdec m n asid = .value (cnt - n) t ∧
      leNat (t.dramRead (m.la / 64 * 64) 8) = cnt - n ∧
      (∀ a, a < m.la / 64 * 64 ∨ m.la / 64 * 64 + 8 ≤ a → mget 0 t.dram a = mget 0 s.dram a) ∧
      ((t.tile (homeTile m.la)).conts.length = (s.tile (homeTile m.la)).conts.length +
        (if n ≠ 0 ∧ cnt = n then 1 else 0)))

/-- LaunchPushed, JoinDecrement and JoinRecordAtHome, stated above. -/
def Obligations.LaunchesAndJoins : Prop :=
  LaunchPushed ∧ JoinDecrement ∧ JoinRecordAtHome

/-- R153: TEND ends the context: its id is free, no slot of the core holds it, and every register it had is gone. -/
def Sys2Proof.Spec.TaskEnds : Prop :=
  ∀ s : State, Settled s → s.c.storeFail = none →
    ∃ t, exec .tend s = .next t ∧ t.ctx s.cur.core s.cur.ctx = {} ∧
      (∀ k, k < 4 → (t.slot s.cur.core k).ctx ≠ some s.cur.ctx) ∧
      (∀ core k, core ≠ s.cur.core → k < 4 → t.slot core k = s.slot core k)

/-- R202: the TEND of a launched task is counted, and that of the last one starts LAUNCH_COMPLETE. -/
def Sys2Proof.Spec.LaunchCounts : Prop :=
  ∀ (s : State) (q : Nat) (r : LRun), (s.lq q).runs = [r] → r.failed = false → r.completing = false →
    (r.done + 1 < r.total → ((s.countTend q r.desc.uid).lq q).runs = [{ r with done := r.done + 1 }] ∧
      (s.countTend q r.desc.uid).agenda = s.agenda) ∧
    (r.done + 1 = r.total →
      ((s.countTend q r.desc.uid).lq q).runs = [{ r with done := r.done + 1, completing := true }] ∧
      (s.countTend q r.desc.uid).agenda = s.agenda ++ [.event .launchComplete { x := q, y := r.desc.uid }])

/-- R154, R330: YIELD with no work of equal or more urgent priority at the core, or in a handler, changes nothing but the PC;
with such work the context leaves its slot, ready, its vector operation in flight is saved, and the dispatcher fills the
slot. -/
def Sys2Proof.Spec.Yields : Prop :=
  ∀ s : State,
    (s.workWaits s.cur.core s.c.prio = false ∨ s.sl.depth ≠ 0 → exec .yield s = .next s.advance) ∧
    (s.sl.depth = 0 → s.workWaits s.cur.core s.c.prio = true →
      exec .yield s = .next ((((s.advance.updC (fun c => { c.saveOp with parkedAt := s.now, lvl := s.level })).becomeReady
        s.cur.core s.cur.ctx).updSl (fun x => { x with ctx := none, level := 0 })).dispatchOne s.cur.core (some s.cur.ctx)))

/-! ## Traps, returns and control registers -/

/-- R307, R308: a synchronous trap from user level, or from kernel level with KSTATUS.IE set, is taken at kernel level; from
kernel level with IE clear at firmware level with DBL set; from firmware level with FSTATUS.IE set at firmware level; with
it clear the slot stops. The registers of the level receive the PC, the cause word, the trap value and the status, and
the PC becomes VBASE + 64 × code + 2. -/
def Sys2Proof.Spec.TrapEntry : Prop :=
  ∀ (s : State) (code : Nat) (tval : Word), code < 256 → s.sl.ctx = some s.cur.ctx →
    let t := s.trap code tval
    let core := s.core s.cur.core
    let kernel := s.level = 0 ∨ s.level = 1 ∧ s.sl.k.status.getLsbD 0 = true
    let double := s.level = 1 ∧ s.sl.k.status.getLsbD 0 = false
    let firmware := s.level = 2 ∧ s.sl.f.status.getLsbD 0 = true
    (kernel → t.sl.level = 1 ∧ t.sl.k.epc = s.c.pc ∧ t.sl.k.cause = BitVec.ofNat 64 code ∧ t.sl.k.tval = tval ∧
      t.sl.k.status.getLsbD 0 = false ∧ t.sl.k.status.getLsbD 1 = s.sl.k.status.getLsbD 0 ∧
      t.sl.k.status.getLsbD 2 = decide (s.level = 1) ∧ (∀ i, 3 ≤ i → t.sl.k.status.getLsbD i = s.sl.k.status.getLsbD i) ∧
      t.sl.k.scratch = s.sl.k.scratch ∧ t.sl.f = s.sl.f ∧ t.c.pc = core.kvbase + BitVec.ofNat 64 (64 * code + 2)) ∧
    (double ∨ firmware → t.sl.level = 2 ∧ t.sl.f.epc = s.c.pc ∧ t.sl.f.tval = tval ∧
      t.sl.f.cause = BitVec.ofNat 64 (code + (if s.level = 1 then 2 ^ 62 else 0)) ∧
      t.sl.f.status.getLsbD 0 = false ∧ t.sl.f.status.getLsbD 1 = s.sl.f.status.getLsbD 0 ∧
      (t.sl.f.status.extractLsb' 2 2).toNat = s.level ∧
      (∀ i, 4 ≤ i → t.sl.f.status.getLsbD i = s.sl.f.status.getLsbD i) ∧
      t.sl.f.scratch = s.sl.f.scratch ∧ t.sl.k = s.sl.k ∧ t.c.pc = core.fvbase + BitVec.ofNat 64 (64 * code + 2)) ∧
    (s.level = 2 ∧ s.sl.f.status.getLsbD 0 = false →
      t.sl = { s.sl with stopped := true } ∧ t.c.st = .stopped ∧ t.c.pc = s.c.pc) ∧
    SameMemory s t ∧ OtherContexts s t ∧ t.c.x = s.c.x ∧ t.c.v = s.c.v ∧ t.c.m = s.c.m ∧ t.cores = s.cores

/-- R309: KRET restores the level from KSTATUS.PL and IE from PIE, sets PIE, and goes to KEPC; FRET does the same with the
firmware registers. No wait of R318 is registered, no context is named by CTXSW, and the context is not to end (R334). -/
def Sys2Proof.Spec.Returns : Prop :=
  ∀ s : State, s.c.hung = [] → s.sl.doomed = false → s.sl.csw = none →
    (1 ≤ s.level → ∃ t, exec .kret s = .next t ∧ t.c.pc = s.sl.k.epc ∧
      t.sl.level = (s.sl.k.status.extractLsb' 2 1).toNat ∧
      t.sl.k.status.getLsbD 0 = s.sl.k.status.getLsbD 1 ∧ t.sl.k.status.getLsbD 1 = true ∧
      (∀ i, 2 ≤ i → t.sl.k.status.getLsbD i = s.sl.k.status.getLsbD i) ∧ t.sl.k.epc = s.sl.k.epc ∧ t.sl.f = s.sl.f ∧
      SameMemory s t ∧ OtherContexts s t ∧ t.c.x = s.c.x) ∧
    (2 ≤ s.level → ∃ t, exec .fret s = .next t ∧ t.c.pc = s.sl.f.epc ∧
      t.sl.level = (s.sl.f.status.extractLsb' 2 2).toNat ∧
      t.sl.f.status.getLsbD 0 = s.sl.f.status.getLsbD 1 ∧ t.sl.f.status.getLsbD 1 = true ∧
      (∀ i, 2 ≤ i → t.sl.f.status.getLsbD i = s.sl.f.status.getLsbD i) ∧ t.sl.f.epc = s.sl.f.epc ∧ t.sl.k = s.sl.k ∧
      SameMemory s t ∧ OtherContexts s t ∧ t.c.x = s.c.x)

/-- A synchronous trap taken at kernel level, and then KRET, bring the context back to the head that trapped, at its level
and with its interrupt enable (R308, R309, R319). -/
def Sys2Proof.Spec.KretUndoesTheTrap : Prop :=
  ∀ (s : State) (code : Nat) (tval : Word), code < 256 → s.sl.ctx = some s.cur.ctx → s.c.hung = [] → s.sl.doomed = false →
    (s.level = 0 ∨ s.level = 1 ∧ s.sl.k.status.getLsbD 0 = true) →
    ∃ t, exec .kret (s.trap code tval) = .next t ∧ t.c.pc = s.c.pc ∧ t.sl.level = s.level ∧
      t.sl.k.status.getLsbD 0 = s.sl.k.status.getLsbD 0 ∧ t.c.x = s.c.x ∧ t.sl.ctx = s.sl.ctx

/-- R169: TRAP raises cause 0x10 with KTVAL the zero-extended code and KEPC the next PC, so that KRET resumes after it. -/
def Sys2Proof.Spec.TrapInstruction : Prop :=
  ∀ (s : State) (imm : BitVec 11), s.sl.ctx = some s.cur.ctx →
    (s.level = 0 ∨ s.level = 1 ∧ s.sl.k.status.getLsbD 0 = true) →
    ∃ t, exec (.trap imm) s = .next t ∧ t.sl.k.epc = s.c.nextPc ∧ t.sl.k.cause = 0x10 ∧ t.sl.k.tval = imm.setWidth 64 ∧
      t.sl.level = 1 ∧ t.c.pc = (s.core s.cur.core).kvbase + 0x402

/-- TrapEntry, Returns, KretUndoesTheTrap and TrapInstruction, stated above. -/
def Obligations.TrapsAndReturns : Prop :=
  TrapEntry ∧ Returns ∧ KretUndoesTheTrap ∧ TrapInstruction

/-- R29 step 5, R22: every privileged instruction issued below its level traps with cause 0x03 and its own encoding in the
trap value, and does nothing else. -/
def Obligations.PrivilegedInstructions : Prop :=
  ∀ (s : State) (i : Instr), s.level < i.level → exec i s = .next (s.trap 0x03 i.tval)

/-- R170, R316: WFI completes when an unmasked source is pending or a kernel-priority packet is in the inbox or
has arrived since it began to wait, and waits otherwise. -/
def Sys2Proof.Spec.WaitForInterrupt : Prop :=
  ∀ s : State, 1 ≤ s.level →
    let go := ∃ k, k < 5 ∧ s.pendingSource s.cur.core k = true ∧ s.sl.k.status.getLsbD (8 + k) = false
    let packet := (∃ e ∈ (s.core s.cur.core).inbox, e.prio = 0) ∨
      ∃ w, s.c.wait = some w ∧ w.kind = .wfi ∧ w.got.isSome = true
    (go ∨ packet → exec .wfi s = .next s.advance) ∧ (¬go → ¬packet → exec .wfi s = .next (s.stall { kind := .wfi }))

/-- TaskEnds, LaunchCounts, Yields and WaitForInterrupt, stated above. -/
def Obligations.TasksEndAndYield : Prop :=
  TaskEnds ∧ LaunchCounts ∧ Yields ∧ WaitForInterrupt

/-- R310: a status register reads as it stands, but for PEND and POB, which say what is so now. -/
def Sys2Proof.Spec.StatusReads (s : State) (d : Reg) (n : BitVec 12) (st : Word) : Prop :=
  ∃ v : Word, Gives (.crrd d n) s d v ∧ v.getLsbD 5 = s.c.pob ∧
    (∀ i, i < 5 → v.getLsbD (16 + i) = s.pendingSource s.cur.core i) ∧
    ∀ i, i ≠ 5 → (i < 16 ∨ 21 ≤ i) → v.getLsbD i = st.getLsbD i

/-- R171, R21, R310 to R312, R328: what CRRD gives for each register. -/
def Sys2Proof.Spec.ControlRegistersRead : Prop :=
  ∀ (s : State) (d : Reg), Ready s [] [.x d] →
    let core := s.core s.cur.core
    let k := s.sl.k
    let f := s.sl.f
    (Gives (.crrd d 0) s d s.c.fpctl ∧ Gives (.crrd d 2) s d (BitVec.ofNat 64 s.now) ∧
      Gives (.crrd d 3) s d (BitVec.ofNat 64 (s.gcid s.cur.core)) ∧ Gives (.crrd d 4) s d (BitVec.ofNat 64 s.cur.slot) ∧
      Gives (.crrd d 5) s d (BitVec.ofNat 64 s.c.asid) ∧ (s.c.inflight = none → s.c.pob = false → s.c.rest = [] → ∃ t, exec (.crrd d 1) s = .next t ∧
        t.getX d = (if d = 0 then 0 else s.c.fpstat))) ∧
    (1 ≤ s.level →
      Gives (.crrd d 0x401) s d k.epc ∧ Gives (.crrd d 0x402) s d k.cause ∧ Gives (.crrd d 0x403) s d k.tval ∧
      Gives (.crrd d 0x404) s d core.kvbase ∧ (∀ j, j < 4 → Gives (.crrd d (0x405 + BitVec.ofNat 12 j)) s d (wd k.scratch j)) ∧
      (∀ sl w, sl < 8 → w < 8 → Gives (.crrd d (0x440 + BitVec.ofNat 12 (8 * sl + w))) s d
        (match (s.cluster s.clu).efrec.find? (fun e => e.1 = sl) with
          | some e => wd e.2.1 w
          | none => 0)) ∧ Gives (.crrd d 0x409) s d core.ktimer ∧
      Gives (.crrd d 0x40A) s d core.spillptr ∧ Gives (.crrd d 0x40B) s d s.c.ptbase ∧
      Gives (.crrd d 0x40C) s d core.waitlim ∧ Gives (.crrd d 0x40D) s d (s.cluster s.clu).semerr ∧
      StatusReads s d 0x400 k.status) ∧
    (2 ≤ s.level →
      StatusReads s d 0x800 f.status ∧ (∀ j, j < 4 → Gives (.crrd d (0x805 + BitVec.ofNat 12 j)) s d (wd f.scratch j)) ∧
      Gives (.crrd d 0x801) s d f.epc ∧ Gives (.crrd d 0x802) s d f.cause ∧ Gives (.crrd d 0x803) s d f.tval ∧
      Gives (.crrd d 0x804) s d core.fvbase ∧ Gives (.crrd d 0x809) s d core.ftimer ∧
      Gives (.crrd d 0x80A) s d core.fspillptr ∧ Gives (.crrd d 0x80B) s d s.c.fptbase)

/-- R171, R21, R47, R158, R310 to R312: CRWR replaces the writable bits of its register, for every register that may be written;
SEMERR's bits are cleared by a 1, FPSTAT is written once the vector operation in flight is over, PL of FSTATUS never becomes 3
(R310), and a new KTIMER is compared when CYCLE reaches it (R315). -/
def Sys2Proof.Spec.ControlRegistersWritten : Prop :=
  ∀ (s : State) (a : Reg), Ready s [.x a] [] →
    let v := s.getX a
    let core := s.cur.core
    let bits := fun (p : Nat → Bool) (old x : Word) => ∀ i, x.getLsbD i = if p i then v.getLsbD i else old.getLsbD i
    let causeBits := fun (i : Nat) => decide (i < 16 ∨ 62 ≤ i)
    exec (.crwr a 0) s = .next (s.updC (fun c => { c with fpctl := v &&& 7 })).advance ∧
    (s.c.rest = [] → exec (.crwr a 1) s =
      .next ((s.updC Ctx.opDone).updC (fun c => { c with fpstat := v &&& 0x1F })).advance) ∧
    (1 ≤ s.level →
      (∃ x, bits causeBits s.sl.k.cause x ∧
        exec (.crwr a 0x402) s = .next (s.updSl (fun t => { t with k := { t.k with cause := x } })).advance) ∧
      (∀ j, j < 4 → exec (.crwr a (0x405 + BitVec.ofNat 12 j)) s =
        .next (s.updSl (fun t => { t with k := { t.k with scratch := t.k.scratch.set j v } })).advance) ∧
      (v = 0 → exec (.crwr a 0x409) s = .next (s.updCore core (fun c => { c with ktimer := 0 })).advance) ∧
      (v ≠ 0 → exec (.crwr a 0x409) s = .next ((s.updCore core (fun c => { c with ktimer := v })).after (v.toNat - s.now)
        .ktimerExpire { x := core }).advance) ∧
      (∃ x : Word, exec (.crwr a 0x40A) s = .next (s.updCore core (fun c => { c with spillptr := x })).advance ∧
        ∀ i, x.getLsbD i = (decide (8 ≤ i) && v.getLsbD i)) ∧
      (∃ x : Word, exec (.crwr a 0x40D) s = .next (s.updCluster s.clu (fun c => { c with semerr := x })).advance ∧
        ∀ i, x.getLsbD i = ((s.cluster s.clu).semerr.getLsbD i && !(decide (i = 24 ∨ i = 25) && v.getLsbD i))) ∧
      exec (.crwr a 0x401) s = .next (s.updSl (fun t => { t with k := { t.k with epc := v } })).advance ∧
      exec (.crwr a 0x403) s = .next (s.updSl (fun t => { t with k := { t.k with tval := v } })).advance ∧
      exec (.crwr a 0x40C) s = .next (s.updCore core (fun c => { c with waitlim := v })).advance ∧
      (∃ x : Word, exec (.crwr a 0x404) s = .next (s.updCore core (fun c => { c with kvbase := x })).advance ∧
        ∀ i, x.getLsbD i = (decide (12 ≤ i) && v.getLsbD i)) ∧
      (∃ x : Word, exec (.crwr a 0x40B) s = .next (s.updC (fun c => { c with ptbase := x })).advance ∧
        ∀ i, x.getLsbD i = (decide (12 ≤ i ∧ i < 56) && v.getLsbD i)) ∧
      (∃ x : Word, exec (.crwr a 0x400) s = .next (s.updSl (fun t => { t with k := { t.k with status := x } })).advance ∧
        ∀ i, x.getLsbD i = if i < 3 ∨ 8 ≤ i ∧ i < 13 then v.getLsbD i else s.sl.k.status.getLsbD i)) ∧
    (2 ≤ s.level →
      exec (.crwr a 0x801) s = .next (s.updSl (fun t => { t with f := { t.f with epc := v } })).advance ∧
      exec (.crwr a 0x803) s = .next (s.updSl (fun t => { t with f := { t.f with tval := v } })).advance ∧
      (∃ x, bits causeBits s.sl.f.cause x ∧
        exec (.crwr a 0x802) s = .next (s.updSl (fun t => { t with f := { t.f with cause := x } })).advance) ∧
      (∀ j, j < 4 → exec (.crwr a (0x805 + BitVec.ofNat 12 j)) s =
        .next (s.updSl (fun t => { t with f := { t.f with scratch := t.f.scratch.set j v } })).advance) ∧
      exec (.crwr a 0x809) s = .next (s.updCore core (fun c => { c with ftimer := v })).advance ∧
      (∃ x : Word, exec (.crwr a 0x804) s = .next (s.updCore core (fun c => { c with fvbase := x })).advance ∧
        ∀ i, x.getLsbD i = (decide (12 ≤ i) && v.getLsbD i)) ∧
      (∃ x : Word, exec (.crwr a 0x80A) s = .next (s.updCore core (fun c => { c with fspillptr := x })).advance ∧
        ∀ i, x.getLsbD i = (decide (8 ≤ i) && v.getLsbD i)) ∧
      (∃ x : Word, exec (.crwr a 0x80B) s = .next (s.updC (fun c => { c with fptbase := x })).advance ∧
        ∀ i, x.getLsbD i = (decide (12 ≤ i ∧ i < 56) && v.getLsbD i)) ∧
      ∃ x : Word, exec (.crwr a 0x800) s = .next (s.updSl (fun t => { t with f := { t.f with status := x } })).advance ∧
        ((s.sl.f.status.extractLsb' 2 2).toNat ≠ 3 → (x.extractLsb' 2 2).toNat ≠ 3) ∧
        ∀ i, i < 2 ∨ 8 ≤ i ∧ i < 13 → x.getLsbD i = v.getLsbD i)

/-- ControlRegistersRead and ControlRegistersWritten, stated above. -/
def Obligations.ControlRegisters : Prop :=
  ControlRegistersRead ∧ ControlRegistersWritten

/-- R172, R173, R326: TLBINV with an illegal rectangle word traps with cause 0x0A; with a legal one it removes every cached
translation that it names and no other, once no access under way uses one (log entry 61), and waits for the other cubes of
its scope (how they are asked and waited for: log entry 38); it traps with cause 0x12 for a cube that gave no answer. ICINV of a legal address of a line removes the line
from the instruction caches of the scope. -/
def Sys2Proof.Spec.CacheInvalidation : Prop :=
  ∀ (s u : State) (a b : Reg) (h : Home) (gpa ty : Nat), Ready s [.x a, .x b] [] →
    let va := s.getX a
    let ctl := s.getX b
    let cubes := s.farScope (ctl &&& 0xFFFFFFFFF)
    let used := s.tlbInUse va ctl (some (ctxKey s.cur.core s.cur.ctx))
    let fetched := u.fetchUnderWay gpa (u.icinvHas b ctl) (some (ctxKey u.cur.core u.cur.ctx))
    (Settled s → 1 ≤ s.level → s.farWaits = false →
      (rectLegal ctl = false → TrapsWith (.tlbinv a b) s 0x0A ctl) ∧
      (rectLegal ctl = true → used = true → exec (.tlbinv a b) s = .next (s.stall { kind := .drain })) ∧
      (rectLegal ctl = true → used = false →
        (∀ e ∈ (s.tlbRemove va ctl).cores, s.scopeHas (ctl &&& 0xFFFFFFFFF) e.1 = true → ∀ x ∈ e.2.tlb, tlbHit va ctl x = false) ∧
        (∀ e ∈ (s.tlbRemove va ctl).clusters, s.clusterIn (ctl &&& 0xFFFFFFFFF) e.1 = true →
          ∀ x ∈ e.2.tlb, tlbHit va ctl x = false) ∧
        (cubes = [] → exec (.tlbinv a b) s = .next (s.tlbRemove va ctl).advance) ∧
        (cubes ≠ [] → s.numberFree (.core s.cur.core) = true →
          ∃ t, exec (.tlbinv a b) s = .next t ∧ t.c.wait.any (fun w => decide (w.kind = .far)) = true ∧
          t.c.pc = s.c.pc ∧ ∃ r ∈ t.farRuns, r.op = .tlb va ctl ∧ r.cubes = cubes ∧ r.left = cubes))) ∧
    (1 ≤ s.level → s.farWaits = true → ∀ r, s.farOf s.cur.core s.cur.ctx = some r →
      (r.left ≠ [] → exec (.tlbinv a b) s = .next (s.stall { kind := .far, thr := r.id })) ∧
      (r.left = [] → ∀ v w c, r.op = .tlb v w → r.dead = some c →
        exec (.tlbinv a b) s = .next (s.farDrop.trap 0x12 (BitVec.ofNat 64 c))) ∧
      (r.left = [] → r.dead = none → exec (.tlbinv a b) s = .next s.farDrop.advance)) ∧
    (Settled s → s.farWaits = false → s.resolve s.headWho { kind := .fetch, window := false } va 1 1 = .ok (.line h gpa ty) u →
      (b ≠ 0 → rectLegal ctl = false → exec (.icinv a b) s = .next (u.trap 0x0A ctl)) ∧
      (b = 0 ∨ rectLegal ctl = true → fetched = true → exec (.icinv a b) s = .next (u.stall { kind := .drain })) ∧
      (b = 0 ∨ rectLegal ctl = true → fetched = false → ∃ t, exec (.icinv a b) s = .next t ∧ t.cur = u.cur ∧
        (b = 0 ∨ u.farScope ctl = [] → t.c.pc = u.c.nextPc ∧ t.c.line = none) ∧
        ∀ e ∈ t.cores, u.icinvHas b ctl e.1 = true → ∀ x ∈ e.2.icache, x.1 ≠ gpa / 64))

/-- R174, R331: CTXSW that names a parked context of the core exchanges KEPC with its PC and marks the slot; one that
names an id that cannot be installed traps with cause 0x08. -/
def Sys2Proof.Spec.ContextNamed : Prop :=
  ∀ (s : State) (a : Reg), 1 ≤ s.level → Ready s [.x a] [] →
    let id := wbits (s.getX a) 23 0
    let c := s.ctx s.cur.core id
    (id < 256 → c.st = .parked ∨ c.st = .readyParked →
      exec (.ctxsw a) s = .next ((s.updSl (fun t =>
        { t with csw := some (id, c.uid, t.k.epc), k := { t.k with epc := c.pc } })).advance)) ∧
    (256 ≤ id ∨ c.st = .running ∨ c.st = .blocked → TrapsWith (.ctxsw a) s 0x08 (s.getX a))

/-- R175: CTXFLUSH of an id that no parked context has changes nothing but the PC (an id without a live context: log entry 19) or
traps; where the context's overflow
area takes the images of the banks that lie on the core, and the tag, its banks are marked as lying there. -/
def Sys2Proof.Spec.ContextFlushed : Prop :=
  ∀ (s u w : State) (a : Reg) (area : Nat), 1 ≤ s.level → Ready s [.x a] [] →
    let id := wbits (s.getX a) 23 0
    let core := s.cur.core
    let c := s.ctx core id
    (256 ≤ id ∨ c.st = .free → exec (.ctxflush a) s = .next s.advance) ∧
    (id < 256 → c.st = .running ∨ c.st = .blocked ∨ c.st = .stopped → TrapsWith (.ctxflush a) s 0x08 (s.getX a)) ∧
    (id < 256 → c.st = .parked → s.inFlight ⟨core, 7, id⟩ = false → s.areaOf c.asid core id = some area → (s.stripeFor area c.asid 1).isSome = true →
      (if s.memo (headOwner core s.cur.ctx) = [] then s.readBanks core id else s).writeParts area c.flushParts = .ok true u →
      u.writeLines area (leBytes 8 (imageTag false c.asid id).toNat ++ List.replicate 56 0) 1 = .ok true w → w.cur = s.cur →
      id ≠ s.cur.ctx → ∃ t, exec (.ctxflush a) s = .next t ∧ (t.ctx core id).sbank = .overflow ∧
        (∀ b ∈ (t.ctx core id).vbank, b = .overflow ∨ b = .unclaimed) ∧ t.c.pc = w.c.nextPc)

/-- CacheInvalidation, ContextNamed and ContextFlushed, stated above. -/
def Obligations.CachesAndContexts : Prop :=
  CacheInvalidation ∧ ContextNamed ∧ ContextFlushed

/-- R177, R261: PTLOAD of an image that passes the checks of R250 puts it into its slot; a slot whose image is in use or
for which a PRSET in progress has reserved entries (R260), and slots 0 to 5 below firmware level, trap with cause 0x08; so does an image that breaks a rule. It waits for the operations on its slot that
came before it (R260). -/
def Sys2Proof.Spec.ProtocolLoaded : Prop :=
  ∀ (s u : State) (a b : Reg) (img : List Byte) (va w : Word), 1 ≤ s.level → Ready s [.x a, .x b] [] →
    let slot := wbits (s.getX b) 2 0
    let refused := (s.level = 1 ∧ slot < 6) ∨ s.loading slot = false ∧ ((s.image slot).isSome = true ∧
      (s.boundBits.testBit slot = true ∨ ∃ p ∈ s.prsets, p.slot = slot))
    (¬(s.level = 1 ∧ slot < 6) → s.loading slot = true → exec (.ptload a b) s = .next ((s.loadBegin slot).stall { kind := .drain })) ∧
    (refused → TrapsWith (.ptload a b) s 0x08 (BitVec.ofNat 64 (2 ^ 63 + slot))) ∧
    (¬refused → s.loading slot = false → (s.loadBegin slot).readImage (s.getX a) [] 66 = .ok (.data 0, img, va) u →
      (checkImage img slot = some w → exec (.ptload a b) s = .next (u.trap 0x08 w)) ∧
      (checkImage img slot = none →
        exec (.ptload a b) s = .next ({ u with images := mset [] u.images slot img }.loadOver u.cur.core u.cur.ctx).advance))

/-- R176: PRSET of a range that may be bound begins the switch and waits, on this cube at once and, where other cubes hold
lines of the range, once their homes have reserved entries; once its switch is over, the head completes. A range that is
misaligned, too small or too large, a slot without an image, or a home that lacks entries, traps with cause 0x08; a slot that
an earlier operation has taken is waited for (R260). That a base of 2^56 or more counts as misaligned is log entry 68, and how
the other cubes' homes are asked and waited for log entry 38. -/
def Sys2Proof.Spec.RangeBinding : Prop :=
  ∀ (s : State) (a b : Reg), 1 ≤ s.level → Ready s [.x a, .x b] [] →
    let base := (s.getX a).toNat
    let slot := wbits (s.getX b) 2 0
    let k := wbits (s.getX b) 8 3
    let cubes := s.farHomes base k
    let p : PrsetRun := { id := s.serial, core := s.cur.core, ctx := s.cur.ctx, base := base, k := k, slot := slot,
                          going := cubes.isEmpty }
    let again := s.c.wait.any (fun w => decide (w.kind = .prset)) = true
    let u : State := { s with serial := s.serial + 1, prsets := s.prsets ++ [p] }
    (again → s.farOf s.cur.core s.cur.ctx = none → exec (.prset a b) s = .next s.advance) ∧
    (again → ∀ r, s.farOf s.cur.core s.cur.ctx = some r → exec (.prset a b) s =
      .next (if r.lacks then s.farDrop.trap 0x08 (BitVec.ofNat 64 (2 ^ 63 + base)) else s.farDrop.advance)) ∧
    (¬again → k < 13 ∨ 48 < k ∨ base % 2 ^ k ≠ 0 ∨ 2 ^ 56 ≤ base ∨ (s.image slot = none ∧ s.loading slot = false) →
      TrapsWith (.prset a b) s 0x08 (s.getX a)) ∧
    (¬again → 13 ≤ k → k ≤ 48 → base % 2 ^ k = 0 → base < 2 ^ 56 → s.regionOk (bitsOf base 55 48) = true →
      2 ≤ s.level ∨ s.partOfAsid s.c.asid = some (s.regionPart (bitsOf base 55 48)) →
      (s.loading slot = true → exec (.prset a b) s = .next ((s.loadBegin slot).stall { kind := .drain })) ∧
      (s.loading slot = false → (s.image slot).isSome = true → s.numbersFree s.cur.core cubes.length = true →
      ((∃ h ∈ s.prsetHomes p, 32 < (s.reserved h (s.prsets ++ [p])).length) →
        TrapsWith (.prset a b) s 0x08 (BitVec.ofNat 64 (2 ^ 63 + base))) ∧
      ((∀ h ∈ s.prsetHomes p, (s.reserved h (s.prsets ++ [p])).length ≤ 32) →
        (cubes = [] → exec (.prset a b) s =
          .next (((u.recallRange base k).loadOver s.cur.core s.cur.ctx).stall { kind := .prset, thr := s.serial })) ∧
        (cubes ≠ [] → exec (.prset a b) s = .next (((u.farStart s.serial (.reserve base k slot) cubes).loadOver s.cur.core
          s.cur.ctx).stall { kind := .prset, thr := s.serial })))))

/-- R178: PDRAIN of a kernel-level context for another partition traps with cause 0x08 and with an illegal rectangle word
with cause 0x0A; otherwise the partition is drained, and the head completes once every image tag is cleared and no handler, no
chunk and no full-empty access of it goes on. The messages that the issuing context or a kernel context may still receive stay
(log entry 83). -/
def Sys2Proof.Spec.PartitionDrained : Prop :=
  ∀ (s : State) (a b : Reg), 1 ≤ s.level → Ready s [.x a, .x b] [] →
    let p := wbits (s.getX a) 5 0
    let r := s.getX b
    let legal := rectLegal r = true ∧ rectKind r ≠ 2 ∧ rectCube r = s.self
    let mine := s.level ≠ 1 ∨ s.partOfAsid s.c.asid = some p
    (¬legal → TrapsWith (.pdrain a b) s 0x0A r) ∧ (legal → ¬mine → TrapsWith (.pdrain a b) s 0x08 (s.getX a)) ∧
    let d := s.drainPart p r
    let over_ := 256 * (rectCores r).length ≤ d.1 ∧ d.2.drainWaits p r = false
    (legal → mine →
      (over_ → exec (.pdrain a b) s = .next d.2.advance) ∧
      (¬over_ → exec (.pdrain a b) s = .next (d.2.stall { kind := .drain, thr := d.1 })) ∧
      ∀ gone n, rectHas r n = true → ∀ m ∈ ((s.drainQueues p r gone).core n).messages,
        s.asidIn p m.asid = false ∨ s.spared n m.asid = true)

/-! ## Vector instructions -/

namespace Sys2Proof.Spec

/-- R19: element `k` of `w` bits of a vector register. -/
def lane (w : Nat) (v : VReg) (k : Nat) : BitVec w := v.extractLsb' (w * k) w

/-- R85: whether element `k` of `n` is active. -/
def on (s : State) (m : Mask) (n k : Nat) : Bool :=
  match m with
  | none => true
  | some e => (s.c.getM e.1).getLsbD (if n = 64 then k / 2 else k)

/-- R85: whether masked-off elements keep the old value. -/
def keeps (m : Mask) : Bool :=
  match m with
  | none => false
  | some e => !e.2

/-- None of the vector registers is bound to a stream (R106), and their register groups are in the bank (R187). -/
abbrev Plain (s : State) (vs : List Reg) : Prop :=
  ∀ r, r ∈ vs → s.c.stream r = none ∧ s.c.vbank.getD (r.toNat / 8) .unclaimed = .resident

/-- The registers that a vector head reads are ready (R344, R318), nothing that an interrupt left under way goes before it
(R86), none of its vector registers is bound to a stream (R106), and their register groups are in the bank (R187). -/
abbrev VReady (s : State) (m : Mask) (xs xd : List RRef) (vs vd : List Reg) : Prop :=
  Ready s (xs ++ maskReads m ++ (vs ++ (if keeps m then vd else [])).map RRef.v) (xd ++ vd.map RRef.v) ∧
    Settled s ∧ Plain s (vs ++ vd)

/-- R86: a vector head completes: the flags of the operation before it reach FPSTAT, its own wait for its completion, and
the context changes by `f`. The two cycles until then are the model's number (R111 makes vector timing no part of the
architecture; DESIGN CHOICE, log entry 75). -/
def vecState (s : State) (f : Ctx → Ctx) (flags : Nat) : State :=
  ((s.markLevel.updC (fun c => { (f c).opDone with inflight := some flags })).after 2 .vectorOpComplete
    { x := s.cur.core, y := s.cur.ctx, z := s.c.uid }).advance

/-- The head is issued for the first time: it has kept no result of an access. -/
abbrev Fresh (s : State) : Prop := s.memo (headOwner s.cur.core s.cur.ctx) = []

/-- A vector head completes with `v` in V[d]. -/
def VGives (i : Instr) (s : State) (d : Reg) (v : VReg) (flags : Nat) : Prop :=
  exec i s = .next (vecState s (fun c => c.setV d v) flags)

/-- The flags of the active elements of `n`, ORed. -/
def flagsOf (s : State) (m : Mask) (n : Nat) (f : Nat → Nat × Nat) : Nat :=
  ((List.range n).filter (on s m n)).foldl (fun acc k => acc ||| (f k).2) 0

/-- R85: V[d] receives `n` elements of `w` bits: `(f k).1` where element k is active, and zero or the old element where
it is not; `(f k).2` are the flags of element k. Bits above the elements are zero. -/
def Elementwise (i : Instr) (s : State) (d : Reg) (vs : List Reg) (m : Mask) (n w : Nat) (f : Nat → Nat × Nat) : Prop :=
  VReady s m [] [] vs [d] → ∃ v, VGives i s d v (flagsOf s m n f) ∧
    (∀ k, k < n → (lane w v k).toNat =
      if on s m n k then (f k).1 % 2 ^ w else if keeps m then (lane w (s.c.getV d) k).toNat else 0) ∧
    ∀ j, n * w ≤ j → v.getLsbD j = false

/-- R20, R39: the value of an integer element. -/
def ival (t : ETy) {w : Nat} (x : BitVec w) : Int :=
  match t with
  | .s8 | .s16 | .s32 | .s64 => x.toInt
  | _ => x.toNat

/-- R39: the least and the greatest value of an integer type. -/
def ilo (t : ETy) (w : Nat) : Int :=
  match t with
  | .s8 | .s16 | .s32 | .s64 => -2 ^ (w - 1)
  | _ => 0
def ihi (t : ETy) (w : Nat) : Int :=
  match t with
  | .s8 | .s16 | .s32 | .s64 => 2 ^ (w - 1) - 1
  | _ => 2 ^ w - 1

/-- A value brought into the range of the type. -/
def iclamp (t : ETy) (w : Nat) (v : Int) : Int := max (ilo t w) (min (ihi t w) v)

end Sys2Proof.Spec

/-- R90: the integer arithmetic of vectors, element by element. -/
def Obligations.VectorIntegers : Prop :=
  ∀ (s : State) (d a b : Reg) (t : ETy) (m : Mask), t.isInt = true →
    let w := t.width
    let x := fun k => lane w (s.c.getV a) k
    let y := fun k => lane w (s.c.getV b) k
    let z := fun k => lane w (s.c.getV d) k
    let E := fun (i : Instr) (vs : List Reg) (f : Nat → BitVec w) =>
      Elementwise i s d vs m (256 / w) w (fun k => ((f k).toNat, 0))
    E (.vadd d a b t m) [a, b] (fun k => x k + y k) ∧
    E (.vsub d a b t m) [a, b] (fun k => x k - y k) ∧
    E (.vmul d a b t m) [a, b] (fun k => x k * y k) ∧
    E (.vmulh d a b t m) [a, b] (fun k => BitVec.ofInt w (ival t (x k) * ival t (y k) / 2 ^ w)) ∧
    E (.vmin d a b t m) [a, b] (fun k => if ival t (x k) ≤ ival t (y k) then x k else y k) ∧
    E (.vmax d a b t m) [a, b] (fun k => if ival t (x k) ≤ ival t (y k) then y k else x k) ∧
    E (.vand d a b t m) [a, b] (fun k => x k &&& y k) ∧
    E (.vor d a b t m) [a, b] (fun k => x k ||| y k) ∧
    E (.vxor d a b t m) [a, b] (fun k => x k ^^^ y k) ∧
    E (.vandn d a b t m) [a, b] (fun k => x k &&& ~~~y k) ∧
    E (.vsll d a b t m) [a, b] (fun k => x k <<< (y k).toNat) ∧
    E (.vsrl d a b t m) [a, b] (fun k => x k >>> (y k).toNat) ∧
    E (.vsra d a b t m) [a, b] (fun k => (x k).sshiftRight (y k).toNat) ∧
    E (.vabs d a t m) [a] (fun k => if ival t (x k) < 0 then -x k else x k) ∧
    E (.vneg d a t m) [a] (fun k => -x k) ∧
    E (.vadds d a b t m) [a, b] (fun k => BitVec.ofInt w (iclamp t w (ival t (x k) + ival t (y k)))) ∧
    E (.vsubs d a b t m) [a, b] (fun k => BitVec.ofInt w (iclamp t w (ival t (x k) - ival t (y k)))) ∧
    E (.vavg d a b t m) [a, b] (fun k => BitVec.ofInt w ((ival t (x k) + ival t (y k) + 1) / 2)) ∧
    E (.vmac d a b t m) [a, b, d] (fun k => z k + x k * y k)

/-- R91, R93, R94, R100: floating arithmetic, conversions and special functions, element by element: each element is the
exact result of its operation on the operands as they are read under FTZ, rounded once, with its flags. The exact
operations and the rounding are those of R49 to R54 and R58. -/
def Obligations.VectorFloats : Prop :=
  ∀ (s : State) (d a b e : Reg) (t src dst : ETy) (m : Mask),
    let w := t.width
    let c := fpCtl s.c.fpctl
    let F := fmtOf t
    let x := fun (r : Reg) k => F.read c.ftz (lane w (s.c.getV r) k).toNat
    let bits := fun k => (lane w (s.c.getV a) k).toNat
    let once := fun (r : FVal × Nat) => ((F.round c false r.1).1, (F.round c false r.1).2 ||| r.2)
    let near := fun (r : FVal × Nat) =>
      ((F.round { rm := 0, ftz := c.ftz } false r.1).1, (F.round { rm := 0, ftz := c.ftz } false r.1).2 ||| r.2)
    let fused := fun (np nz : Bool) k =>
      let p := (x a k).mul (x b k)
      let q := (if np then p.1.negate else p.1).add c.rm (if nz then (x e k).negate else x e k)
      once (q.1, p.2 ||| q.2)
    let E := fun (i : Instr) (vs : List Reg) (f : Nat → Nat × Nat) => Elementwise i s d vs m (256 / w) w f
    let nan := fun (k : Nat) (r : Nat) => if (F.decode (bits k)).isNan then (F.nanCode, (F.decode (bits k)).sigFlag) else (r, 0)
    let wide := 256 / Nat.max src.width dst.width
    let from_ := fun k => (lane src.width (s.c.getV a) k).toNat
    let rnd := fun k => (lane 16 (s.c.getV b) k).toNat
    E (.vfadd d a b t m) [a, b] (fun k => once ((x a k).add c.rm (x b k))) ∧
    E (.vfsub d a b t m) [a, b] (fun k => once ((x a k).add c.rm (x b k).negate)) ∧
    E (.vfmul d a b t m) [a, b] (fun k => once ((x a k).mul (x b k))) ∧
    E (.vfdiv d a b t m) [a, b] (fun k => once ((x a k).div (x b k))) ∧
    E (.vfma d a b e t m) [a, b, e] (fused false false) ∧
    E (.vfms d a b e t m) [a, b, e] (fused false true) ∧
    E (.vfnma d a b e t m) [a, b, e] (fused true false) ∧
    E (.vfmin d a b t m) [a, b] (fun k => once ((x a k).minmax false (x b k))) ∧
    E (.vfmax d a b t m) [a, b] (fun k => once ((x a k).minmax true (x b k))) ∧
    E (.vfsqrt d a t m) [a] (fun k => once (x a k).sqrt) ∧
    E (.vfabs d a t m) [a] (fun k => nan k (bits k % F.sign)) ∧
    E (.vfneg d a t m) [a] (fun k => nan k (bits k ^^^ F.sign)) ∧
    E (.vexp2 d a t m) [a] (fun k => near (x a k).exp2) ∧ E (.vlog2 d a t m) [a] (fun k => near (x a k).log2f) ∧
    E (.vrcp d a t m) [a] (fun k => near (x a k).rcp) ∧ E (.vrsqrt d a t m) [a] (fun k => near (x a k).rsqrt) ∧
    E (.vsin d a t m) [a] (fun k => near (x a k).sin) ∧ E (.vcos d a t m) [a] (fun k => near (x a k).cos) ∧
    E (.vtanh d a t m) [a] (fun k => near (x a k).tanh) ∧ E (.vsigm d a t m) [a] (fun k => near (x a k).sigm) ∧
    Elementwise (.vcvt d a src dst m) s d [a] m wide dst.width (fun k => convElem src dst c false (from_ k)) ∧
    Elementwise (.vcvtSat d a src dst m) s d [a] m wide dst.width (fun k => convElem src dst c true (from_ k)) ∧
    Elementwise (.vcvtsr d a b src dst m) s d [a, b] m wide dst.width
      (fun k => (fmtOf dst).roundStoch false (rnd k) (elemVal src c.ftz (from_ k))) ∧
    Elementwise (.vcvtsrSat d a b src dst m) s d [a, b] m wide dst.width
      (fun k => (fmtOf dst).roundStoch true (rnd k) (elemVal src c.ftz (from_ k)))

/-- R40, R41, R49, R51: what rounding gives. A number of a format rounds to its own code and raises no flag, in every
rounding mode (one that FTZ reads as zero excepted); a sum of two numbers is their exact sum, which is then rounded; and conversion to an integer type gives the integer
itself where the type holds it. -/
def Obligations.RoundingIsExactOnItsFormat : Prop :=
  (∀ (f : Fmt) (c : FpCtl) (sat : Bool) (x : Nat), f ∈ [fmtD, fmtF, fmtH, fmtBF, fmtE4, fmtE5, fmtE2] →
    x < 2 * f.sign → (c.ftz = false ∨ f.ftz = false ∨ x / 2 ^ f.mw % 2 ^ f.ew ≠ 0 ∨ x % 2 ^ f.mw = 0) →
    (∀ q, f.decode x ≠ .nan q) → (sat = false ∨ ∀ q, f.decode x ≠ .inf q) → f.round c sat (f.decode x) = (x, 0)) ∧
  (∀ (t : ETy) (rm : Nat) (v : Int), t.isInt = true → ilo t t.width ≤ v → v ≤ ihi t t.width →
    toIntType t rm (FVal.ofInt v) = ((v % 2 ^ t.width).toNat, 0)) ∧
  ∀ (rm : Nat) (p q : Bool) (m n : Nat) (e f : Int), ∃ g k,
    let least := min e f
    let units := fun (neg : Bool) (x : Nat) (y : Int) => (if neg then -(x : Int) else x) * 2 ^ (y - least).toNat
    ((FVal.num p m e).add rm (.num q n f)).1 = .num g k least ∧
      (if g then -(k : Int) else k) = units p m e + units q n f

/-- R99: moves of elements. VEXT writes the scalar register, sign-extended for a signed type. -/
def Obligations.VectorMoves : Prop :=
  ∀ (s : State) (d a b : Reg) (t : ETy) (m : Mask), t ≠ .e2 →
    let w := t.width
    let n := 256 / w
    let x := fun k => (lane w (s.c.getV a) k).toNat
    let y := fun k => (lane w (s.c.getV b) k).toNat
    let E := fun (i : Instr) (vs : List Reg) (f : Nat → Nat) => Elementwise i s d vs m n w (fun k => (f k, 0))
    (∀ e, E (.vmov d a e t m) [a] x) ∧
    E (.vperm d a b t m) [a, b] (fun k => x (y k % n)) ∧
    E (.vslide d a b t m) [a, b] (fun k => if k < n / 2 then x (k + n / 2) else y (k - n / 2)) ∧
    E (.vzip d a b t m) [a, b] (fun k => if k % 2 = 0 then x (k / 2) else y (k / 2)) ∧
    E (.vunzip d a b t m) [a, b] (fun k => if k < n / 2 then x (2 * k) else y (2 * (k - n / 2))) ∧
    (VReady s m [.x a] [] [] [d] → ∃ v, VGives (.vbcast d a t m) s d v 0 ∧ ∀ k, k < n →
      (lane w v k).toNat = if on s m n k then (s.getX a).toNat % 2 ^ w else if keeps m then (lane w (s.c.getV d) k).toNat else 0) ∧
    (VReady s none [.x a, .x b] [] [d] [d] → ∃ v, VGives (.vins d a b t) s d v 0 ∧ ∀ k, k < n →
      (lane w v k).toNat = if k = (s.getX b).toNat % n then (s.getX a).toNat % 2 ^ w else (lane w (s.c.getV d) k).toNat) ∧
    (VReady s none [.x b] [.x d] [a] [] →
      let r := BitVec.ofInt 64 (ival t (lane w (s.c.getV a) ((s.getX b).toNat % n)))
      exec (.vext d a b t) s = .next (vecState s (fun c => c.setX d r) 0))

/-- R92: the compares write one bit for each element to a mask register; a NaN makes NE and UNORD true and the others
false, LT, LE, GT and GE set NV for every NaN, the others for a signalling one. R103: the operations on masks. -/
def Sys2Proof.Spec.ComparesAndMasks : Prop :=
  ∀ (s : State) (d x y : BitVec 3) (a b r : Reg) (t : ETy) (m : Mask),
    let n := 256 / t.width
    let ftz := (fpCtl s.c.fpctl).ftz
    let p := fun k => elemVal t ftz (lane t.width (s.c.getV a) k).toNat
    let q := fun k => elemVal t ftz (lane t.width (s.c.getV b) k).toNat
    let un := fun k => (p k).isNan || (q k).isNan
    let C := fun (i : Instr) (nan loud : Bool) (f : Int → Bool) =>
      ∃ v : BitVec 32,
        exec i s = .next (vecState s (fun c => c.setM d v) (flagsOf s m n (fun k => (0, if un k then
          (if loud then flNV else (p k).sigFlag ||| (q k).sigFlag) else 0)))) ∧
        ∀ k, k < 32 → v.getLsbD k = (decide (k < n) &&
          if on s m n k then (if un k then nan else f ((p k).order (q k))) else keeps m && (s.c.getM d).getLsbD k)
    let M := fun (i : Instr) (v : BitVec 32) => exec i s = .next (s.setM d v).advance
    (8 ≤ t.width → VReady s m (if keeps m then [.m d] else []) [.m d] [a, b] [] →
      C (.vcmpEq d a b t m) false false (fun o => o = 0) ∧ C (.vcmpNe d a b t m) true false (fun o => o ≠ 0) ∧
      C (.vcmpLt d a b t m) false true (fun o => o < 0) ∧ C (.vcmpLe d a b t m) false true (fun o => o ≤ 0) ∧
      C (.vcmpGt d a b t m) false true (fun o => 0 < o) ∧ C (.vcmpGe d a b t m) false true (fun o => 0 ≤ o) ∧
      C (.vcmpUnord d a b t m) true false (fun _ => false)) ∧
    (Ready s [.m x, .m y] [.m d] →
      M (.mand d x y) (s.getM x &&& s.getM y) ∧ M (.mor d x y) (s.getM x ||| s.getM y) ∧
      M (.mxor d x y) (s.getM x ^^^ s.getM y) ∧ M (.mandn d x y) (s.getM x &&& ~~~s.getM y) ∧
      M (.mnot d x) (~~~s.getM x)) ∧
    (Ready s [.x r] [.m d] → M (.mset d r) ((s.getX r).extractLsb' 0 32)) ∧
    (Ready s [.m x] [.x r] → Gives (.mget r x) s r ((s.getM x).setWidth 64) ∧
      Gives (.mpopc r x) s r (BitVec.ofNat 64 ((List.range 32).countP (fun k => (s.getM x).getLsbD k))) ∧
      ∃ n : Nat, Gives (.mfirst r x) s r (BitVec.ofNat 64 n) ∧ (s.getM x = 0 → n = 32) ∧
        (s.getM x ≠ 0 → n < 32 ∧ (s.getM x).getLsbD n = true ∧ ∀ k, k < n → (s.getM x).getLsbD k = false))

/-- R57, R97, R98: dot products and reductions. An integer dot product adds the exact products to the lane and wraps. An
integer sum wraps; a minimum or maximum bounds every active element and is one of them, or the identity where none is
active. A floating reduction is the binary tree of R57, FP16 and BF16 elements in FP32 with one rounding at its end; the FP32 nodes are read and rounded under
FTZ (DEDUCED, log entry 39). -/
def Sys2Proof.Spec.DotsAndReductions : Prop :=
  ∀ (s : State) (d a b : Reg) (t : ETy) (m : Mask) (mk : Option (BitVec 3)),
    let w := t.width
    let n := 256 / w
    let c := fpCtl s.c.fpctl
    let x := fun k => lane w (s.c.getV a) k
    let y := fun k => lane w (s.c.getV b) k
    let old := fun k => (lane 32 (s.c.getV d) k).toNat
    let ks := fun k => (List.range (32 / w)).map (fun j => 32 / w * k + j)
    let act := (List.range n).filter (on s (mk.map (fun r => (r, true))) n)
    let RR := VReady s (mk.map (fun r => (r, true))) [] [] [a] [d]
    let nf := nodeFmt t
    let narrow : Bool := t = .h || t = .bf
    let enter := fun k => if narrow then (nf.round fpNearest false ((fmtOf t).decode (x k).toNat)) else ((x k).toNat, 0)
    let tree := fun (ident : Nat) (op : FVal → FVal → FVal × Nat) =>
      let leaves := (List.range n).map (fun k => if act.contains k then enter k else (ident, 0))
      let r := treeOf (fun p q => rounded nf c (op (nf.read c.ftz p) (nf.read c.ftz q))) 5 (leaves.map Prod.fst)
      let o := if narrow then (fmtOf t).round c false (nf.read c.ftz r.1) else (r.1, 0)
      (o.1, leaves.foldl (fun acc e => acc ||| e.2) (o.2 ||| r.2))
    (t = .s8 ∨ t = .z8 → Elementwise (.vdot d a b t m) s d [a, b, d] m 8 32 (fun k =>
      ((((old k : Int) + ((ks k).map (fun j => ival t (x j) * ival t (y j))).sum) % 2 ^ 32).toNat, 0))) ∧
    (8 ≤ w → ∀ i ∈ [Instr.vdotf d a b t m, .vdotf8 d a b t m], Elementwise i s d [a, b, d] m 8 32 (fun k =>
      let r := sumExact c.rm ((fmtF.read c.ftz (old k), 0) ::
        (ks k).map (fun j => ((fmtOf t).decode (x j).toNat).mul ((fmtOf t).decode (y j).toNat)))
      ((fmtF.round c false r.1).1, (fmtF.round c false r.1).2 ||| r.2))) ∧
    (t.isInt = true → RR → ∃ u l h : BitVec w,
      VGives (.vrsum d a t mk) s d (u.setWidth 256) 0 ∧ VGives (.vrmin d a t mk) s d (l.setWidth 256) 0 ∧
      VGives (.vrmax d a t mk) s d (h.setWidth 256) 0 ∧
      u = BitVec.ofInt w ((act.map (fun k => ival t (x k))).sum) ∧
      (∀ k ∈ act, ival t l ≤ ival t (x k) ∧ ival t (x k) ≤ ival t h) ∧
      (act = [] → ival t l = ihi t w ∧ ival t h = ilo t w) ∧ (act ≠ [] → (∃ k ∈ act, l = x k) ∧ ∃ k ∈ act, h = x k)) ∧
    (t.isFp = true → RR →
      let G := fun (i : Instr) (r : Nat × Nat) => VGives i s d (BitVec.ofNat 256 r.1) r.2
      G (.vrfsum d a t mk) (tree nf.sign (fun p q => p.add c.rm q)) ∧
      G (.vrfmin d a t mk) (tree nf.infCode (fun p q => p.minmax false q)) ∧
      G (.vrfmax d a t mk) (tree (nf.infCode + nf.sign) (fun p q => p.minmax true q)))

/-- ComparesAndMasks and DotsAndReductions, stated above. -/
def Obligations.MasksAndReductions : Prop :=
  ComparesAndMasks ∧ DotsAndReductions

/-- R95, R96: VMXPACK writes 32 elements to V[d] and the scale to byte 0 of V[d + 1]; VMXUNPK writes 32 values under the
scale in byte 0 of V[a + 1]. R101: VARD reads eight words of an accumulator row, and VAWR writes them; VARD of a word whose
data is uncorrectable traps with cause 0x12 (R344). -/
def Obligations.BlocksAndAccumulators : Prop :=
  ∀ (s : State) (d a b : Reg) (src dst : ETy) (acc : Bool),
    let c := fpCtl s.c.fpctl
    let grp := fun (r : Reg) (n : Nat) => (List.range n).map (fun j => BitVec.ofNat 5 (r.toNat + j))
    let next := fun (r : Reg) => BitVec.ofNat 5 (r.toNat + 1)
    let row := (s.getX a).toNat % 128
    let col := 8 * ((s.getX b).toNat % 16)
    let A := (s.cluster s.clu).acc acc
    ((Instr.vmxpack d a src dst).wellFormed = true →
      VReady s none [] [] (next d :: grp a (src.width / 8)) [d, next d] →
      let vals := (grp a (src.width / 8)).flatMap (fun r =>
        (List.range (256 / src.width)).map (fun k => elemVal src c.ftz (lane src.width (s.c.getV r) k).toNat))
      let r := mxPack dst c vals
      ∃ v w : VReg, exec (.vmxpack d a src dst) s = .next (vecState s (fun x => (x.setV d v).setV (next d) w) r.2.2) ∧
        (∀ k, k < 32 → (lane dst.width v k).toNat = r.1.getD k 0 % 2 ^ dst.width) ∧
        w.extractLsb' 0 8 = BitVec.ofNat 8 r.2.1 ∧ w.extractLsb' 8 248 = (s.c.getV (next d)).extractLsb' 8 248) ∧
    ((Instr.vmxunpk d a src dst).wellFormed = true →
      VReady s none [] [] [a, next a] (grp d (dst.width / 8)) →
      let one := fun k => (fmtOf dst).round c false
        (mxVal src ((s.c.getV (next a)).extractLsb' 0 8).toNat (lane src.width (s.c.getV a) k).toNat)
      ∃ t, exec (.vmxunpk d a src dst) s = .next t ∧ t.c.pc = s.c.nextPc ∧
        (∀ j k, j < dst.width / 8 → k < 256 / dst.width →
          (lane dst.width (t.c.getV (BitVec.ofNat 5 (d.toNat + j))) k).toNat =
            (one (256 / dst.width * j + k)).1 % 2 ^ dst.width) ∧
        (∀ r, r ∉ grp d (dst.width / 8) → t.c.getV r = s.c.getV r) ∧ t.c.x = s.c.x ∧ t.lmem = s.lmem ∧ t.dram = s.dram) ∧
    (Ready s [.x a, .x b] [] →
      (A.isBad row col 8 = false → VReady s none [] [] [] [d] → ∃ v, VGives (.vard d a b acc) s d v 0 ∧
        ∀ k, k < 8 → lane 32 v k = A.word row (col + k)) ∧
      (A.isBad row col 8 = true → ∃ u, exec (.vard d a b acc) s =
        .next (u.trap 0x12 (parityTval 5 (128 * (if acc then 1 else 0) + row))) ∧ u.c = s.c ∧ SameMemory s u ∧ SameSpecial s u) ∧
      (VReady s none [.x a, .x b] [] [d] [] → ∃ t, exec (.vawr d a b acc) s = .next t ∧ t.c.pc = s.c.nextPc ∧
        (∀ k, k < 8 → ((t.cluster s.clu).acc acc).word row (col + k) = lane 32 (s.c.getV d) k) ∧
        (∀ r k, k < 128 → r ≠ row ∨ k < col ∨ col + 8 ≤ k → ((t.cluster s.clu).acc acc).word r k = A.word r k) ∧
        (t.cluster s.clu).acc (!acc) = (s.cluster s.clu).acc (!acc) ∧ t.c.x = s.c.x ∧ t.c.v = s.c.v ∧
        t.lmem = s.lmem ∧ t.dram = s.dram))

/-- R88, R89: vector loads and stores, gathers and scatters, in the local window: an element or the register is read or
written at the address that the rule gives, least significant byte first. A scatter writes in ascending order of elements,
so that the last of equal addresses stays. -/
def Sys2Proof.Spec.VectorMemory : Prop :=
  ∀ (s : State) (d a b : Reg) (imm : BitVec 11) (t : ETy) (m : Mask), t ≠ .e2 →
    let va := s.getX a + 32 * imm.signExtend 64
    let w := t.width
    let e := w / 8
    let at_ := fun k => s.getX a + BitVec.ofInt 64 ((lane w (s.c.getV b) k).toInt * (e : Int))
    let ks := (List.range (256 / w)).filter (on s m (256 / w))
    (VReady s none [.x a] [] [] [d] → Fresh s → WindowAccess s va 32 → GoodWords s va 32 →
      VGives (.vld d a imm) s d (BitVec.ofNat 256 (windowValue s va 32)) 0) ∧
    (VReady s none [.x a] [] [d] [] → WindowAccess s va 32 →
      exec (.vst d a imm) s = .next (vecState (windowStored s va 32 (s.c.getV d).toNat) id 0)) ∧
    (Fresh s → (∀ k ∈ ks, WindowAccess s (at_ k) e ∧ GoodWords s (at_ k) e) →
      (VReady s m [.x a] [] [b] [d] → ∃ v, VGives (.vgath d a b t m) s d v 0 ∧ ∀ k, k < 256 / w →
        (lane w v k).toNat = if k ∈ ks then windowValue s (at_ k) e else if keeps m then (lane w (s.c.getV d) k).toNat else 0)) ∧
    ((∀ k ∈ ks, WindowAccess s (at_ k) e) →
      (VReady s m [.x a] [] [d, b] [] → exec (.vscat d a b t m) s = .next (vecState
        (ks.foldl (fun u k => windowStored u (at_ k) e (lane w (s.c.getV d) k).toNat) s) id 0)))

/-- R104 to R109: streams. SBIND binds a register to the stream that its descriptor describes; a read of a register bound
to a read stream pops the next elements; a write of a register bound to a write stream stores the next elements, in order, at
their addresses, least significant byte first, and changes no register; SUNBIND ends the binding and clears the register, or traps on nothing; BSDONE and
BSMORE branch on the position; a branch on a register without a stream, a pop of a stream that is at its end or is
written, and an append to one that is at its end or is read, trap with cause 0x0F. -/
def Sys2Proof.Spec.Streams : Prop :=
  ∀ (s u : State) (v : BitVec 2) (d a : Reg) (t : BTarget) (img : List Word) (n : Nat) (b : StreamB),
    let r := vreg v
    let w1 := wd img 1
    let len := (wbits (wd img 2) 31 0) * (wbits (wd img 3) 31 0) * (wbits (wd img 4) 31 0)
    let legal := wbits w1 63 9 = 0 ∧ wbits w1 7 3 = 0 ∧ wd img 5 = 0 ∧ wd img 7 = 0 ∧ wbits w1 2 0 ≤ 3 ∧ (wd img 6).toNat ≤ len
    let addr := fun j => b.base + BitVec.ofInt 64 (((j % b.count.getD 0 1 : Nat) : Int) * b.stride.getD 0 0 +
      ((j / b.count.getD 0 1 % b.count.getD 1 1 : Nat) : Int) * b.stride.getD 1 0 +
      ((j / (b.count.getD 0 1 * b.count.getD 1 1) : Nat) : Int) * b.stride.getD 2 0)
    let total := b.count.foldl (fun x y => x * y) 1
    let e := 2 ^ b.esz
    let got := Nat.min (32 / e) (total - b.pos)
    (Ready s [.x a] [] → s.image64 s.headWho (s.getX a) = .ok (.data n, img) u →
      (¬legal → exec (.sbind v a) s = .next (u.trap 0x0F (s.getX a))) ∧
      (legal → ∃ q x, exec (.sbind v a) s = .next x ∧ x.c.stream r = some q ∧ x.c.pc = u.c.nextPc ∧
        q.base = wd img 0 ∧ q.write = w1.getLsbD 8 ∧ q.esz = wbits w1 2 0 ∧ q.pos = (wd img 6).toNat ∧
        q.count = [wbits (wd img 2) 31 0, wbits (wd img 3) 31 0, wbits (wd img 4) 31 0] ∧
        q.stride = [((wd img 2).extractLsb' 32 32).toInt, ((wd img 3).extractLsb' 32 32).toInt, ((wd img 4).extractLsb' 32 32).toInt])) ∧
    (s.c.stream r = none →
      exec (.sunbind v a) s = .next s.advance ∧
      exec (.bsdone v t) s = .next (s.trap 0x0F (BitVec.ofNat 64 (0x400 + r.toNat))) ∧
      exec (.bsmore v t) s = .next (s.trap 0x0F (BitVec.ofNat 64 (0x400 + r.toNat)))) ∧
    (s.c.stream r = some b →
      (s.c.vbank.getD (r.toNat / 8) .unclaimed = .resident → ∃ x, exec (.sunbind v 0) s = .next x ∧ x.c.stream r = none ∧ x.c.getV r = 0 ∧ x.c.pc = s.c.nextPc ∧ x.c.x = s.c.x ∧
        x.lmem = s.lmem) ∧
      (a ≠ 0 → s.c.vbank.getD (r.toNat / 8) .unclaimed = .resident → Settled s → Fresh s → Ready s [.x a] [] →
        WindowAccess s (s.getX a + 48) 8 →
        exec (.sunbind v a) s = .next (((windowStored s (s.getX a + 48) 8 b.pos).updC (fun c => c.unbind r)).advance)) ∧
      exec (.bsdone v t) s = .next (if b.pos = total then s.jump (s.c.target t) else s.advance) ∧
      exec (.bsmore v t) s = .next (if b.pos < total then s.jump (s.c.target t) else s.advance) ∧
      (VReady s none [] [] [d] [] →
        (b.write = false → TrapsWith (.vmov r d 0 .z8 none) s 0x0F (BitVec.ofNat 64 (0x200 + r.toNat))) ∧
        (b.write = true → got = 0 → TrapsWith (.vmov r d 0 .z8 none) s 0x0F (BitVec.ofNat 64 (0x100 + r.toNat))) ∧
        (b.write = true → got ≠ 0 → b.esz ≤ 3 → (∀ k, k < got → WindowAccess s (addr (b.pos + k)) e) →
          exec (.vmov r d 0 .z8 none) s = .next (vecState ((List.range got).foldl (fun u k =>
            windowStored u (addr (b.pos + k)) e (lane (8 * e) (s.c.getV d) k).toNat) s)
              (fun c => c.setStream r { b with pos := b.pos + got }) 0))) ∧
      (VReady s none [] [] [] [d] →
        (b.write = true → TrapsWith (.vmov d r 0 .z8 none) s 0x0F (BitVec.ofNat 64 (0x200 + r.toNat))) ∧
        (b.write = false → got = 0 → TrapsWith (.vmov d r 0 .z8 none) s 0x0F (BitVec.ofNat 64 (0x100 + r.toNat))) ∧
        (Fresh s → b.write = false → got ≠ 0 → b.esz ≤ 3 →
          (∀ k, k < got → WindowAccess s (addr (b.pos + k)) e ∧ GoodWords s (addr (b.pos + k)) e) →
          ∃ x : VReg, exec (.vmov d r 0 .z8 none) s =
              .next (vecState s (fun c => (c.setStream r { b with pos := b.pos + got }).setV d x) 0) ∧
            ∀ k, k < 32 / e → (lane (8 * e) x k).toNat = if k < got then windowValue s (addr (b.pos + k)) e else 0)))

/-- VectorMemory and Streams, stated above. -/
def Obligations.VectorMemoryAndStreams : Prop :=
  VectorMemory ∧ Streams

namespace Sys2Proof.Spec

/-- What a vector head leaves as it was besides memory: every other context, every scalar register but those of `xs`, every mask
register but those of `ms`, every vector register but those of `vs`, the streams, FPCTL, the ASID and the roots of translation;
FPSTAT only gains bits (R48). -/
def VFrame (xs : List Reg) (ms : List (BitVec 3)) (vs : List Reg) (s t : State) : Prop :=
  OtherContexts s t ∧ (∀ r, r ∉ xs → t.getX r = s.getX r) ∧ (∀ m, m ∉ ms → t.c.getM m = s.c.getM m) ∧
    (∀ r, r ∉ vs → t.c.getV r = s.c.getV r) ∧ t.c.streams = s.c.streams ∧ t.c.fpctl = s.c.fpctl ∧
    (∃ m, t.c.fpstat = s.c.fpstat ||| m) ∧ t.c.asid = s.c.asid ∧ t.c.ptbase = s.c.ptbase ∧ t.c.fptbase = s.c.fptbase

/-- Memory as before, and `VFrame`; and where the head is ready, no special register changes and the PC moves on. -/
def VKeeps (i : Instr) (s : State) (ready : Prop) (xs : List Reg) (ms : List (BitVec 3)) (vs : List Reg) : Prop :=
  ∀ t, exec i s = .next t → SameMemory s t ∧ VFrame xs ms vs s t ∧ (ready → SameSpecial s t ∧ t.c.pc = s.c.nextPc)

/-- The same but for bytes of local memory at `stored`. -/
def VStores (i : Instr) (s : State) (stored : Nat → Prop) : Prop :=
  ∀ t, exec i s = .next t → VFrame [] [] [] s t ∧ (∀ a, ¬stored a → mget 0 t.lmem a = mget 0 s.lmem a) ∧
    (∀ a, mget 0 t.dram a = mget 0 s.dram a) ∧ (∀ a, mget 0xFF t.flash a = mget 0xFF s.flash a) ∧
    (∀ w, mget true t.fe w = mget true s.fe w)

end Sys2Proof.Spec

/-- R86: the frame of the vector heads, whatever next state they give (also where one waits, or meets a register whose parity
fails). One whose vector registers are not bound changes no memory, no other context and no register but its destination: V[d]; the
mask register of VCMP and the mask operations; the scalar register of VEXT, MGET, MPOPC and MFIRST; the group of VMXPACK or
VMXUNPK; none for VAWR, whose row is that of `BlocksAndAccumulators`. VST and VSCAT in the local window change the bytes that they
store and no register. A group with a bound register traps with cause 0x0F (R87, R107), KTVAL naming the first such register of
the source group, else of the destination group (DESIGN CHOICE, log entry 69). A head that completes has the state
`vecState`, whose frame is the second clause. -/
def Obligations.VectorFrame : Prop :=
  (∀ (s : State) (d a b e : Reg) (imm : BitVec 11) (d3 x y : BitVec 3) (t src dst : ETy) (m : Mask) (mk : Option (BitVec 3))
    (acc : Bool) (i : Instr),
    let grp := fun (r : Reg) (n : Nat) => (List.range n).map (fun j => BitVec.ofNat 5 (r.toNat + j))
    let all := [RRef.x a, .x b] ++ maskReads m ++ maskReads (mk.map (fun r => (r, true)))
    let ready := fun (xd : List RRef) (vs vd : List Reg) => Ready s (all ++ vs.map .v) (xd ++ vd.map .v) ∧ Settled s
    let va := s.getX a + 32 * imm.signExtend 64
    let n := 256 / t.width
    let ew := t.width / 8
    let at_ := fun k => s.getX a + BitVec.ofInt 64 ((lane t.width (s.c.getV b) k).toInt * (ew : Int))
    let acts := (List.range n).filter (on s m n)
    let cell := fun (v : Word) (j : Nat) => s.clu * 0x80000 + (v.toNat - 0x7F0000000000) + j
    (Plain s [d, a, b, e] →
      (i ∈ [Instr.vadd d a b t m, .vsub d a b t m, .vmul d a b t m, .vmulh d a b t m, .vmin d a b t m, .vmax d a b t m,
        .vand d a b t m, .vor d a b t m, .vxor d a b t m, .vandn d a b t m, .vsll d a b t m, .vsrl d a b t m, .vsra d a b t m,
        .vabs d a t m, .vneg d a t m, .vadds d a b t m, .vsubs d a b t m, .vavg d a b t m, .vmac d a b t m,
        .vfadd d a b t m, .vfsub d a b t m, .vfmul d a b t m, .vfdiv d a b t m, .vfma d a b e t m, .vfms d a b e t m,
        .vfnma d a b e t m, .vfmin d a b t m, .vfmax d a b t m, .vfsqrt d a t m, .vfabs d a t m, .vfneg d a t m,
        .vexp2 d a t m, .vlog2 d a t m, .vrcp d a t m, .vrsqrt d a t m, .vsin d a t m, .vcos d a t m, .vtanh d a t m,
        .vsigm d a t m, .vcvt d a src dst m, .vcvtSat d a src dst m, .vcvtsr d a b src dst m, .vcvtsrSat d a b src dst m,
        .vmov d a b t m, .vperm d a b t m, .vslide d a b t m, .vzip d a b t m, .vunzip d a b t m, .vbcast d a t m, .vins d a b t,
        .vdot d a b t m, .vdotf d a b t m, .vdotf8 d a b t m, .vrsum d a t mk, .vrmin d a t mk, .vrmax d a t mk,
        .vrfsum d a t mk, .vrfmin d a t mk, .vrfmax d a t mk] →
        VKeeps i s (ready [] [d, a, b, e] [d]) [] [] [d]) ∧
      (((s.cluster s.clu).acc acc).isBad ((s.getX a).toNat % 128) (8 * ((s.getX b).toNat % 16)) 8 = false →
        VKeeps (.vard d a b acc) s (ready [] [] [d]) [] [] [d]) ∧
      (i ∈ [Instr.vcmpEq d3 a b t m, .vcmpNe d3 a b t m, .vcmpLt d3 a b t m, .vcmpLe d3 a b t m, .vcmpGt d3 a b t m,
        .vcmpGe d3 a b t m, .vcmpUnord d3 a b t m] → VKeeps i s (ready [.m d3] [a, b] [] ∧ Ready s [.m d3] []) [] [d3] []) ∧
      VKeeps (.vext d a b t) s (ready [.x d] [a] []) [d] [] [] ∧
      VKeeps (.vawr d a b acc) s False [] [] [] ∧
      (WindowAccess s va 32 → VKeeps (.vld d a imm) s False [] [] [d]) ∧
      ((∀ k ∈ acts, WindowAccess s (at_ k) ew) → VKeeps (.vgath d a b t m) s False [] [] [d]) ∧
      (WindowAccess s va 32 → VStores (.vst d a imm) s (fun p => ∃ j, j < 32 ∧ p = cell va j)) ∧
      ((∀ k ∈ acts, WindowAccess s (at_ k) ew) →
        VStores (.vscat d a b t m) s (fun p => ∃ k ∈ acts, ∃ j, j < ew ∧ p = cell (at_ k) j))) ∧
    (i ∈ [Instr.mand d3 x y, .mor d3 x y, .mxor d3 x y, .mandn d3 x y, .mnot d3 x, .mset d3 a] →
      VKeeps i s (Ready s [.m x, .m y, .x a] [.m d3]) [] [d3] []) ∧
    (i ∈ [Instr.mget d x, .mpopc d x, .mfirst d x] → VKeeps i s (Ready s [.m x] [.x d]) [d] [] []) ∧
    (Plain s (grp a (src.width / 8) ++ grp d 2) → (Instr.vmxpack d a src dst).wellFormed = true →
      VKeeps (.vmxpack d a src dst) s (ready [] (grp a (src.width / 8) ++ grp d 2) (grp d 2)) [] [] (grp d 2)) ∧
    (Plain s (grp a 2 ++ grp d (dst.width / 8)) → (Instr.vmxunpk d a src dst).wellFormed = true →
      VKeeps (.vmxunpk d a src dst) s (ready [] (grp a 2) (grp d (dst.width / 8))) [] [] (grp d (dst.width / 8))) ∧
    (∀ q, ((grp a (src.width / 8) ++ grp d 2).find? (fun r => (s.c.stream r).isSome) = some q →
        (Instr.vmxpack d a src dst).wellFormed = true →
        TrapsWith (.vmxpack d a src dst) s 0x0F (BitVec.ofNat 64 (0x500 + q.toNat))) ∧
      ((grp a 2 ++ grp d (dst.width / 8)).find? (fun r => (s.c.stream r).isSome) = some q →
        (Instr.vmxunpk d a src dst).wellFormed = true →
        TrapsWith (.vmxunpk d a src dst) s 0x0F (BitVec.ofNat 64 (0x500 + q.toNat))))) ∧
  ∀ (s : State) (d : Reg) (v : VReg) (flags : Nat),
    let t := vecState s (fun c => c.setV d v) flags
    SameMemory s t ∧ SameSpecial s t ∧ OtherContexts s t ∧ t.c.pc = s.c.nextPc ∧ t.c.x = s.c.x ∧ t.c.m = s.c.m ∧
      (∀ r, t.c.getV r = if r = d then v else s.c.getV r) ∧ t.c.streams = s.c.streams ∧ t.c.fpctl = s.c.fpctl ∧
      t.c.fpstat = s.c.fpstat ||| BitVec.ofNat 64 (s.c.inflight.getD 0) ∧ t.c.inflight = some flags ∧
      t.c.asid = s.c.asid ∧ t.c.ptbase = s.c.ptbase ∧ t.c.fptbase = s.c.fptbase

/-! ## The coherence protocol -/

namespace Sys2Proof.Spec

/-- Nothing refuses, holds or repeats the message at its home: it goes to the protocol table at once. -/
abbrev PlainHome (s : State) (ev : Ev) (m : Msg) : Prop :=
  m.tag ≠ 3 ∧ m.tag ≠ 5 ∧ m.tag ≠ 7 ∧ m.tag ≠ 10 ∧ m.probe = false ∧ s.homeShort ev m = false ∧ farCtl m = false ∧ s.retired m.la = false ∧ s.paused m.la = false ∧
    (s.inFwRegion m.la = false ∨ 2 ≤ m.level) ∧ s.switching m.gpa = false ∧ s.duplicate ev m = none ∧
    (ev = .amor → s.partlyJournalled m = none) ∧ (s.tile (homeTile m.la)).journal.length < 4096 ∧
    (s.tile (homeTile m.la)).filter.length < 8192 ∧ (s.dir (m.la / 64)).pend = [] ∧ (s.dir (m.la / 64)).mirrors = [] ∧
    s.poisoned m.la = false ∧ (∀ w ∈ (s.tile (homeTile m.la)).fe, w.la / 8 ≠ m.la / 8)

/-- The message as the source of its request sees it, with what only that source knows (R284). -/
abbrev seen (s : State) (m : Msg) : Msg := ((s.asked m).map (fun o => o.own m)).getD m

/-- The answers of a context that waits with the access `w`. -/
abbrev Waits (s : State) (own : Src) (w : Wait) : Prop :=
  s.latch ≠ some own ∧ own.agent = 0 ∧ (s.ctx own.gcid (own.seq % 256)).wait = some w ∧ w.tag = own.seq / 256 ∧ w.got = none

end Sys2Proof.Spec

/-- R246, R247: an event at its home under a defined entry puts the line into the entry's next state, and no other line's;
memory changes only under the actions that write it. -/
def Obligations.HomeTransitions : Prop :=
  ∀ (s : State) (i : Instr) (ev : Ev) (m : Msg) (img : List Byte),
    (i, ev) ∈ [(Instr.gets, Ev.gets), (.getx, .getx), (.putr, .putr), (.wbr, .wbr), (.uread, .uread), (.uwrite, .uwrite),
      (.amor, .amor), (.dropr, .dropr), (.recall, .recall), (.putn, .putn), (.dath, .dath), (.ackh, .ackh)] →
    s.arg.body = .msg m → PlainHome s ev m → s.image (s.rangeSlot (homeTile m.la) m.gpa) = some img →
    let ln := m.la / 64
    let d := s.dir ln
    let attr := imgAttr img false d.st
    let e := imgEntry img false d.st ev.code
    entDisp e = 0 → (ev = .putr ∨ ev = .wbr → d.owner = some m.agent) →
    (ev = .recall → (attrOwnv attr = true ∧ d.owner ≠ none) ∨ (attrShv attr = true ∧ d.sharers ≠ [])) →
    (ev = .getx ∨ ev = .uwrite → attrSame attr = false ∨ m.bytes = []) →
    (ev = .dath ∨ ev = .ackh → d.count = 1 ∧ m.toAgent = false) → (ev = .dath → m.cause ≠ 0x12) →
    (ev = .dropr → s.rangeSlot (homeTile m.la) m.gpa < 6) →
    ∃ t, exec i s = .next t ∧ (t.dir ln).st = entNext e ∧ (t.dir ln).pend = [] ∧ (∀ l, l ≠ ln → t.dir l = s.dir l) ∧
      t.agents = s.agents ∧ t.images = s.images ∧
      (0x0C ∉ entActs e → 0x12 ∉ entActs e → ∀ a, mget 0 t.dram a = mget 0 s.dram a)

/-- R246, R249: an event at an agent that holds the image of the line, under a defined entry, puts the agent's line into the
entry's next state; memory and the directories stay. A response is one that its source awaits, and one that installs a line
finds room in the slice (R226), which has a way in service (R348). -/
def Obligations.AgentTransitions : Prop :=
  ∀ (s : State) (i : Instr) (ev : Ev) (m : Msg) (img : List Byte),
    (i, ev) ∈ [(Instr.inv, Ev.inv), (.rcls, .rcls), (.rcli, .rcli), (.upd, .upd), (.putg, .putg), (.disc, .disc),
      (.dats, .dats), (.datx, .datx), (.datu, .datu), (.ack, .ack)] →
    s.arg.body = .msg m → s.image m.slot = some img → s.protid m.slot = m.protid →
    let q := seen s m
    let tile := m.dst % 64
    let g := m.gpa / 64
    let a := s.agent tile g
    let e := imgEntry img true a.st ev.code
    entDisp e = 0 → a.missq = [] → a.held = [] → g < 2 ^ 50 → s.passThrough tile = false →
    (ev ∈ [Ev.putg, .dats, .datx, .datu, .ack] → (s.asked m).isSome = true) →
    (ev ∈ [Ev.dats, .datx, .datu, .ack] → q.tag ≠ 2 ∧ q.tag ≠ 3 ∧ q.tag ≠ 4 ∧ q.tag ≠ 6 ∧
      ∀ r, a.access q = some r → r.noInstall = false ∧ (ev = .ack → m.val ≤ r.acksGot)) →
    (s.installs tile ev q = true → (s.roomFor tile g (s.remoteLine tile q.home q.la)).1 = true) →
    (ev ∈ [Ev.inv, .rcls, .rcli, .upd, .putg, .disc] → a.pends .gets = false ∧ a.pends .getx = false) →
    ∃ t, exec i s = .next t ∧ (t.agent tile g).st = entNext e ∧ t.dirs = s.dirs ∧ t.dram = s.dram ∧
      (ev ∉ [Ev.dats, .datx, .datu] → ∀ k, k ≠ agentKey tile g → mget {} t.agents k = mget {} s.agents k)

/-- R81, R318, R229, R80: how an access of a waiting head ends: data complete the head; a refused request is sent again
after its backoff, under its number; a fault waits for the head's next issue. An access that the agent's table refused is
presented again after its backoff. A full-empty access whose limit is over is asked back from its home, which withdraws it, the
core asking again every 50 microseconds until there is an answer (DEDUCED, log entry 67); one that has not left the core ends at
once, and so does a RECV. An operation in flight with no store left completes. -/
def Obligations.WaitingAccessesEnd : Prop :=
  ∀ (s : State) (m : Msg) (o : Outst) (w : Wait) (ty : MTy),
    let r := o.own m
    let core := r.own.gcid
    let id := r.own.seq % 256
    let mine := s.ctx s.arg.x s.arg.y
    (s.arg.body = .msg m → s.asked m = some o →
      (r.tag = 2 → Waits s r.own w →
        (w.rk = .load ty → r.op = none → ∃ t, exec .datu s = .next t ∧
          (t.ctx core id).getX w.d = (if w.d = 0 then 0 else ty.conv (leNat ((m.data.drop r.off).take r.len))) ∧
          (t.ctx core id).pc = w.next ∧ (t.ctx core id).wait = none) ∧
        (w.rk ≠ .memo → w.rk ≠ .store → ∃ t, exec .flt s = .next t ∧
          (t.ctx core id).wait = some { w with kind := .response, what := core, got := some (.fail m.cause) } ∧
          (t.ctx core id).pc = (s.ctx core id).pc ∧ t.dram = s.dram)) ∧
      (∀ ev q, o.pkt.body = .coh ev q → ∃ t, exec .nack s = .next t ∧ t.dram = s.dram ∧ t.dirs = s.dirs ∧
        t.timers = s.timers ++
          [(s.now + 64 * 2 ^ Nat.min q.tries 7, .backoffExpire, { x := o.id, y := o.stamp + 1, flag := true })])) ∧
    (∀ e, s.arg.flag = true → s.outst.find? (fun o => o.id = s.arg.x && o.stamp = s.arg.y) = some e →
      exec .backoffExpire s = .next (s.sendAfterBackoff e)) ∧
    (mine.wait = some w →
      (w.kind = .backoff → w.tag = s.arg.z → s.arg.flag = false → ∃ t, exec .backoffExpire s = .next t ∧
        (t.ctx s.arg.x s.arg.y).wait = some { w with got := some .refused } ∧
        ∀ k, k ≠ ctxKey s.arg.x s.arg.y → mget {} t.ctxs k = mget {} s.ctxs k) ∧
      (w.since = s.arg.z → w.got = none →
        (w.kind = .fullEmpty ∨ w.kind = .response → exec .waitlimExpire s =
          .next (s.post .feWithdraw { x := s.arg.x, y := s.arg.y, z := w.tag })) ∧
        (w.kind = .backoff ∨ w.kind = .own → ∃ t, exec .waitlimExpire s = .next t ∧ (t.ctx s.arg.x s.arg.y).wait =
          some { w with kind := .response, got := some (.fail 0x0C) }) ∧
        (w.kind = .recv → ∃ t, exec .waitlimExpire s = .next t ∧ (t.ctx s.arg.x s.arg.y).wait =
          some { w with kind := .response, thr := 0, got := some (.fail 0x0D) }))) ∧
    (∀ e q, s.outst.findSome? (fun o =>
        (o.feMsg.filter (fun m => m.own = ⟨s.arg.x, 0, 256 * s.arg.z + s.arg.y⟩)).map (fun m => (o, m))) = some (e, q) →
      s.backingOff e = false → exec .feWithdraw s = .next ((s.sendMsg q.home (homeTile q.la) .amor { q with tag := 7 }).after
        retryTime .feWithdraw s.arg)) ∧
    (∀ f, s.arg.body = .msg m → m.tag = 7 →
      (s.tile (homeTile m.la)).fe.find? (fun w => w.msg.own = m.own && w.msg.agent / 64 = m.agent / 64) = some f →
      exec .amor s = .next (((s.feDiscard f).reply .flt { m with cause := 0x0C, tag := 4 }).feLeft f.la)) ∧
    (mine.uid = s.arg.z → mine.pob = false → mine.rest = [] → s.holds s.arg.x s.arg.y = true →
      ∃ t, exec .vectorOpComplete s = .next t ∧
      (t.ctx s.arg.x s.arg.y).fpstat = mine.fpstat ||| BitVec.ofNat 64 (mine.inflight.getD 0) ∧
      (t.ctx s.arg.x s.arg.y).inflight = none ∧ (t.ctx s.arg.x s.arg.y).v = mine.v)

/-- R259: PRSET_SWITCH of a binding that nothing delays and whose lines record no copy: every line of the range enters state
0, every home of the range binds it to the slot, and the requests that were held are presented. -/
def Sys2Proof.Spec.RangeSwitched : Prop :=
  ∀ (s : State) (p : PrsetRun), s.prsets.find? (fun q => q.id = s.arg.x) = some p → s.prsetReady p = true →
    (∀ e ∈ s.busyLines p.base p.k, s.lineRecorded e.2 (s.lineSlot e.1 e.2.gpa) = false) →
    ∃ t, exec .prsetSwitch s = .next t ∧ t.prsets = s.prsets.filter (fun q => q.id != p.id) ∧
      (∀ e ∈ s.busyLines p.base p.k, t.dir e.1 = {}) ∧
      (∀ l, (∀ e ∈ s.busyLines p.base p.k, e.1 ≠ l) → t.dir l = s.dir l) ∧
      ((s.prsetHomes p).Nodup → ∀ h ∈ s.prsetHomes p, (t.tile h).ranges =
        numberEntries (rebind (s.holdsRange h) ((s.tile h).ranges.map Prod.snd) p.slot p.base p.k)) ∧
      (∀ it ∈ t.held, it ∈ s.held) ∧ (∀ it ∈ s.held, it ∈ t.held ∨ it ∈ t.agenda) ∧ t.dram = s.dram ∧ t.images = s.images

/-- ProtocolLoaded, RangeBinding, PartitionDrained and RangeSwitched, stated above. -/
def Obligations.RangesAndPartitions : Prop :=
  ProtocolLoaded ∧ RangeBinding ∧ PartitionDrained ∧ RangeSwitched

/-! ## Task events -/

/-- R144 to R147, R152, R285: packets and messages at the cores that they reach. -/
def Obligations.PacketsArrive : Prop :=
  ∀ (s : State) (p : Packet), s.arg.body = .packet p →
    let src := gcidCore p.sender
    let seq := wbits (wd p.words 1) 63 44
    (s.knownPacket p = false → s.drainedPacket p = false →
      (∀ n, s.arrivalCore p = some n → s.inboxFull n p.prio = false → ∃ t e, exec .packetArrive s = .next t ∧
        (t.core n).inbox = (s.core n).inbox ++ [e] ∧ e.p = { p with dest := s.gcid n } ∧ e.prio = p.prio ∧ e.at_ = s.now ∧
        (t.core n).messages = (s.core n).messages ∧ t.dram = s.dram ∧ t.lmem = s.lmem ∧
        (p.prio = 0 → ∀ k id w, k < 4 → (s.slot n k).ctx = some id → (s.ctx n id).wait = some w → w.kind = .wfi →
          (t.ctx n id).wait = some { w with got := some (.data 0) })) ∧
      (s.arrivalCore p = none → p.kind = .spawn → gcidCube p.sender = s.self →
        exec .packetArrive s = .next (s.post .bounceReturn { body := .packet { p with words := markWords p.words 1 } }))) ∧
    (∀ b, (s.core src).bounce.find? (fun b => wd b.p.words 1 = wd p.words 1 && !b.back) = some b →
      (b.dead = false → ∃ t, exec .bounceReturn s = .next t ∧
        { b with p := p, back := true, ord := s.serial } ∈ (t.core src).bounce ∧
        (t.core src).bounce.length = (s.core src).bounce.length ∧ t.agenda = s.agenda) ∧
      (b.dead = true → exec .bounceReturn s = .next (s.updCore src (fun c => c.freeBounce b)))) ∧
    (∀ l w, p.kind = .send l w → s.knownPacket p = false → s.drainedPacket p = false → gcidCube p.sender = s.self →
      let n := gcidCore p.dest
      s.fenced n = false → s.inColumn n = false → (∃ q, s.partOfAsid p.asid = some q ∧ s.partMember q n = true) →
      (s.inboxFull n 4 = false → ∃ t k, exec .sendMessageArrive s = .next t ∧
        (t.core n).messages = (s.core n).messages ++ [k] ∧ k.words = p.words ∧ k.asid = p.asid ∧ k.sender = p.sender ∧
        k.completion = false ∧
        .event .sendAnswer { x := src, y := p.ctx, z := 0, val := BitVec.ofNat 64 seq } ∈ t.agenda) ∧
      (s.inboxFull n 4 = true → exec .sendMessageArrive s =
        .next (s.post .sendAnswer { x := src, y := p.ctx, z := 1, val := BitVec.ofNat 64 seq }))) ∧
    (exec .continuationResend s = .next (s.sendPacket p)) ∧
    (∀ tile n h, p.kind = .cont tile 0 n → (s.homeCore (p.ctx / 4) p.asid).map s.gcid = some h → h ≠ p.dest →
      exec .continuationReturned s =
        .next (s.sendPacket { p with words := markWords p.words 1, dest := h, kind := .cont tile 1 n })) ∧
    (∀ tile n q, p.kind = .cont tile 2 n → s.partOfAsid p.asid = some q →
      exec .continuationReturned s = .next (s.after (64 * 2 ^ Nat.min n 7) .continuationResend
        { body := .packet { p with words := markWords p.words 1, dest := s.gcid (s.partKcore q), kind := .cont tile 2 (n + 1) } })) ∧
    (∃ t, exec .dispatcherHoldExpire s = .next t ∧
      (t.tile s.arg.x).received = (s.tile s.arg.x).received.filter (fun e => e.1 != s.arg.y))

/-- R183, R194, R306: the dispatcher starts the packet that R194 chooses: its context runs in the free slot from the packet's
PC with its registers; it resumes a ready context in a free slot at the level that the context left. R188: parking frees
the slot of the context chosen. R193: ageing moves entries to the next more urgent priority. -/
def Sys2Proof.Spec.Scheduling : Prop :=
  ∀ (s u : State) (e : Entry) (k id r : Nat),
    let n := s.arg.x
    (s.arg.y = 0 → s.drainedFront n = none → s.freeSlot n = some k → s.candidate n none = some (.packet e) → (s.freeId n).isSome = true → s.drainedPacket e.p = false →
      s.scalarRoom n = (true, s) → s.bindAsid (dispatchWho n e.p.asid none) e.p.asid = .ok (some r) u → u.freeId n = some id →
      wbits (wd e.p.words 0) 59 57 = 0 → (∀ q l, e.p.kind ≠ .launch q l) →
      ∃ t, exec .dispatch s = .next t ∧ (t.slot n k).ctx = some id ∧
        (t.slot n k).level = (if u.inColumn n then 2 else if e.prio = 0 then 1 else 0) ∧
        (t.ctx n id).pc = ((wd e.p.words 0).extractLsb' 0 57).signExtend 64 ∧ (t.ctx n id).asid = e.p.asid ∧
        (t.ctx n id).ptbase = BitVec.ofNat 64 r ∧ (t.ctx n id).prio = e.prio ∧ (t.ctx n id).st = .running ∧
        (∀ j, 10 ≤ j → j ≤ 15 → (t.ctx n id).getX (BitVec.ofNat 5 j) = wd e.p.words (j - 8)) ∧
        (t.core n).inbox = (u.core n).inbox.erase e) ∧
    (s.arg.y = 0 → s.drainedFront n = none → s.freeSlot n = some k → s.candidate n none = some (.ready id) → (s.ctx n id).sbank = .resident →
      ∃ t, exec .dispatch s = .next t ∧ (t.slot n k).ctx = some id ∧ (t.slot n k).level = (s.ctx n id).lvl ∧
        (t.ctx n id).st = .running ∧ (t.ctx n id).pc = (s.ctx n id).pc ∧ (t.ctx n id).x = (s.ctx n id).x ∧ t.dram = s.dram) ∧
    (s.demand n = true → s.parkChoice n = some (k, id) → ∃ t, exec .park s = .next t ∧ (t.ctx n id).st = .parked ∧
      (t.slot n k).ctx = none ∧ (t.ctx n id).x = (s.ctx n id).x ∧ (t.ctx n id).wait = (s.ctx n id).wait ∧
      (∀ j, j ≠ slotKey n k → mget {} t.slots j = mget {} s.slots j)) ∧
    (∃ t, exec .inboxAging s = .next t ∧
      (t.core n).inbox = (s.core n).inbox.filter (fun e => !(decide (2 ≤ e.prio) && decide (e.at_ + 65536 ≤ s.now))) ++
        ((s.core n).inbox.filter (fun e => decide (2 ≤ e.prio) && decide (e.at_ + 65536 ≤ s.now))).map (fun e =>
          { e with prio := e.prio - 1, at_ := s.now }))

/-- R315 to R317, R283: interrupts. A slot that takes a source saves the PC, the cause word with bit 63, its SUB and the value,
and goes to the kernel's vector at kernel level with IE clear; the event leaves the queue. KTIMER_EXPIRE stores nothing: source 1
is pending while KTIMER is not zero and not above CYCLE. An event that the agents hold enters the queue when there is room. -/
def Sys2Proof.Spec.Interrupts : Prop :=
  ∀ (s : State) (src id : Nat) (e : CoreEvent) (rest : List CoreEvent),
    let n := s.arg.x
    let k := s.arg.y
    let code := if src = 0 then 0x11 else if src = 1 then 0x20 else if src = 2 then 0x21 else if src = 3 then 0x22 else 0x23
    (s.takeable n k = some (src, some e) → (s.slot n k).ctx = some id → (s.ctx n id).wait = none →
      ∃ t, exec .interruptTake s = .next t ∧ (t.slot n k).level = 1 ∧ (t.slot n k).k.epc = (s.ctx n id).pc ∧
        (t.slot n k).k.cause = BitVec.ofNat 64 (2 ^ 63 + e.sub % 256 * 256 + code) ∧ (t.slot n k).k.tval = e.tval ∧
        (t.slot n k).k.status.getLsbD 0 = false ∧
        (t.slot n k).k.status.getLsbD 1 = (s.slot n k).k.status.getLsbD 0 ∧
        (t.ctx n id).pc = (s.core n).kvbase + BitVec.ofNat 64 (64 * code + 2) ∧ (t.ctx n id).x = (s.ctx n id).x ∧
        (t.core n).events = (s.core n).events.erase e ∧ (t.slot n k).f = (s.slot n k).f) ∧
    (exec .ktimerExpire s = .next s ∧
      (s.pendingSource n 1 = true ↔ (s.core n).ktimer ≠ 0 ∧ (s.core n).ktimer.toNat ≤ s.now)) ∧
    ((s.core n).eventsHeld = e :: rest → (s.core n).events.length < 32 → ∃ t, exec .eventReoffer s = .next t ∧
      (t.core n).events = (s.core n).events ++ [e] ∧ (t.core n).eventsHeld = rest ∧ ∀ j, j ≠ n → t.core j = s.core j) ∧
    (∃ t, exec .sequenceNumberReuse s = .next t ∧ ∀ i, i < 256 → (t.ctx n i).wait =
      (s.ctx n i).wait.map (fun w => if w.kind = .backoff ∧ w.tag = 0 then { w with got := some .refused } else w))

/-- Scheduling and Interrupts, stated above. -/
def Obligations.DispatchAndInterrupts : Prop :=
  Scheduling ∧ Interrupts

/-! ## Launches -/

/-- R199 to R209: the launch sequencer. A launch that fails its checks leaves its queue (DEDUCED, log entry 20), a completion
record is one store of 16 bytes (DEDUCED, log entry 21), and the task packets go core by core (DEDUCED, log entry 30). -/
def Obligations.LaunchEvents : Prop :=
  ∀ (s : State) (q : Nat) (d : LDesc) (r : LRun),
    (s.busyQueues.find? s.mustFail = none → s.starting = none → s.nextQueue = some q → s.frontLaunch q = some d →
      (∀ x ∈ (s.lq q).runs, x.desc.uid ≠ d.uid) → s.startBuf = [] → (∀ n ∈ rectCores d.rect, gcidCube (s.gcid n) = s.self) →
      ∃ t, exec .launchStart s = .next t ∧ (t.lq q).descs = (s.lq q).descs.drop 1 ∧
        (t.lq q).runs = (s.lq q).runs ++ [⟨d, rectSize d.rect, 0, false, false, []⟩] ∧
        t.agenda = s.agenda ++ (rectCores d.rect).map (fun n =>
          .event .packetArrive { body := .packet (s.launchPacketFor q d n) }) ∧
        (∀ j, j ≠ q → t.lq j = s.lq j) ∧ t.dram = s.dram) ∧
    (s.busyQueues.find? s.mustFail = some q → ∃ t, exec .launchStart s = .next t ∧ (t.lq q).stopped = true ∧
      (t.lq q).descs = (s.lq q).descs.drop 1 ∧ t.dram = s.dram) ∧
    (∀ b, s.startBuf.find? (fun b => b.1 = s.arg.x) = some b → s.reofferable s.arg.x = true →
      exec .startBufferReoffer s = .next ({ s with startBuf := s.startBuf.erase b }.sendPacket b.2.2.2)) ∧
    (s.arg.x = q → (s.lq q).runs.find? (fun x => x.desc.uid = s.arg.y) = some r →
      (r.desc.crec = 0 → ∃ t, exec .launchComplete s = .next t ∧
        (t.lq q).runs = (s.lq q).runs.filter (fun x => x.desc.uid != r.desc.uid) ∧ (t.lq q).elapsed = 0 ∧
        (t.lq q).descs = (s.lq q).descs ∧ t.dram = s.dram ∧ t.lmem = s.lmem ∧
        (r.desc.sinc ≠ 0 → (s.sem .cube r.desc.ssem).toNat + r.desc.sinc < 2 ^ 64 →
          t.sem .cube r.desc.ssem = s.sem .cube r.desc.ssem + BitVec.ofNat 64 r.desc.sinc)) ∧
      (∀ tg v u, r.desc.crec ≠ 0 → (∀ c, tg ≠ .fail c) →
        s.storeAt (r.desc.who s.arg) { kind := .store } r.desc.crec 16 (leBytes 8 r.desc.id ++ leBytes 8 r.total) .memo =
          .ok (tg, .data v) u → ∃ t, exec .launchComplete s = .next t ∧
          (t.lq q).runs = (u.lq q).runs.filter (fun x => x.desc.uid != r.desc.uid) ∧ t.dram = u.dram ∧ t.lmem = u.lmem)) ∧
    (s.arg.x = q → s.lqLimit q ≠ 0 → s.lqLimit q ≤ s.lqElapsed q → (s.lq q).runs ≠ [] → (s.lq q).stopped = false →
      s.arg.z = (s.lq q).stamp → ∃ t, exec .watchdogExpire s = .next t ∧ (t.lq q).stopped = true ∧
        (t.lq q).elapsed = s.lqElapsed q ∧ (t.lq q).runs = (s.lq q).runs ∧
        (∀ n, s.kcoreOf (s.queuePart q) = some n → (s.core n).events.length < 32 →
          (t.core n).events = (s.core n).events ++ [{ source := 2, sub := 1, tval := BitVec.ofNat 64 q, slot := 0 }])) ∧
    (s.arg.x = q → ∃ t, exec .lqReset s = .next t ∧ (t.lq q).descs = [] ∧ (t.lq q).runs = [] ∧ (t.lq q).pushes = 0 ∧
      (t.lq q).stopped = false ∧ (t.lq q).elapsed = 0 ∧
      t.startBuf = s.startBuf.filter (fun e => !(e.2.1 = q && (s.startingIds q).contains e.2.2.1)) ∧
      (∀ j, j ≠ q → t.lq j = s.lq j) ∧ t.ctxs = s.ctxs)

/-! ## The engines -/

/-- R113, R116, R118: an engine command's head that is accepted joins its queue with its captured values, and the head
completes; one that breaks a rule of acceptance traps with cause 0x11, SUB 1 and the reason; one that finds its queue full
waits. A TCOPY is accepted where both addresses are multiples of 16. -/
def Obligations.EngineCommandsAccepted : Prop :=
  ∀ (s : State) (acc w : Bool) (d a b : Reg) (wt : EWait) (sg : ESignal) (i : Instr) (op : Nat) (rd rb : Reg) (s0 s1 : Bool),
    (i, op, rd, rb, s0, s1) ∈ [(Instr.mma acc w d a wt sg, 0x40, d, 0, acc, w), (.amzero acc a wt sg, 0x41, 0, 0, acc, false),
      (.amin acc d a wt sg, 0x42, d, 0, acc, false), (.amout acc d a wt sg, 0x43, d, 0, acc, false),
      (.amoutClr acc d a wt sg, 0x43, d, 0, acc, true), (.tcopy d a b wt sg, 0x44, d, b, false, false),
      (.tcopyw w d a b wt sg, 0x45, d, b, w, false), (.tgath d a b wt sg, 0x46, d, b, false, false),
      (.tfill d a b wt sg, 0x47, d, b, false, false), (.cred d a b wt sg, 0x48, d, b, false, false),
      (.cmcast d a b wt sg, 0x49, d, b, false, false)] →
    Ready s [.x rd, .x a, .x rb, .x wt.reg] [] →
    let r := acceptReason op (s.getX rd) (s.getX a) (s.getX rb)
    (r ≠ 0 → exec i s = .next (s.trapFull 1 0x11 s.c.pc (BitVec.ofNat 64 r))) ∧
    (r = 0 → s.queueFull s.clu (queueOf op) = true →
      exec i s = .next (s.stall { kind := .engineQueue, what := queueOf op })) ∧
    (r = 0 → s.queueFull s.clu (queueOf op) = false → ∃ t c, exec i s = .next t ∧ t.c.pc = s.c.nextPc ∧ t.c.x = s.c.x ∧
      (t.cluster s.clu).cmds = (s.cluster s.clu).cmds ++ [c] ∧ c.num = (s.cluster s.clu).accNum ∧
      (t.cluster s.clu).accNum = ((s.cluster s.clu).accNum + 1) % 2 ^ 64 ∧ c.op = op ∧ c.vd = s.getX rd ∧
      c.va = s.getX a ∧ c.vb = s.getX rb ∧ c.vc = s.getX wt.reg ∧ c.sel0 = s0 ∧ c.sel1 = s1 ∧ c.sig = sg ∧
      c.core = s.cur.core ∧ c.ctx = s.cur.ctx ∧ c.slot = s.cur.slot ∧ c.asid = s.c.asid ∧ c.level = s.level ∧ c.st = .queued ∧
      t.lmem = s.lmem ∧ t.dram = s.dram) ∧
    (op = 0x44 → (r = 0 ↔ (s.getX rd).toNat % 16 = 0 ∧ (s.getX a).toNat % 16 = 0))

/-- R137 to R139, R114, R136, R328, R329, R121: ESTAT, ECANCEL and ERESUME, the start of a command, its fault and record, and the
delivery of a message that waited. A matrix command that starts after the spare rows are used up faults (R348). The 8 cycles from
the start to the first part are the model's number (R140 leaves timing open; DESIGN CHOICE, log entry 75). -/
def Obligations.EngineControl : Prop :=
  ∀ (s : State) (d a b : Reg) (n : BitVec 3) (q : Nat) (c : Cmd) (f : EFault),
    let x := s.getX a
    let cl := s.arg.x
    let K := s.cluster s.clu
    (Ready s [.x a] [.x d] →
      (x.toNat % 4 = 3 → ∃ v : Word, Gives (.estat d a b) s d v ∧
        ∀ j, j < 64 → v.getLsbD j = (decide (j < 8) && K.efrec.any (fun e => e.1 = j))) ∧
      (∀ j, j < 3 → x.toNat % 4 = j → (K.cmds.filter (fun c => queueOf c.op = j && !c.final)).length < 256 →
        ∃ v : Word, Gives (.estat d a b) s d v ∧
          (v.extractLsb' 8 8).toNat = (K.cmds.filter (fun c => queueOf c.op = j && !c.final)).length ∧
          v.getLsbD 0 = K.cmds.any (fun c => queueOf c.op = j && c.st = .running) ∧
          v.getLsbD 2 = K.cmds.any (fun c => queueOf c.op = j && c.st = .faulted))) ∧
    (Ready s [.x a] [] →
      ((∀ c ∈ K.cmds, c.core = s.cur.core → c.asid = s.c.asid → x.getLsbD (queueOf c.op) = false) →
        exec (.ecancel a b) s = .next s.advance) ∧
      (K.cmds = [c] → K.efrec = [] → x.getLsbD (queueOf c.op) = true → c.core = s.cur.core → c.asid = s.c.asid → c.st = .queued →
        c.sig = none → ∃ t, exec (.ecancel a b) s = .next t ∧ (t.cluster s.clu).cmds = [] ∧ t.c.pc = s.c.nextPc ∧
          t.c.x = s.c.x ∧ t.lmem = s.lmem ∧ t.dram = s.dram)) ∧
    (1 ≤ s.level →
      (K.efrec.find? (fun e => e.1 = n.toNat) = none → exec (.eresume n) s = .next (s.trapFull 1 0x11 s.c.pc 0x07)) ∧
      (∀ k ws, K.efrec.find? (fun e => e.1 = n.toNat) = some (k, ws, c) → s.cmd s.clu c.num = some c →
        (wd ws 0).getLsbD 62 = true → ∃ t, exec (.eresume n) s = .next t ∧
          (t.cluster s.clu).cmds = { c with st := .queued, passed := true } :: K.cmds.filter (fun o => o.num != c.num) ∧
          (t.cluster s.clu).efrec = K.efrec.filter (fun e => e.2.2.num != c.num) ∧ t.c.pc = s.c.nextPc ∧ t.lmem = s.lmem)) ∧
    (s.engineReady cl s.arg.y = true → s.frontCmd cl s.arg.y = some c → ∃ t, exec .engineCommandStart s = .next t ∧
      (t.cluster cl).cmds = (s.cluster cl).cmds.map (fun o =>
        if o.num = c.num then { o with st := .running, passed := true } else o) ∧
      t.lmem = s.lmem ∧ t.dram = s.dram ∧
      ((s.cluster cl).matrixOff = false ∨ 0x44 ≤ c.op →
        t.timers = s.timers ++ [(s.now + 8, .engineCommandComplete, { x := cl, y := c.num })]) ∧
      ((s.cluster cl).matrixOff = true → c.op ≤ 0x43 → ∃ g, g.cause = 0x12 ∧
        .event .engineFault { x := cl, y := c.num, body := .fault g } ∈ t.agenda)) ∧
    (s.cmd cl s.arg.y = some c → s.arg.body = .fault f → c.st = .running → c.fault = none → c.stopping = false → s.recordSlot cl = some q →
      ∃ t, exec .engineFault s = .next t ∧
        (t.cluster cl).efrec = (s.cluster cl).efrec ++ [(q, c.record (s.gcid c.core) f,
          { c with st := .faulted, fault := none, cursor := f.cursor })] ∧
        ((s.core c.core).events.length < 32 → (t.core c.core).events = (s.core c.core).events ++
          [{ source := 0, sub := 2, tval := BitVec.ofNat 64 (2 ^ 63 + q), slot := c.slot, mark := c.num + 1 }]) ∧ t.dram = s.dram) ∧
    (s.recordWaiter cl = some (c, f) → c.stopping = false → s.recordSlot cl = some q →
      ∃ t, exec .engineRecordWrite s = .next t ∧
        (t.cluster cl).efrec = (s.cluster cl).efrec ++ [(q, c.record (s.gcid c.core) f,
          { c with st := .faulted, fault := none, cursor := f.cursor })]) ∧
    (∀ e, s.pendingNext cl = some e → s.fenced e.1 = false → (s.cluster cl).cmds = [] →
      ∃ t, exec .pendingMessageDeliver s = .next t ∧ (t.cluster cl).pending = (s.cluster cl).pending.erase e ∧
        (t.core e.1).messages = (s.core e.1).messages ++ [e.2] ∧ t.dram = s.dram)

/-- R124 to R128: ENGINE_COMMAND_COMPLETE of a running command: its next row or chunk is done. A row of AMZERO clears its
words; a row of MMA gives the words of R124 from the row of A in local memory; a copy writes the bytes of its chunk. A command
whose parts are done is final. One that runs when its engine's last spare row goes (R348) goes on. -/
def Obligations.EngineWork : Prop :=
  ∀ (s : State) (c : Cmd),
    let cl := s.arg.x
    let row := mwRow0 c.va + c.cursor
    let t := etyOf (mwType c.va)
    let rb := 16 * t.width
    let off := c.vd.toNat + rb * c.cursor - 0x7F0000000000
    let A := fun (u : State) => (u.cluster cl).acc c.sel0
    let next := fun (u : State) => ∃ o, (u.cluster cl).cmds.find? (fun o => o.num = c.num) = some o ∧ o.cursor = c.cursor + 1 ∧
      o.done = c.done + 1
    s.cmd cl s.arg.y = some c → c.num = s.arg.y → c.st = .running → c.fault = none → c.stopping = false →
    (c.op ≤ 0x43 → c.cursor + 1 < mwRows c.va →
      (c.op = 0x41 → ∃ u, exec .engineCommandComplete s = .next u ∧ next u ∧
        (∀ j, j < 128 → (A u).word row j = 0) ∧ (∀ r j, j < 128 → r ≠ row → (A u).word r j = (A s).word r j) ∧
        u.lmem = s.lmem ∧ u.dram = s.dram) ∧
      (c.op = 0x40 → mwMx c.va = false → s.rowBlocked cl c off rb = false → ((s.cluster cl).warr c.sel1).badRows = [] →
        (A s).isBad row 0 128 = false → (∀ w ∈ lmemWords cl off rb, s.lmemBad.lookup w = none) → s.injArmed = false →
        ∃ u, exec .engineCommandComplete s = .next u ∧ next u ∧
          (∀ j, j < 128 → (A u).word row j = mmaWord t false
            (rowElems t ((List.range rb).map (fun i => mget 0 s.lmem (cl * 0x80000 + off + i)))) []
            ((s.cluster cl).warr c.sel1) ((A s).word row j) j) ∧
          (∀ r j, j < 128 → r ≠ row → (A u).word r j = (A s).word r j) ∧ u.lmem = s.lmem ∧ u.dram = s.dram)) ∧
    (0x44 ≤ c.op → c.op ≤ 0x47 → c.cursor + 1 < chunksOf c.total → ∀ u k, s.copyChunk cl c c.cursor = .ok none u →
      u.cmd cl c.num = some k → k.cursor = c.cursor → k.stopping = false →
      ∃ v, exec .engineCommandComplete s = .next v ∧ v.cmd cl c.num = some { k with cursor := c.cursor + 1 } ∧
        v.dram = u.dram ∧ v.lmem = u.lmem) ∧
    (c.op ≤ 0x43 → mwRows c.va ≤ c.cursor → c.sig = none → ∃ u, exec .engineCommandComplete s = .next u ∧
      (u.cluster cl).cmds = (s.cluster cl).cmds.filter (fun o => o.num != c.num) ∧ u.lmem = s.lmem ∧ u.dram = s.dram)

/-! ## The fabric -/

/-- R276, R280, R282, R285, R287, R288: PACKET_ROUTE at router x. A packet that is 100 µs old (400,000 cycles) is discarded; a
task packet for this cube that the peer table admits arrives; a packet for another cube takes the port that routing chooses; a
request without a path is answered with cause 0x09; two 64-bit adds that want no reply combine where one of them is queued. -/
def Sys2Proof.Spec.PacketsAreRouted : Prop :=
  ∀ (s : State) (np q : NetPkt) (p : Packet) (o n : Nat) (m k : Msg) (a b : Nat), s.arg.body = .net np →
    let r := s.arg.x
    let far := gcidCube np.dest ≠ s.self
    let np1 : NetPkt := { np with inp := s.arg.z }
    (400000 ≤ np.age → exec .packetRoute s = .next s) ∧
    (np.age < 400000 → gcidCube np.src.gcid ≠ s.self → r = 64 → np.cls = 0 →
      (np.body = .task p → p.kind = .spawn → ¬far → s.refusedHere np = false →
        exec .packetRoute s = .next (s.post .packetArrive { body := .packet p })) ∧
      (np.body = .coh .gets m → far → s.routePort np = none →
        exec .packetRoute s = .next (s.reply .flt { m with cause := 0x09 }))) ∧
    (np.age < 400000 → np.cls = 2 → NetPkt.amo np = none → r = 64 → far → s.routePort np = some o → NetPkt.flits np ≤ 8 →
      s.portLinked o = true → s.portTesting o = false → (s.port o).queue = [] → (s.port o).unacked.length < 128 →
      ∃ t, exec .packetRoute s = .next t ∧ (t.port o).queue = [] ∧ (t.port o).txSeq = ((s.port o).txSeq + 1) % 4096 ∧
        (t.port o).unacked = (s.port o).unacked ++
          [((s.port o).txSeq, [{ np1 with vc := np.vc / 2 * 2 + s.datelineBit np1 o }])] ∧
        t.agenda = s.agenda ∧ t.dram = s.dram) ∧
    (np.age < 400000 → ¬far → s.refusedHere np = false → s.combines r = true →
      np.body = .coh .amor m → m.op = some (.amo .add true a) → silent m = true →
      s.partner r np = some (n, q) → q.body = .coh .amor k → k.op = some (.amo .add true b) → silent k = true →
      ∃ t, exec .packetRoute s = .next t ∧ t.agenda = s.agenda ∧ t.dram = s.dram ∧ (t.router r).recs = (s.router r).recs ∧
        (t.router r).queue = (s.router r).queue.map (fun e => if e.1 = n then (n, { q with body := (.coh .amor
          { k with op := some (.amo .add true ((b + a) % 2 ^ 64)), cons := k.constituents ++ m.constituents }) }) else e))

/-- R290, R292, R293: DECOMBINE of a reply with the value v gives the first part v and the second v plus the first part's
operand; JOURNAL_SPLIT answers every part of a journal entry that wants a reply. -/
def Sys2Proof.Spec.CombinedReplies : Prop :=
  ∀ (s : State) (m : Msg) (c : CombRec) (j : JEntry), s.arg.body = .msg m →
    let r := s.arg.x
    let part := fun (k : Src) (v : Nat) => Item.event .datu { body := (.msg
      { m with src := k, agent := k.agentId, dst := k.agentId, ret := 127, val := v, cons := [] }) }
    let single := fun (k : Src) (v : Nat) => Item.event .datu { body := (.msg
      { m with src := k, dst := k.agentId, val := v, ret := 127, cons := [] }) }
    (s.arg.y = Ev.datu.code → (s.router r).recs.find? (fun c => c.id = m.src && c.n = m.ret / 2 ^ 21) = some c →
      c.w64 = true → c.reply1 = true → c.reply2 = true → c.ret1 = 127 → c.ret2 = 127 → c.part1.agentId / 64 = s.self →
      c.part2.agentId / 64 = s.self →
      ∃ t, exec .decombine s = .next t ∧ (t.router r).recs = (s.router r).recs.filter (fun o => o.n != c.n) ∧
        t.dram = s.dram ∧ t.agenda = s.agenda ++
          [part c.part1 m.val, part c.part2 ((m.val + c.s1) % 2 ^ 64)]) ∧
    (r < 64 → (s.tile r).journal.find? (fun j => j.cons.any (fun c => c.1.src = m.src)) = some j →
      (∀ e ∈ j.cons, e.1.src.agentId / 64 = s.self) →
      ∃ t, exec .journalSplit s = .next t ∧ t.tiles = s.tiles ∧ t.dram = s.dram ∧
        t.agenda = s.agenda ++ (j.cons.filter (fun e => e.1.reply)).map (fun e => single e.1.src e.2))

/-- PacketsAreRouted and CombinedReplies, stated above. -/
def Obligations.PacketsAndReplies : Prop :=
  PacketsAreRouted ∧ CombinedReplies

/-- R280, R285, R286, R291, R292, R263, R264: what expires at a router, a tile or a port is gone; a held request goes on, to the
next router on its way (DEDUCED, log entry 72); the
combining registers are cleared and armed as their stores say. -/
def Sys2Proof.Spec.FabricExpiry : Prop :=
  ∀ (s : State) (n : Nat) (np : NetPkt) (m : Msg),
    let x := s.arg.x
    let v := s.arg.val
    let inj := cmbOff x + 16
    ((s.router x).queue.find? (fun e => e.1 = s.arg.y) = some (n, np) → gcidCube np.dest = s.self →
      np.body = .coh .amor m → (NetPkt.amo np).isSome = true →
      ∃ t, exec .holdExpire s = .next t ∧ (t.router x).queue = (s.router x).queue.filter (fun e => e.1 != n) ∧
        t.dram = s.dram ∧ (x = tileOf (np.dest % 16384) → t.agenda = s.agenda ++ [.event .amor { body := .msg m }]) ∧
        (x < 64 → x ≠ tileOf (np.dest % 16384) → t.agenda = s.agenda ++ [.event .packetRoute
          { x := (tilePath x (tileOf (np.dest % 16384))).getD 1 (tileOf (np.dest % 16384)), z := np.inp, body := .net np }])) ∧
    (∃ t, exec .recordExpire s = .next t ∧ (t.router x).recs = (s.router x).recs.filter (fun c => c.n != s.arg.y) ∧
      (t.router x).queue = (s.router x).queue ∧ ∀ k, k ≠ x → t.router k = s.router k) ∧
    (∃ t, exec .journalEntryExpire s = .next t ∧
      (t.tile x).journal = (s.tile x).journal.filter (fun j => j.n != s.arg.y) ∧ (t.tile x).filter = (s.tile x).filter ∧
      ∀ k, k ≠ x → t.tile k = s.tile k) ∧
    (∃ t, exec .requestFilterExpire s = .next t ∧
      (t.tile x).filter = (s.tile x).filter.filter (fun f => f.n != s.arg.y) ∧ (t.tile x).journal = (s.tile x).journal ∧
      ∀ k, k ≠ x → t.tile k = s.tile k) ∧
    (∃ t, exec .ageExpire s = .next t ∧ (t.port x).queue = (s.port x).queue.filter (fun e => e.1 != s.arg.y) ∧
      (t.port x).unacked = (s.port x).unacked ∧ ∀ k, k ≠ x → t.port k = s.port k) ∧
    (∀ since, (s.port x).queue.find? (fun e => e.1 = s.arg.y) = some (n, since, np) →
      s.routePort { np with vc := np.vc % 2 + 2 } = some x →
      ∃ t, exec .escapeTimeout s = .next t ∧ (t.port x).queue = (s.port x).queue.map (fun e =>
        if e.1 = n then (n, since, { np with vc := np.vc % 2 + 2 }) else e) ∧ t.agenda = s.agenda) ∧
    (∃ t, exec .cmbstatClear s = .next t ∧ t.csrAt (cmbOff x + 8) = 0 ∧
      ∀ o, o ≠ cmbOff x + 8 → t.csrAt o = s.csrAt o) ∧
    (∃ t, exec .cmbinjWrite s = .next t ∧ wbit (t.csrAt inj) 63 = wbit v 63 ∧ wbits (t.csrAt inj) 15 0 = wbits v 15 0 ∧
      wbit (t.csrAt inj) 62 = (wbit (s.csrAt inj) 62 && !wbit v 62) ∧ (t.router x).injCount = 0 ∧
      ∀ o, o ≠ inj → t.csrAt o = s.csrAt o)

/-- R284: RETRY_TIMEOUT: a request whose answer does not come is sent again, at most three times, each time after 50 µs; a
request that WAITING has answered is left. -/
def Sys2Proof.Spec.RequestsAreRetried : Prop :=
  ∀ (s : State) (o : Outst), s.outst.find? (fun o => o.id = s.arg.x && o.stamp = s.arg.y) = some o →
    (o.waiting = true → exec .retryTimeout s = .next s) ∧
    (o.waiting = false → o.resends = 3 → ∀ m, o.pkt.body = .coh .gets m → exec .retryTimeout s =
      .next (s.post .flt { body := .msg { m with dst := m.agent, cause := 0x12 } })) ∧
    (o.waiting = false → o.resends ≠ 3 →
      let o1 : Outst := { o with resends := o.resends + 1, stamp := o.stamp + 1 }
      ∃ t, exec .retryTimeout s = .next t ∧ t.outst = s.outst.map (fun e => if e.id = o.id then o1 else e) ∧
        t.timers = s.timers ++ [(s.now + 200000, .retryTimeout, { x := o.id, y := o.stamp + 1 })] ∧ t.dram = s.dram ∧
        (∀ p, o.pkt.body = .task p → t.agenda = s.agenda ++ [.event .packetRoute
          { x := 64, body := .net { o.pkt with age := 0, vc := 0 } }]) ∧
        (∀ m, o.pkt.body = .coh .gets m →
          (m.home = s.self → t.agenda = s.agenda ++ [.event .gets { body := .msg m }]) ∧
          (m.home ≠ s.self → t.agenda = s.agenda ++ [.event .packetRoute
            { x := 64, body := .net (cohPacket m.home (homeTile m.la) .gets m) }])))

/-- FabricExpiry and RequestsAreRetried, stated above. -/
def Obligations.FabricTime : Prop :=
  FabricExpiry ∧ RequestsAreRetried

/-! ## Collectives -/

/-- R280, R298, R301: COLLECTIVE_PACKET_ARRIVE. A packet whose time is over is discarded. With one input the root's result is the contribution. With the local member and one
child, the first contribution waits, and the second makes the root's result: the first input folded with the second. A result
that comes on the port toward the root is delivered. Packets that wait for a buffer are taken up again. -/
def Obligations.CollectiveContributions : Prop :=
  ∀ (s : State) (c d : CPkt) (p : Nat), s.arg.body = .coll c →
    let w := s.groupWord c.group
    let mine := fun (q : CollPart) => q.group = c.group && q.use = c.inst && q.index = c.index
    let rest := s.colls.filter (fun q => !mine q)
    (s.aged = true → exec .collectivePacketArrive s = .next s) ∧
    (s.aged = false → gwValid w = true → c.op ≠ 0xF → s.collDead c.group c.inst = none → s.collRoom c.group = true → s.held = [] →
      gwRoot w = true →
      (gwInputs w = [localPort] → c.port = localPort → s.colls.find? mine = none →
        ∃ t, exec .collectivePacketArrive s = .next t ∧ t.colls = rest ∧ t.dram = s.dram ∧
          t.agenda = s.agenda ++ [.event .collectiveResultDeliver { body := .coll c }]) ∧
      (gwInputs w = [localPort, p] → p < 12 →
        ((c.port = localPort ∨ c.port = p) → s.colls.find? mine = none →
          ∃ t, exec .collectivePacketArrive s = .next t ∧ t.agenda = s.agenda ∧
            t.colls = rest ++ [⟨c.group, c.inst, c.index, [c]⟩]) ∧
        (c.port = p → s.colls.find? mine = some ⟨c.group, c.inst, c.index, [d]⟩ → d.port = localPort → d.total = c.total →
          d.op = c.op → d.ty = c.ty → ∃ t, exec .collectivePacketArrive s = .next t ∧ t.colls = rest ∧
            t.agenda = s.agenda ++ [.event .collectiveResultDeliver
              { body := .coll { d with bytes := collNode c.op c.ty d.bytes c.bytes } }]))) ∧
    (s.aged = false → gwValid w = true → c.op ≠ 0xF → gwRoot w = false → c.port = gwUp w → (gwInputs w).contains c.port = false →
      exec .collectivePacketArrive s = .next (s.post .collectiveResultDeliver { x := s.arg.x, body := .coll c })) ∧
    (∃ t, exec .collectiveBufferFree s = .next t ∧ t.held = s.held.filter (fun i => !heldColl i) ∧
      t.agenda = s.agenda ++ s.held.filter heldColl ∧ t.colls = s.colls)

/-- R134, R299: COLLECTIVE_RESULT_DELIVER. Where no command of the local member takes it, a result of one packet that no child
takes ends the instance: INST advances. Where one does, it is written to the member and the semaphore of the command rises by 1.
R135, R300: CMCAST_PACKET_ARRIVE likewise; with no member and no child the sender's command goes on. -/
def Obligations.CollectiveDeliveries : Prop :=
  ∀ (s u : State) (c : CPkt) (x : Cmd), s.arg.body = .coll c →
    let w := s.groupWord c.group
    let cl := gwCluster w
    (gwValid w = true → s.collDead c.group c.inst = none →
      (s.credOf w c = none → gwDdown w = [] → c.total ≤ 256 →
        ∃ t, exec .collectiveResultDeliver s = .next t ∧ t.csrField (groupOff c.group + 8) 31 0 =
          (s.csrField (groupOff c.group + 8) 31 0 + 1) % 2 ^ 32 ∧ t.agenda = s.agenda ∧ t.dram = s.dram ∧ t.lmem = s.lmem) ∧
      (s.credOf w c = some x → s.writeMember cl x c = .ok none u →
        ∃ t, exec .collectiveResultDeliver s = .next t ∧ t.dram = u.dram ∧ t.lmem = u.lmem ∧
          ((u.sem .cube (cwSem x.vb)).toNat + 1 < 2 ^ 64 → t.sem .cube (cwSem x.vb) = u.sem .cube (cwSem x.vb) + 1))) ∧
    (s.aged = false → gwValid w = true → c.op ≠ 0xE → c.op ≠ 0xD → (gwInputs w).contains c.port = true → s.collRoom c.group = true →
      (gwDeliv w = false → gwMcast w c.port = [] → s.held = [] → c.port = localPort →
        s.cmd (c.sender % 2 ^ 10) c.inst = some x → x.use = c.index / 64 + 1 →
        x.chunkPackets (c.index / 64) ≤ (c.index :: x.delivered.filter (fun i => i != c.index)).length → ∃ t, exec .cmcastPacketArrive s = .next t ∧
          t.agenda = s.agenda ++ [.event .engineCommandComplete { x := c.sender % 2 ^ 10, y := x.num }] ∧
          t.dram = s.dram ∧ t.lmem = s.lmem) ∧
      (gwDeliv w = true → s.mcastWrite (mcastWho s cl c) c = .ok none u →
        ∃ t, exec .cmcastPacketArrive s = .next t ∧ t.dram = u.dram ∧ t.lmem = u.lmem ∧
          ((u.sem .cube c.sem).toNat + 1 < 2 ^ 64 → t.sem .cube c.sem = u.sem .cube c.sem + 1)))

/-! ## Links, ports and cubes that fail -/

/-- R268, R354: a group that comes in its turn is taken and acknowledged, and its packets go on; one that comes again changes no
number; one that is out of its turn or whose CRC fails is discarded, and a replay is asked for once, until the group that is
asked for fails again (DESIGN CHOICE, log entry 49). Packets fill groups of 8 flits, and the last group of those that leave
together may be shorter (log entry 49). A heartbeat, a group without packets (DEDUCED, log entry 50), leaves on every port that is up;
the fifth that misses in a row fails the port. -/
def Sys2Proof.Spec.LinkGroups : Prop :=
  ∀ (s : State) (np : NetPkt) (p : Nat), p < 12 →
    let go := s.arg.x = p ∧ s.portState p = 2 ∧ s.portHost p = false ∧ s.portTesting p = false
    (go → s.arg.flag = true → (s.port p).queue = [] → s.arg.body = .nets [np] → (∀ c, np.body ≠ .coll c) →
      (s.arg.y = (s.port p).rxSeq → ∃ t, exec .groupReceive s = .next t ∧
        (t.port p).rxSeq = ((s.port p).rxSeq + 1) % 4096 ∧ (t.port p).unacked = ackedUpTo s.arg.z (s.port p).unacked ∧
        t.agenda = s.agenda ++ [.event .packetRoute { x := 64, z := p + 1, body := .net np }] ∧ t.dram = s.dram) ∧
      (s.arg.y ≠ (s.port p).rxSeq → (s.port p).replays < 8 → ∃ t, exec .groupReceive s = .next t ∧
        (t.port p).rxSeq = (s.port p).rxSeq ∧ (t.port p).asked = true ∧ t.agenda = s.agenda ∧
        (t.port p).replays = (s.port p).replays + (if (s.port p).asked then 0 else 1))) ∧
    (go → s.arg.flag = false → (s.port p).replays < 8 → ∃ t n, exec .groupReceive s = .next t ∧
      (t.port p).replays = (s.port p).replays + (if (s.port p).asked = true ∧ s.arg.y ≠ (s.port p).rxSeq then 0 else 1) ∧
      (t.port p).rxSeq = (s.port p).rxSeq ∧ (t.port p).asked = true ∧
      t.agenda = s.agenda ++ [.event .errorDetected { x := 2, body := .place (.lane p 1 n) }]) ∧
    (∀ l : List NetPkt, (groupsOf l).flatten = l ∧ (groupsOf l).length = ((l.map NetPkt.flits).sum + 7) / 8) ∧
    (∃ t, exec .heartbeatSend s = .next t ∧ t.timers = s.timers ++ [(s.now + 40000, .heartbeatSend, ({} : EvArg))] ∧ t.csr = s.csr ∧
      (s.portState p = 2 → s.portHost p = false → (t.port p).heard = false ∧
        ((s.port p).unacked.length < 128 → (t.port p).unacked = (s.port p).unacked ++ [((s.port p).txSeq, [])]) ∧
        ((s.port p).heard = false → .event .heartbeatMiss { x := p } ∈ t.agenda)) ∧
      (s.portState p ≠ 2 → t.port p = s.port p)) ∧
    (s.arg.x = p →
      (s.portState p ≠ 2 → exec .heartbeatMiss s = .next s) ∧
      (s.portState p = 2 → (s.port p).missRow < 4 → ∃ t, exec .heartbeatMiss s = .next t ∧
        (t.port p).missRow = (s.port p).missRow + 1 ∧ t.portState p = 2 ∧ t.agenda = s.agenda) ∧
      (s.portState p = 2 → 4 ≤ (s.port p).missRow → ∃ t, exec .heartbeatMiss s = .next t ∧ t.portState p = 3 ∧
        .event .portDownNotice { x := s.portNbr p } ∈ t.agenda))

/-- R270, R354: a port with EN trains, one without goes down; when training is complete the port is up if the far end is the neighbour
that the port expects, and otherwise keeps training with the mismatch shown. A cube that has taken itself down trains no port. The
firmware of a running cube challenges the neighbour of a port that has trained (R387). -/
def Sys2Proof.Spec.PortStates : Prop :=
  ∀ (s : State), s.arg.x < 12 →
    let p := s.arg.x
    let far := s.arg.y % 2 ^ 14
    (s.portEn p = true → s.mode = .down → exec .portEnable s = .next s) ∧
    (s.portEn p = true → s.mode ≠ .down → (s.portState p = 0 ∨ s.portState p = 3) → ∃ t, exec .portEnable s = .next t ∧ t.portState p = 1 ∧
      (∀ o, o ≠ portOff p + 8 → t.csrAt o = s.csrAt o) ∧ t.ports = s.ports) ∧
    (s.portEn p = true → (s.portState p = 1 ∨ s.portState p = 2) → exec .portEnable s = .next s) ∧
    (s.portEn p = false → ∃ t, exec .portEnable s = .next t ∧ t.portState p = 0) ∧
    ((s.portState p ≠ 1 ∨ s.portEn p = false ∨ s.mode = .down) → exec .trainingComplete s = .next s) ∧
    (s.portState p = 1 → s.portEn p = true → s.mode ≠ .down → ∃ t, exec .trainingComplete s = .next t ∧
      t.csrField (portOff p + 8) 61 48 = far ∧ t.portState p = (if far = s.portNbr p then 2 else 1) ∧
      wbit (t.csrAt (portOff p + 8)) 47 = decide (far ≠ s.portNbr p) ∧
      (far = s.portNbr p → s.mode = .running → s.portHost p = false → (s.conn (askOf far)).busy = false →
        (t.conn (askOf far)).busy = true ∧ (t.conn (askOf far)).stage = 0))

/-- R354, R355: a cube that a notice names is probed, once at a time; a probe is answered unless the cube has taken itself
down; an answer ends the wait; when the time of a probe is over, the cube is declared down: its peer word is 0 and its entries
of the cube lists are marked. -/
def Sys2Proof.Spec.CubesDeclaredDown : Prop :=
  ∀ (s : State),
    let c := s.arg.x
    ((c = s.self ∨ s.probing c = true ∨ s.mode = .down) → exec .portDownNotice s = .next s) ∧
    (c ≠ s.self → s.probing c = false → s.mode ≠ .down → ∃ t, exec .portDownNotice s = .next t ∧
      (s.now + 2000000, .probeTimeout, { x := c }) ∈ t.timers ∧ t.csr = s.csr) ∧
    (s.arg.flag = true → ∃ t, exec .probe s = .next t ∧
      t.timers = s.timers.filter (fun e => !(e.2.1 = .probeTimeout && e.2.2.x = c)) ∧ t.agenda = s.agenda) ∧
    (s.arg.flag = false →
      (s.mode = .down → exec .probe s = .next s) ∧
      (s.mode ≠ .down → exec .probe s =
        .next (s.routeOut ⟨s.arg.y * 16384, ⟨s.gcid 0, 3, 0⟩, 2, false, 0, 0, 0, .probe s.self⟩))) ∧
    (c < 2 ^ 14 → ∃ t, exec .probeTimeout s = .next t ∧ t.peer c = 0 ∧
      (∀ n, n < 65536 → s.cubeEntry n % 2 ^ 14 = c → (t.cubeEntry n).testBit 15 = true) ∧
      (∀ k, k < 2 ^ 14 → k ≠ c → t.peer k = s.peer k))

/-- LinkGroups, PortStates and CubesDeclaredDown, stated above. -/
def Obligations.Links : Prop :=
  LinkGroups ∧ PortStates ∧ CubesDeclaredDown

/-! ## Errors -/

/-- R335, R342, R345 to R347, R350, R353, R361: detection, tests and records of errors. The 112 counters of four bytes each, from
flash address 0x10000 on, written every second, are the model's layout of the field-life log (DESIGN CHOICE, log entry 26). -/
def Sys2Proof.Spec.ErrorsAreHandled : Prop :=
  ∀ (s : State) (p : Place) (us core id w la : Nat), s.arg.body = .place p →
    let key := lmemKey (clusterOf core) (posOf core * 0x8000) / 4 + w
    (s.arg.x % 4 ≠ 1 → (∀ t k, p ≠ .l2Way t k) → s.tests = [] → testUs p = some us → ∃ t, exec .errorDetected s = .next t ∧
      t.errors = (placeKey p, s.powered + s.now) :: s.errors ∧ (∃ n, t.tests = [⟨p, s.arg.x % 4, n, decide (s.arg.x % 4 = 3)⟩]) ∧
      t.timers = s.timers ++ [(s.now + us * 4000, .selfTestComplete, { flag := Config.testFails s.free, body := .place p })] ∧
      t.agenda = s.agenda ∧ t.dram = s.dram ∧ (∀ n, placeCore? p = some n → (t.core n).testing = true)) ∧
    (s.arg.x = 1 → p = .dramLine la → ∃ t, exec .errorDetected s = .next t ∧ t.poisoned la = true ∧ t.dram = s.dram) ∧
    (∀ sv n, s.tests = [⟨p, sv, n, false⟩] → p = .localWord core w → core < 16384 →
      (s.arg.flag = false → s.stuckWord p = false → s.errorCount (placeKey p) < 3 →
        ∃ t, exec .selfTestComplete s = .next t ∧ t.tests = [] ∧ (t.core core).testing = false ∧ t.ctxs = s.ctxs ∧
          t.slots = s.slots ∧ t.fenced core = s.fenced core ∧
          t.csrField 0x4076000 31 0 = (s.csrField 0x4076000 31 0 + 1) % 2 ^ 32) ∧
      (s.arg.flag = true → ∃ t, exec .selfTestComplete s = .next t ∧ t.tests = [] ∧ t.fenced core = true)) ∧
    (p = .coreLogic core → exec .logicError s =
      .next (s.post .errorDetected { x := 3, body := .place (.coreLogic core) })) ∧
    ((p = .cubeLogic ∨ p = .tileLogic id) → ∃ t, exec .logicError s = .next t ∧ t.mode = .down ∧
      ∀ q, q < 12 → t.portState q = 0) ∧
    (p = .scalarReg core id w → exec .patrolScrub s = .next (if (s.ctx core id).bad.contains (1, w) &&
        (s.ctx core id).sbank = .resident then
      s.post .errorDetected { x := 1, body := .place p } else s)) ∧
    (p = .dramLine la → exec .patrolScrub s = .next (if s.poisoned la && !s.retired la then
      s.post .errorDetected { x := 1, body := .place p } else s)) ∧
    (p = .scalarReg core id w → ∃ t, exec .singleFault s = .next t ∧ (t.ctx core id).bad = (1, w) :: (s.ctx core id).bad ∧
      (t.ctx core id).x = (s.ctx core id).x ∧ t.lmem = s.lmem) ∧
    (p = .localWord core w → s.lmemBad.lookup key = none → exec .singleFault s =
      .next { s with lmemBad := (key, false) :: s.lmemBad }) ∧
    (∃ t, exec .flashLogWrite s = .next t ∧ t.timers = s.timers ++ [(s.now + 4000000000, .flashLogWrite, ({} : EvArg))] ∧
      (∀ k, k < 112 → readBytes 0xFF t.flash (0x10000 + 4 * k) 4 = leBytes 4 (mget 0 s.lifetime k)) ∧
      (∀ a, a < 0x10000 ∨ 0x10700 ≤ a → mget 0xFF t.flash a = mget 0xFF s.flash a) ∧ t.dram = s.dram)

/-- R335, R336, R338, R339: the spare of a cluster takes a fenced coordinate, which then serves again with a fresh state; a core
probe goes on every 10 µs, and at the second miss in a row of a fenced core the spare that is free takes its coordinate; the
injection register. -/
def Sys2Proof.Spec.CoresAreReplaced : Prop :=
  ∀ (s : State) (q : Nat), q < 16 →
    let cl := s.arg.x
    let v := s.arg.val
    let n := coreAt cl q
    (cl < 1024 → wbits v 59 56 = q → wbit v 63 = true → wbit (s.sparemap cl) 63 = false → wbit (s.sparemap cl) q = true →
      wbit (s.sparemap cl) 62 = false → ∃ t, exec .sparemapWrite s = .next t ∧ t.fenced n = false ∧ (t.core n).inbox = [] ∧
        (t.core n).kvbase = (s.core n).kvbase ∧ (∀ k, k < 4 → t.slot n k = {}) ∧ ∀ j, j ≠ n → t.core j = s.core j) ∧
    (wbit v 63 = false → exec .sparemapWrite s = .next s) ∧
    ((∀ e ∈ s.csr, e.1 < 0x4070000 ∨ 0x4072000 ≤ e.1) →
      exec .coreProbe s = .next (s.after 40000 .coreProbe {})) ∧
    (∃ t, exec .coreProbe s = .next t ∧ t.timers = s.timers ++ [(s.now + 40000, .coreProbe, ({} : EvArg))] ∧ t.csr = s.csr ∧
      t.ctxs = s.ctxs ∧ t.slots = s.slots ∧ t.dram = s.dram ∧ t.lmem = s.lmem ∧
      ∀ k, k < 1024 → s.fenced (coreAt k q) = true → s.spareFree k = true → 1 ≤ (s.core (coreAt k q)).missed →
        .event .sparemapWrite { x := k, val := BitVec.ofNat 64 (2 ^ 63 + q * 2 ^ 56) } ∈ t.agenda) ∧
    (∃ t, exec .lminjWrite s = .next t ∧ wbit (t.csrAt 0x4072000) 63 = wbit v 63 ∧
      wbit (t.csrAt 0x4072000) 62 = (wbit (s.csrAt 0x4072000) 62 && !wbit v 62) ∧
      wbits (t.csrAt 0x4072000) 45 32 = wbits v 45 32 ∧ wbits (t.csrAt 0x4072000) 12 0 = wbits v 12 0 ∧
      t.lmInjLive = wbit v 63 ∧ ∀ o, o ≠ 0x4072000 → t.csrAt o = s.csrAt o)

/-- ErrorsAreHandled and CoresAreReplaced, stated above. -/
def Obligations.ErrorsAndSpares : Prop :=
  ErrorsAreHandled ∧ CoresAreReplaced

/-- R362 to R365: the vertical buses: RAW, test steps, wire steering and retirement. Where no line's turn has come while its bus was
paused, what was held goes on in its order when the bus does, and a retirement changes no other half-vault. -/
def Obligations.VerticalBuses : Prop :=
  ∀ (s : State), s.arg.x < 64 → s.arg.y < 2 →
    let v := s.arg.x
    let b := s.arg.y
    let off := vbOff v b
    let w := s.csrAt off
    (∃ t, exec .vbPause s = .next t ∧ wbit (t.csrAt off) 61 = true ∧ (∀ o, o ≠ off → t.csrAt o = s.csrAt o) ∧
      t.dram = s.dram) ∧
    ((∀ e ∈ s.dirs, e.2.due = false) → ∃ t, exec .vbResume s = .next t ∧ wbit (t.csrAt off) 61 = false ∧ t.dram = s.dram ∧
      t.agenda = s.agenda ++ s.held.filter (fun i => !heldColl i) ∧ t.held = s.held.filter heldColl) ∧
    ((wbit w 61 = false ∨ wbit w 62 = true ∨ 1055 < wbits w 10 0 ∨ s.busGone v b = true) →
      exec .vbtestGo s = .next s) ∧
    (wbit w 61 = true → wbit w 62 = false → wbits w 10 0 ≤ 1055 → s.busGone v b = false →
      ∃ t, exec .vbtestGo s = .next t ∧ wbit (t.csrAt off) 62 = true ∧
        t.timers = s.timers ++ [(s.now + 160, .vbtestStepComplete, { x := v, y := b })]) ∧
    (wbit w 62 = true → ∃ t, exec .vbtestStepComplete s = .next t ∧ wbit (t.csrAt off) 62 = false ∧
      wbit (t.csrAt (off + 16)) 63 = !(s.wrongAt v b (wbits w 10 0)).isEmpty ∧
      t.busGone v b = s.busGone v b) ∧
    (muxBad s.arg.val = true → exec .vbmuxWrite s = .next s) ∧
    (muxBad s.arg.val = false → ∃ t, exec .vbmuxWrite s = .next t ∧
      let m := t.csrAt (off + 0x80 + 8 * s.arg.z)
      wbit m 63 = wbit s.arg.val 63 ∧ wbit m 62 = wbit s.arg.val 62 ∧ wbits m 14 8 = wbits s.arg.val 14 8 ∧
        wbits m 6 0 = wbits s.arg.val 6 0) ∧
    (s.busGone v b = true → exec .busRetire s = .next s) ∧
    (s.busGone v b = false → (∀ e ∈ s.dirs, e.2.due = false) → ∃ t, exec .busRetire s = .next t ∧ t.busGone v b = true ∧
      wbit (t.csrAt (0x4090000 + 8 * b)) v = true ∧ (∀ l, inHalf v b l = true → t.dir l = {}) ∧
      (∀ l, inHalf v b l = false → t.dir l = s.dir l) ∧ t.dram = s.dram)

/-! ## Boot, updates, attestation -/

/-- R371, R374, R376 to R378: CUBE_RESET boots the first slot that verifies, or waits for a recovery image; POWER_LOSS loses
what is not in flash; MEAS_EXTEND extends a register that is not locked. (The GEN of BOOTSTAT in recovery, 0, is the model's:
DESIGN CHOICE, log entry 28.) -/
def Sys2Proof.Spec.CubeResets : Prop :=
  ∀ (s : State),
    let c := s.coldReset
    let u := c.selfTest
    let n := s.csrField 0x40A0440 3 0
    (c.romCore = none → ∃ t, exec .cubeReset s = .next t ∧ t.mode = .inReset ∧ t.agenda = [] ∧ t.ctxs = [] ∧
      t.flash = s.flash) ∧
    (c.romCore ≠ none → u.bootSlot = none → ∃ t, exec .cubeReset s = .next t ∧ t.mode = .recovery ∧ t.ctxs = [] ∧
      t.dram = [] ∧ t.flash = s.flash ∧ t.csrAt 0x40A0480 = bootStat false true 0 0) ∧
    (∀ k, c.romCore ≠ none → u.bootSlot = some k → ∃ t, exec .cubeReset s = .next t ∧ t.mode = .running ∧
      t.flash = s.flash ∧ t.csrAt 0x40A0480 = bootStat (decide (u.slotOrder.headD 0 ≠ k)) false
        (match u.chosenMarker with | some g => g.1 | none => 0) k) ∧
    (∃ t, exec .powerLoss s = .next t ∧ t.agenda = [.event .cubeReset {}] ∧ (s.update = none ∨ s.mode ≠ .running → t.flash = s.flash) ∧
      (∀ a, 0x2000 ≤ a → (∀ k, k < 2 → a < slotBase k ∨ slotBase k + slotSize ≤ a) →
        mget 0xFF t.flash a = mget 0xFF s.flash a) ∧ t.dram = [] ∧ t.csr = [] ∧ t.ctxs = [] ∧ t.i3cDynamic = none) ∧
    (wbit (s.csrAt 0x40A0448) n = true → ∃ t, exec .measExtend s = .next t ∧ t.meas = s.meas ∧
      wbit (t.csrAt 0x40A0440) 62 = true) ∧
    (wbit (s.csrAt 0x40A0448) n = false → ∃ t, exec .measExtend s = .next t ∧ t.csr = s.csr ∧
      t.measure n = sha512 (s.measure n ++ (List.range 8).flatMap (fun w => leBytes 8 (s.csrAt (0x40A0400 + 8 * w)).toNat)) ∧
      ∀ k, k ≠ n → t.measure k = s.measure k)

/-- R377, R378: a recovery image is written to slot 0 and, if it verifies, both markers name it and the cube is reset; an update
is begun once at a time, in recovery over the management port alone; its image is written to the other slot and verified, and
then its two markers are erased and written, one phase a step. The bytes 0x05, 0x17, 0x10, 0x81 and 0x8A of the PLDM messages
are the model's reading of DSP0267 (PRESUMED, log entry 29), and the GEN of a recovered cube's markers is its choice (DESIGN
CHOICE, log entry 28). -/
def Sys2Proof.Spec.UpdatesAndRecovery : Prop :=
  ∀ (s : State) (u : UpdateRun),
    let img := EvBody.theBytes s.arg.body
    let w : State := { s.writeSlot 0 img with update := none }
    let slot := s.updateSlot
    let gen := s.csrField 0x40A0480 39 8
    let mark := markerBytes (gen + 1) slot
    let more : Item := .event .updateImageComplete {}
    ((s.mode ≠ .recovery → exec .recoveryImageReceive s = .next s) ∧
    (s.mode = .recovery → w.verifySlot 0 = false → ∃ t, exec .recoveryImageReceive s = .next t ∧ t.flash = w.flash ∧
      t.sent = (1, [0x05, 0x17, 1]) :: s.sent ∧ t.agenda = s.agenda ∧ t.mode = .recovery ∧ t.update = none) ∧
    (s.mode = .recovery → w.verifySlot 0 = true → ∃ t, exec .recoveryImageReceive s = .next t ∧
      t.agenda = s.agenda ++ [.event .cubeReset {}] ∧ t.sent = (1, [0x05, 0x17, 0]) :: s.sent ∧
      readBytes 0xFF t.flash 0x1000 (markerBytes w.recoveryGen 0).length = markerBytes w.recoveryGen 0)) ∧
    ((s.mode ≠ .running → s.mode ≠ .recovery → exec .requestUpdate s = .next s) ∧
    (s.mode = .recovery → s.arg.x ≠ 1 → exec .requestUpdate s = .next s) ∧
    (s.mode = .running ∨ (s.mode = .recovery ∧ s.arg.x = 1) →
      (s.update = some u → exec .requestUpdate s = .next (s.pldm s.arg.x 0x10 0x81)) ∧
      (s.update = none → gen = 0xFFFFFFFE → s.mode = .running → exec .requestUpdate s =
        .next (s.pldm s.arg.x 0x10 0x8A)) ∧
      (s.update = none → gen ≠ 0xFFFFFFFE ∨ s.mode = .recovery → exec .requestUpdate s =
        .next ({ s with update := some { transport := s.arg.x } }.pldm s.arg.x 0x10 0)))) ∧
    ((s.update = none ∨ s.mode ≠ .running → exec .updateImageComplete s = .next s) ∧
    (s.update = some u → s.mode = .running →
      (s.arg.body = .bytes img →
        (u.phase ≠ 0 ∨ u.transport ≠ s.arg.x → exec .updateImageComplete s = .next s) ∧
        (u.phase = 0 → u.transport = s.arg.x → ∃ t, exec .updateImageComplete s = .next t ∧
          t.agenda = s.agenda ++ [more] ∧ t.update = some { u with image := img, phase := 1 } ∧
          (∀ a, slotBase slot ≤ a → a < slotBase slot + slotSize → mget 0xFF t.flash a = 0xFF) ∧
          ∀ a, a < slotBase slot ∨ slotBase slot + slotSize ≤ a → mget 0xFF t.flash a = mget 0xFF s.flash a)) ∧
      ((∀ b, s.arg.body ≠ .bytes b) →
        (u.phase = 0 → exec .updateImageComplete s = .next s) ∧
        (u.phase = 1 → (s.writeSlot slot u.image).verifySlot slot = true → ∃ t, exec .updateImageComplete s = .next t ∧
          t.agenda = s.agenda ++ [more] ∧ t.update = some { u with phase := 2 } ∧
          t.flash = (s.writeSlot slot u.image).flash) ∧
        (u.phase = 1 → (s.writeSlot slot u.image).verifySlot slot = false → exec .updateImageComplete s =
          .next ({ s.writeSlot slot u.image with update := none }.pldm u.transport 0x17 1)) ∧
        (u.phase = 3 → ∃ t, exec .updateImageComplete s = .next t ∧ t.agenda = s.agenda ++ [more] ∧
          t.update = some { u with phase := 4 } ∧ readBytes 0xFF t.flash 0 mark.length = mark) ∧
        (u.phase = 5 → u.transport < 2 → ∃ t, exec .updateImageComplete s = .next t ∧ t.update = none ∧
          t.agenda = s.agenda ∧ t.sent = (u.transport, [0x05, 0x17, 0]) :: s.sent ∧
          readBytes 0xFF t.flash 0x1000 mark.length = mark))))

/-- CubeResets and UpdatesAndRecovery, stated above. -/
def Obligations.ResetAndUpdate : Prop :=
  CubeResets ∧ UpdatesAndRecovery

/-- R385, R386: the SPDM responder. A request makes its transport busy, and is answered in a later step; one that comes meanwhile
is answered with Busy, and one out of its order with UnexpectedRequest; a request that is not offered is answered with
UnsupportedRequest. A neighbour's answers go out as packets. (The messages' bytes are the model's reading of DSP0274:
notes/assumptions/29.) -/
def Sys2Proof.Spec.AttestationAnswers : Prop :=
  ∀ (s : State), s.mode = .running →
    let x := s.arg.x
    let c := s.conn x
    let body := EvBody.theBytes s.arg.body
    let out := fun (t : State) (b : List Byte) => (x < 2 → t.sent = (x, b) :: s.sent ∧ t.agenda = s.agenda) ∧
      (2 ≤ x → t.sent = s.sent ∧ ∃ np : NetPkt, np.dest = x - 2 ∧ np.ord = true ∧ np.body = .mctp b ∧
        t.agenda = s.agenda ++ [.event .packetRoute { x := 64, body := .net np }])
    let answers := fun (i : Instr) (stage : Nat) (b : List Byte) => ∃ t, exec i s = .next t ∧ out t b ∧
      (t.conn x).stage = stage ∧ (t.conn x).busy = false ∧ t.dram = s.dram ∧ t.csr = s.csr ∧ t.meas = s.meas
    (s.arg.y ≠ 0 → ∃ t, exec .getVersion s = .next t ∧ out t [0x13, 0x7F, if c.busy then 0x03 else 0x07, 0] ∧
      t.conn x = c) ∧
    (s.arg.y = 0 → ∀ i code need, (i, code, need) ∈ [(Instr.getVersion, 0x84, 0), (.getCapabilities, 0xE1, 1), (.negotiateAlgorithms, 0xE3, 2),
        (.getDigests, 0x81, 3), (.getCertificate, 0x82, 3), (.challenge, 0x83, 3), (.getMeasurements, 0xE0, 3)] →
      (s.arg.flag = false → c.busy = true → ∃ t, exec i s = .next t ∧ out t [0x13, 0x7F, 0x03, 0] ∧
        t.conn x = c) ∧
      (s.arg.flag = false → c.busy = false → ∃ t, exec i s = .next t ∧ t.sent = s.sent ∧ (t.conn x).busy = true ∧
        t.agenda = s.agenda ++ [.event i { s.arg with flag := true }]) ∧
      (s.arg.flag = true → c.stage < need → answers i c.stage [0x13, 0x7F, 0x04, 0])) ∧
    (s.arg.y = 0 → s.arg.flag = true →
      answers .getVersion 1 [0x10, 0x04, 0, 0, 0, 1, 0x00, 0x13] ∧
      (c.stage = 1 → answers .getCapabilities 2
        ([0x13, 0x61, 0, 0, 0, 20, 0, 0, 0x16, 0, 0, 0] ++ (Config.nonce s.free).take 8)) ∧
      (c.stage = 2 → answers .negotiateAlgorithms 3 ([0x13, 0x63, 0, 0, 36, 0, 1, 0] ++ leBytes 4 0x08 ++
        leBytes 4 (le32 body 6 &&& 0x40) ++ leBytes 4 (le32 body 10 &&& 0x04) ++ List.replicate 16 0)) ∧
      (3 ≤ c.stage →
        answers .getDigests c.stage ([0x13, 0x01, 1, 1] ++ sha512 Config.certChain) ∧
        (body.getD 0 0 = 0 → le16 body 2 ≤ Config.certChain.length →
          let part := (Config.certChain.drop (le16 body 2)).take (le16 body 4)
          answers .getCertificate c.stage ([0x13, 0x02, 0, 0] ++ leBytes 2 part.length ++
            leBytes 2 (Config.certChain.length - le16 body 2 - part.length) ++ part)) ∧
        (body.getD 0 0 = 0 → body.getD 1 0 = 0 →
          let b := [0x13, 0x03, 0, 1] ++ sha512 Config.certChain ++ (Config.nonce s.free).take 32 ++ [0, 0] ++
            (body.drop 34).take 8
          answers .challenge c.stage (b ++ Config.deviceSign (c.transcript ++ [0x13, 0x83] ++ body ++ b))) ∧
        (∀ n, (body.getD 1 0).toNat = n + 1 → n < 16 → (body.getD 0 0).toNat % 2 = 0 →
          answers .getMeasurements c.stage ([0x13, 0x60, 0, 0, 1] ++ leBytes 3 (s.measIndex (n + 1)).length ++
            s.measIndex (n + 1) ++ (Config.nonce s.free).take 32 ++ [0, 0] ++ (body.drop 2).take 8))))

/-- R385, R387: a message of the neighbour's firmware that answers this cube's challenge. The request of the next stage follows an
answer of the stage that is asked; after the last one the policy's word becomes the peer word, if that is still 0; any other
answer, or a word of 0, fails the neighbour, and its ports are disabled. An answer that is not awaited does nothing. (The messages
are the model's reading of DSP0274, PRESUMED, and the policy is a free value of the whole exchange: log entries 29 and 51.) -/
def Sys2Proof.Spec.NeighbourAnswers : Prop :=
  ∀ (s : State) (np : NetPkt) (b : List Byte),
    let far := gcidCube np.src.gcid
    let c := s.conn (askOf far)
    let code := (b.getD 1 0).toNat
    let stage := [0x04, 0x61, 0x63, 0x03, 0x60].getD c.stage 0x60
    let mask := Config.neighbourMask far (c.transcript ++ b)
    let disabled := fun (t : State) => (∀ p, p < 12 → s.portNbr p = far → s.portHost p = false → t.portEn p = false) ∧
      (t.conn (askOf far)).busy = false ∧ ∀ k, k < 2 ^ 14 → t.peer k = s.peer k
    s.arg.body = .net np → s.arg.x = 64 → s.arg.z = np.inp → np.age < 400000 → gcidCube np.dest = s.self → far ≠ s.self →
    s.refusedHere np = false → np.body = .mctp b → b.getD 0 0 ≠ 0x05 → code < 0x80 →
      (c.busy = false → exec .packetRoute s = .next s) ∧
      (c.busy = true → code = stage → c.stage < 4 → ∃ t, exec .packetRoute s = .next t ∧
        (t.conn (askOf far)).stage = c.stage + 1 ∧ (t.conn (askOf far)).busy = true ∧
        (t.conn (askOf far)).transcript = c.transcript ++ b ∧ t.csr = s.csr ∧ t.dram = s.dram) ∧
      (c.busy = true → code = stage → 4 ≤ c.stage →
        (mask = 0 → ∃ t, exec .packetRoute s = .next t ∧ disabled t) ∧
        (mask ≠ 0 → ∃ t, exec .packetRoute s = .next t ∧ t.peer far = (if s.peer far = 0 then mask else s.peer far) ∧
          (t.conn (askOf far)).busy = false ∧ t.dram = s.dram)) ∧
      (c.busy = true → code ≠ stage → (code = 0x7F → b.getD 2 0 ≠ 0x03) → ∃ t, exec .packetRoute s = .next t ∧ disabled t)

/-- AttestationAnswers and NeighbourAnswers, stated above. -/
def Obligations.Attestation : Prop :=
  AttestationAnswers ∧ NeighbourAnswers

/-! ## Hosts, control space, power -/

/-- R384, R388 to R390: the resident kernel's requests to the firmware, and what the host of a port may do. An answer repeats the
offset in w1, also that of a request that is refused (DEDUCED, log entry 53). A read of BAR2, whose form is the model's (log
entry 84), gives the bytes of the mailbox, least significant first. -/
def Obligations.FirmwareAndHosts : Prop :=
  ∀ (s u : State) (m : Message) (b : List Byte),
    let p := s.arg.x
    let n := gcidCore m.sender
    let off := m.pay1.toNat
    let img := EvBody.theBytes s.arg.body
    let parts := hostPieces (s.hostGpa p s.arg.y) img.length
    let turn := s.arg.flag = true ∨ s.hostBusy p = false
    (s.fwReady = true → s.fwRequest = some m → gcidCube m.sender = s.self → s.fenced n = false → n ≠ s.fwCore →
      off ≠ 0x4050300 → ∃ t a, exec .firmwareWriteRequest s = .next t ∧
        (t.core s.fwCore).messages = (s.core s.fwCore).messages.erase m ∧ (t.core n).messages = (s.core n).messages ++ [a] ∧
        wd a.words 0 = (if s.fwAdmits m then 0 else 1) ∧ wd a.words 1 = m.pay1 ∧ a.sender = s.gcid s.fwCore ∧
        t.csr = (if s.fwAdmits m then (s.ctlWrite off (wd m.words 2) 2 none).csr else s.csr)) ∧
    (turn →
      (s.hostOpen p = true → s.arg.val ≠ 2 → inBar s.arg.y s.arg.z = true →
        s.hostReads (hostWho p .hostWindowRead s.arg) p [] (hostPieces (s.hostGpa p s.arg.y) s.arg.z) = .ok (some b) u →
        ∃ t, exec .hostWindowRead s = .next t ∧ t.sent = (16 + p, 0 :: b) :: u.sent ∧ t.dram = u.dram) ∧
      (s.hostOpen p = true → s.arg.val = 2 → s.arg.y + s.arg.z ≤ 4096 → ∃ t v, exec .hostWindowRead s = .next t ∧
        t.sent = (16 + p, 0 :: v) :: s.sent ∧ v.length = s.arg.z ∧ t.dram = s.dram ∧ t.csr = s.csr ∧
        ∀ i, i < s.arg.z → s.arg.y + i < 0x80 → v.getD i 0 =
          (leBytes 8 (s.csrAt (hostOff p + 8 + 8 * ((s.arg.y + i) / 8))).toNat).getD ((s.arg.y + i) % 8) 0) ∧
      (s.hostOpen p = false → ∃ t, exec .hostWindowRead s = .next t ∧ t.sent = (16 + p, [1]) :: s.sent ∧ t.dram = s.dram) ∧
      (s.hostOpen p = true → inBar s.arg.y img.length = true → (∀ e ∈ parts, (s.hostHome p e.1).isSome = true) →
        s.hostWrites (hostWho p .hostWindowWrite s.arg) p img parts = .ok true u →
        ∃ t, exec .hostWindowWrite s = .next t ∧ t.sent = u.sent ∧ t.dram = u.dram) ∧
      (s.hostOpen p = true → inBar s.arg.y img.length = false → ∃ t, exec .hostWindowWrite s = .next t ∧ t.dram = s.dram ∧
        t.sent = s.sent ∧ t.csrField 0x4076000 31 0 = (s.csrField 0x4076000 31 0 + 1) % 2 ^ 32) ∧
      (s.hostOpen p = true → s.arg.y < 8 → ∃ t, exec .hostMailboxWrite s = .next t ∧
        t.csrAt (hostOff p + 8 + 8 * s.arg.y) = s.arg.val ∧
        ∀ o, o ≠ hostOff p + 8 + 8 * s.arg.y → t.csrAt o = s.csrAt o) ∧
      (s.hostOpen p = true → ∀ k, s.kcoreOf (some (s.hostPart p)) = some k → (s.core k).events.length < 32 →
        ∃ t, exec .hostDoorbell s = .next t ∧ (t.core k).events = (s.core k).events ++
          [{ source := 3, sub := 2, tval := BitVec.ofNat 64 (2 ^ 63 + p), slot := 0 }])) ∧
    (s.arg.flag = false → s.hostBusy p = true → ∀ i ∈ [Instr.hostWindowRead, .hostWindowWrite, .hostMailboxWrite, .hostDoorbell],
      exec i s = .next { s with held := s.held ++ [.event i s.arg] }) ∧
    (exec .hostAtomicop s = .next { s with sent := (16 + p, [1]) :: s.sent }) ∧
    (s.hostPort p = true → exec .hdbRing s = .next { s with sent := (16 + p, [2, 0]) :: s.sent })

/-- R303, R368, R376, R391, R392: REGISTER_WRITE of a plain register by the firmware, of PARTCTL by the partition's kernel, and by user
level, and one of MEASCTL that starts an action of its own; the addresses of the management port; the power controller. -/
def Obligations.ControlAndPower : Prop :=
  ∀ (s : State) (p : Nat),
    let v := s.arg.val
    (s.arg.x = 2 → s.arg.y = 0x40C0000 → ∃ t, exec .registerWrite s = .next t ∧
      t.csrAt 0x40C0000 = ((s.csrAt 0x40C0000 &&& ~~~0xFFFF#64) ||| (v &&& 0xFFFF#64)) ∧
      (∀ o, o ≠ 0x40C0000 → t.csrAt o = s.csrAt o) ∧ t.agenda = s.agenda ∧ t.dram = s.dram) ∧
    (s.arg.x = 1 → p < 64 → s.arg.y = partOff p 0 → s.arg.z = p → wbit v 62 = false →
      ∃ t, exec .registerWrite s = .next t ∧ t.partDrained p = false ∧ t.partValid p = s.partValid p ∧
        ∀ o, o ≠ partOff p 0 → t.csrAt o = s.csrAt o) ∧
    (s.arg.x = 0 → exec .registerWrite s = .next s) ∧
    (s.arg.x = 2 → s.arg.y = 0x40A0440 → wbit v 63 = true → ∃ t, exec .registerWrite s = .next t ∧
      t.acts = s.acts ++ [(.measExtend, ({} : EvArg))] ∧ t.agenda = s.agenda ∧ t.meas = s.meas) ∧
    (exec .entdaa s = .next { s with i3cDynamic := some (s.arg.x % 128) }) ∧
    (exec .setdasa s = .next { s with i3cDynamic := some (s.arg.x % 128) }) ∧
    (∃ t, exec .overtempFailure s = .next t ∧ t.mode = .down ∧ ∀ q, q < 12 → t.portState q = 0) ∧
    (∃ t, exec .throttle s = .next t ∧ t.csrField 0x40C0008 15 0 = Nat.min s.arg.x 65535 ∧
      t.csrField 0x40C0008 47 40 = Nat.min s.arg.y 255 ∧
      t.agenda = s.agenda ++ (if 115 < s.arg.y then [.event .overtempFailure {}] else []) ∧
      (∀ o, o ≠ 0x40C0008 → t.csrAt o = s.csrAt o) ∧ t.dram = s.dram)

/-! ## Encodings -/

/-- R10 to R13, R23 to R28: the decoder reads back every well-formed instruction that has an encoding, with every operand. -/
def Obligations.DecodeOfEncode : Prop :=
  ∀ (i : Instr) (h : BitVec 16) (t : BitVec 48), i.wellFormed = true → encode i = some (h, t) → decode h t = .ok i

/-- R29: no bit of an encoding is dropped: a head and the tail bits that its TL gives it, if they decode at all, are the encoding
of the instruction that they decode to, and that instruction is well formed. -/
def Obligations.EncodeOfDecode : Prop :=
  ∀ (i : Instr) (h : BitVec 16) (t : BitVec 48), decode h t = .ok i → t.toNat < 2 ^ (16 * headTL h) →
    encode i = some (h, t) ∧ i.wellFormed = true

/-- R11, R12, R23 to R25: words put together by hand from the tables of encodings decode to the instructions they stand for. -/
def Obligations.DecodedWords : Prop :=
  decode 0x4C65 0x010A = .ok (.ldS64 5 10 8) ∧ decode 0x4806 0x00A6 = .ok (.add 6 6 5) ∧
  decode 0x448A 0x020A = .ok (.addi 10 10 16) ∧ decode 0x8280 0x0000040B = .ok (.loop 11 ⟨0, 1⟩) ∧
  decode 0x2A00 0 = .ok .tend ∧ decode 0xC407 0x123456780000 = .ok (.li 7 0x12345678) ∧
  decode 0x8905 0x0180CC06 = .ok (.extZ 5 6 12 19) ∧ decode 0x8101 0xFFFE8805 = .ok (.bne 5 0 ⟨-3, 2⟩) ∧
  decode 0x6D00 0x0380 = .ok (.fence .system true true false) ∧ decode 0x8E85 0x00008007 = .ok (.ldfe 5 7 0)

/-! ## Steps -/

/-- R10, R14, R29, R303: a step of a core that takes no interrupt runs the head that its slot's PC names in the context's copy of
the line, decoded; the actions that its stores start are part of it, and time passes after it. A head that does not decode traps:
0x01 for an undefined opcode, for a line that is not well formed (R9) and for a head index of 0 or above H, 0x02 for an illegal
encoding, 0x04 for an odd PC. A line that the context does not hold is fetched first, and a fetch that fails traps with its cause.
A step of an event runs that event. What is stepped, one event or one head at a time, and the passing of time are the model's
(DESIGN CHOICE, log entry 5). -/
def Obligations.StepsRunTheDecodedInstruction : Prop :=
  ∀ (s s1 : State) (core k : Nat) (l : LineCopy) (i : Instr) (a : EvArg),
    let e := s1.enter core k
    let ran := fun (v : State) =>
      let h := halfwords l.bytes
      let ix := wbits v.c.pc 5 1
      ((lineOk h = false ∨ ix = 0 ∨ lineH h < ix) → step s = endStep (.next (v.trap 0x01 v.c.pc))) ∧
      (lineOk h = true → 1 ≤ ix → ix ≤ lineH h →
        (decode (hw h ix) (lineTail h ix) = .ok i → step s = endStep (exec i v)) ∧
        (decode (hw h ix) (lineTail h ix) = .undefinedOp →
          step s = endStep (.next (v.trap 0x01 (encodingWord (hw h ix) (lineTail h ix))))) ∧
        (decode (hw h ix) (lineTail h ix) = .badEncoding →
          step s = endStep (.next (v.trap 0x02 (encodingWord (hw h ix) (lineTail h ix))))))
    (s.choose = some (.event i a, s1) → step s = endStep (exec i { s1 with arg := a, accs := 0 })) ∧
    (s.choose = some (.issue core, s1) → s1.nextSlot core = some k →
      ((s1.takeable core k).isSome = true → step s = endStep (exec .interruptTake { e with arg := { x := core, y := k } })) ∧
      (s1.takeable core k = none → ∀ v, e.beforeHead = some v → step s = endStep (.next v)) ∧
      (s1.takeable core k = none → e.beforeHead = none →
        (wbit e.c.pc 0 = true → step s = endStep (.next (e.trap 0x04 e.c.pc))) ∧
        (wbit e.c.pc 0 = false → e.c.line = some l → l.addr = lineAddr e.c.pc → ran e) ∧
        (wbit e.c.pc 0 = false → (∀ x, e.c.line = some x → x.addr ≠ lineAddr e.c.pc) →
          (∀ u, e.fetchLine = .ok none u → u.c.line = some l → ran u) ∧
          (∀ u c, e.fetchLine = .ok (some c) u → step s = endStep (.next (u.trap c e.c.pc))) ∧
          ∀ u, e.fetchLine = .stop u → step s = endStep (.next u)))) ∧
    (∀ t, t.acts = [] → ∃ u, endStep (.next t) = .next u ∧ t.now < u.now ∧ u.dram = t.dram ∧ u.lmem = t.lmem ∧
      u.slots = t.slots ∧ u.csr = t.csr) ∧
    ∀ t u : State, t.acts = [(i, a)] → exec i { t with acts := [], arg := a, accs := 0 } = .next u →
      endStep (.next t) = .next u.tick

/-- Every instruction and every event answers with a next state, whatever the state: no instruction that could be executed is
refused, and none faults. A step stops only in a cube that is held in reset (R374 step 1). -/
def Obligations.EveryInstructionAnswers : Prop :=
  (∀ (i : Instr) (s : State), ∃ t, exec i s = .next t) ∧
    ∀ s : State, (∃ t, step s = .next t) ∨ (step s = .fault .heldInReset ∧ s.mode = .inReset ∧ s.agenda = [])

/-- What cube reset leaves (R18, R21, R160, R204, R210, R263, R269, R308, R362, R368, R391): the values that the rules give, and empty
memories. (That memory and registers without a reset value read 0 is the model's choice: notes/assumptions/2 to 4.) -/
def Sys2Proof.Spec.ResetState : Prop :=
  let s := State.reset
  s.i3cStatic = Config.i3cFuse ∧ s.i3cDynamic = none ∧ s.mode = .inReset ∧ s.now = 0 ∧ s.agenda = [.event .cubeReset {}] ∧ s.dram = [] ∧ s.lmem = [] ∧ s.ctxs = [] ∧
    (∀ n, (s.core n).waitlim = 0x3D0900 ∧ (s.core n).ktimer = 0 ∧ (s.core n).inbox = []) ∧
    (∀ n k, (s.slot n k).ctx = none ∧ wbit (s.slot n k).k.status 0 = false) ∧
    (∀ p, p < 64 → s.partCeiling p = 2 ∧ s.partValid p = false) ∧
    (∀ q, q < 64 → s.lqDepth q = 0x3F ∧ s.lqPrio q = 2 ∧ s.lqEnabled q = false) ∧
    (∀ r, r < 65 → s.combines r = true ∧ s.holdNs r = 0) ∧ (∀ p, p < 12 → s.portState p = 0 ∧ s.portDir p = 0xF) ∧
    (∀ n g, s.barrier n g = ⟨oneCoreRect n, false, false, false⟩)

/-! ## Invariants -/

namespace Sys2Proof.Spec

/-- No event's time has come without the event standing on the agenda. -/
abbrev NothingOverdue (s : State) : Prop := ∀ e ∈ s.timers, s.now < e.1

/-- The byte memories are in their canonical form. -/
abbrev MemoriesWf (s : State) : Prop :=
  Memory.wf 0 s.dram = true ∧ Memory.wf 0 s.lmem = true ∧ Memory.wf 0xFF s.flash = true

end Sys2Proof.Spec

/-- No event is left behind by time: whenever a step is chosen among the possible ones, or nothing is possible and time passes,
every event whose time has come stands on the agenda. (The agenda, the timers and when they ring are the model's: DESIGN CHOICE,
log entry 5.) -/
def Obligations.NothingOverdueIsKept : Prop :=
  ∀ s : State, s.agenda = [] →
    (∀ it s1, s.choose = some (it, s1) → NothingOverdue s1 ∧ s1.now = s.now ∧
      ∀ e ∈ s.timers, e ∈ s1.timers ∨ .event e.2.1 e.2.2 ∈ s1.agenda) ∧
    (∀ t, s.choose = none → step s = .next t → NothingOverdue t ∧ s.now < t.now ∧
      ∀ e ∈ s.timers, e ∈ t.timers ∨ .event e.2.1 e.2.2 ∈ t.agenda)

/-- The invariants hold at reset. -/
def Sys2Proof.Spec.InvariantsAtReset : Prop := NothingOverdue State.reset ∧ MemoriesWf State.reset

/-- ResetState and InvariantsAtReset, stated above. -/
def Obligations.StateAtReset : Prop :=
  ResetState ∧ InvariantsAtReset

/-- The byte memories keep their canonical form under every step. -/
def Obligations.MemoriesStayCanonical : Prop :=
  ∀ s t : State, MemoriesWf s → step s = .next t → MemoriesWf t

/-- Memories in canonical form that read the same at every address are the same data. -/
def Obligations.CanonicalMemoriesAreUnique : Prop :=
  ∀ (d : Byte) (m n : List Host.Cell), Memory.wf d m = true → Memory.wf d n = true → (∀ a, mget d m a = mget d n a) → m = n
end

