-- ==== Sys2Proof/Laws/Maps.lean ====
section
/-! SUPPORT. The laws of sparse maps and memories: a read after a write, and the canonical form. -/

namespace Sys2Proof.Machine

/-! ## Reading after writing -/

theorem mget_filter {α : Type} (d : α) (m : SMap α) (k j : Nat) (h : j ≠ k) :
    mget d (m.filter (fun e => e.1 != k)) j = mget d m j := by
  induction m with
  | nil => rfl
  | cons e r ih =>
    obtain ⟨a, v⟩ := e
    by_cases ha : a = k
    · subst ha
      simp [mget, ih, Ne.symm h]
    · simp [ha, mget, ih]

theorem mget_filter_same {α : Type} (d : α) (m : SMap α) (k : Nat) :
    mget d (m.filter (fun e => e.1 != k)) k = d := by
  induction m with
  | nil => rfl
  | cons e r ih =>
    obtain ⟨a, v⟩ := e
    by_cases ha : a = k
    · subst ha; simpa using ih
    · simp [ha, mget, ih]

theorem mget_minsert {α : Type} (d : α) (m : SMap α) (k j : Nat) (v : α) :
    mget d (minsert k v m) j = if k = j then v else mget d m j := by
  induction m with
  | nil => simp [minsert, mget]
  | cons e r ih =>
    obtain ⟨a, b⟩ := e
    unfold minsert
    split
    · simp [mget]
    · split
      · rename_i h; subst h
        by_cases hj : k = j <;> simp [mget, hj]
      · rename_i h1 h2
        simp only [mget, ih]
        by_cases hj : k = j
        · subst hj; simp [Ne.symm h2]
        · simp [hj]

/-- A read of a map after a write: the written value at its key, and every other key as before. -/
theorem mget_mset {α : Type} [DecidableEq α] (d : α) (m : SMap α) (k j : Nat) (v : α) :
    mget d (mset d m k v) j = if k = j then v else mget d m j := by
  unfold mset
  split
  · rename_i h; subst h
    by_cases hj : k = j
    · subst hj; simp [mget_filter_same]
    · simp [hj, mget_filter v m k j (Ne.symm hj)]
  · rw [mget_minsert]
    by_cases hj : k = j
    · simp [hj]
    · simp [hj, mget_filter d m k j (Ne.symm hj)]

@[simp] theorem mget_mset_same {α : Type} [DecidableEq α] (d : α) (m : SMap α) (k : Nat) (v : α) :
    mget d (mset d m k v) k = v := by simp [mget_mset]

theorem mget_mset_ne {α : Type} [DecidableEq α] (d : α) (m : SMap α) {k j : Nat} (v : α) (h : j ≠ k) :
    mget d (mset d m k v) j = mget d m j := by simp [mget_mset, Ne.symm h]

theorem mget_mupd {α : Type} [DecidableEq α] (d : α) (m : SMap α) (k j : Nat) (f : α → α) :
    mget d (mupd d m k f) j = if k = j then f (mget d m k) else mget d m j := mget_mset d m k j _

@[simp] theorem mget_mupd_same {α : Type} [DecidableEq α] (d : α) (m : SMap α) (k : Nat) (f : α → α) :
    mget d (mupd d m k f) k = f (mget d m k) := by simp [mget_mupd]

/-! ## The canonical form -/

theorem risingFrom_mono {α : Type} (m : SMap α) {lo lo' : Nat} (h : lo' ≤ lo) (r : risingFrom lo m = true) :
    risingFrom lo' m = true := by
  cases m with
  | nil => rfl
  | cons e t =>
    obtain ⟨a, v⟩ := e
    simp only [risingFrom, Bool.and_eq_true, decide_eq_true_eq] at r ⊢
    exact ⟨by omega, r.2⟩

theorem risingFrom_filter {α : Type} (m : SMap α) (p : Nat × α → Bool) (lo : Nat) (r : risingFrom lo m = true) :
    risingFrom lo (m.filter p) = true := by
  induction m generalizing lo with
  | nil => rfl
  | cons e t ih =>
    obtain ⟨a, v⟩ := e
    simp only [risingFrom, Bool.and_eq_true, decide_eq_true_eq] at r
    by_cases hp : p (a, v) = true
    · simp only [List.filter_cons, hp, if_true, risingFrom, Bool.and_eq_true, decide_eq_true_eq]
      exact ⟨r.1, ih _ r.2⟩
    · simp only [List.filter_cons, hp]
      exact ih _ (risingFrom_mono t (by omega) r.2)

theorem risingFrom_minsert {α : Type} (m : SMap α) (k : Nat) (v : α) (lo : Nat) (h : lo ≤ k)
    (r : risingFrom lo m = true) : risingFrom lo (minsert k v m) = true := by
  induction m generalizing lo with
  | nil => simpa [minsert, risingFrom] using by omega
  | cons e t ih =>
    obtain ⟨a, b⟩ := e
    simp only [risingFrom, Bool.and_eq_true, decide_eq_true_eq] at r
    unfold minsert
    split
    · simp only [risingFrom, Bool.and_eq_true, decide_eq_true_eq]
      exact ⟨by omega, by omega, r.2⟩
    · split
      · rename_i h2; subst h2
        simp only [risingFrom, Bool.and_eq_true, decide_eq_true_eq]
        exact ⟨by omega, r.2⟩
      · simp only [risingFrom, Bool.and_eq_true, decide_eq_true_eq]
        exact ⟨r.1, ih _ (by omega) r.2⟩

theorem mem_minsert {α : Type} (m : SMap α) (k : Nat) (v : α) (e : Nat × α) (h : e ∈ minsert k v m) :
    e = (k, v) ∨ e ∈ m := by
  induction m with
  | nil => simpa [minsert] using h
  | cons x t ih =>
    obtain ⟨a, b⟩ := x
    unfold minsert at h
    split at h
    · simpa using h
    · split at h
      · rcases List.mem_cons.mp h with h | h
        · exact .inl h
        · exact .inr (List.mem_cons_of_mem _ h)
      · rcases List.mem_cons.mp h with h | h
        · exact .inr (h ▸ List.mem_cons_self)
        · rcases ih h with h | h
          · exact .inl h
          · exact .inr (List.mem_cons_of_mem _ h)

/-- Every write of a map keeps the canonical form. -/
theorem mwf_mset {α : Type} [DecidableEq α] (d : α) (m : SMap α) (k : Nat) (v : α) (h : mwf d m = true) :
    mwf d (mset d m k v) = true := by
  simp only [mwf, Bool.and_eq_true, List.all_eq_true, decide_eq_true_eq] at h ⊢
  unfold mset
  split
  · exact ⟨risingFrom_filter m _ 0 h.1, fun e he => h.2 e (List.mem_filter.mp he).1⟩
  · rename_i hv
    refine ⟨risingFrom_minsert _ k v 0 (Nat.zero_le k) (risingFrom_filter m _ 0 h.1), fun e he => ?_⟩
    rcases mem_minsert _ k v e he with rfl | he
    · exact hv
    · exact h.2 e (List.mem_filter.mp he).1

theorem mwf_mupd {α : Type} [DecidableEq α] (d : α) (m : SMap α) (k : Nat) (f : α → α) (h : mwf d m = true) :
    mwf d (mupd d m k f) = true := mwf_mset d m k _ h

theorem mwf_nil {α : Type} [DecidableEq α] (d : α) : mwf d ([] : SMap α) = true := rfl

/-- A key below every listed one reads as the default. -/
theorem mget_lt {α : Type} (d : α) (m : SMap α) (lo k : Nat) (r : risingFrom lo m = true) (h : k < lo) :
    mget d m k = d := by
  induction m generalizing lo with
  | nil => rfl
  | cons e t ih =>
    obtain ⟨a, v⟩ := e
    simp only [risingFrom, Bool.and_eq_true, decide_eq_true_eq] at r
    have : a ≠ k := by omega
    simp only [mget, this, if_false]
    exact ih (a + 1) r.2 (by omega)

/-! ## Memories -/

/-- Every byte store keeps the canonical form. -/
theorem wf_writeBytes (d : Byte) (m : List Host.Cell) (a : Nat) (bs : List Byte) (h : Memory.wf d m = true) :
    Memory.wf d (writeBytes d m a bs) = true := by
  induction bs generalizing m a with
  | nil => exact h
  | cons b r ih => exact ih _ _ (mwf_mset d m a b h)

/-- A byte outside the bytes stored reads as before. -/
theorem mget_writeBytes_out (d : Byte) (m : List Host.Cell) (a : Nat) (bs : List Byte) (k : Nat)
    (h : k < a ∨ a + bs.length ≤ k) : mget d (writeBytes d m a bs) k = mget d m k := by
  induction bs generalizing m a with
  | nil => rfl
  | cons b r ih =>
    simp only [List.length_cons] at h
    rw [writeBytes, ih _ _ (by omega), mget_mset_ne]
    omega

/-- A byte among the bytes stored reads as the byte stored. -/
theorem mget_writeBytes_in (d : Byte) (m : List Host.Cell) (a : Nat) (bs : List Byte) (i : Nat)
    (h : i < bs.length) : mget d (writeBytes d m a bs) (a + i) = bs[i] := by
  induction bs generalizing m a i with
  | nil => simp at h
  | cons b r ih =>
    cases i with
    | zero =>
      rw [writeBytes, mget_writeBytes_out _ _ _ _ _ (by omega)]
      simp
    | succ i =>
      have := ih (mset d m a b) (a + 1) i (by simpa using h)
      rw [writeBytes, show a + (i + 1) = a + 1 + i by omega, this]
      rfl

@[simp] theorem readBytes_length (d : Byte) (m : List Host.Cell) (a n : Nat) : (readBytes d m a n).length = n := by
  simp [readBytes]

/-- What was stored is read back. -/
theorem readBytes_writeBytes (d : Byte) (m : List Host.Cell) (a : Nat) (bs : List Byte) :
    readBytes d (writeBytes d m a bs) a bs.length = bs := by
  apply List.ext_getElem
  · simp
  · intro i h1 h2
    simp only [readBytes, List.getElem_map, List.getElem_range]
    exact mget_writeBytes_in d m a bs i h2

/-! ## Bytes and numbers (R6) -/

@[simp] theorem leBytes_length (n v : Nat) : (leBytes n v).length = n := by
  induction n generalizing v with
  | zero => rfl
  | succ n ih => simp [leBytes, ih]

theorem leNat_leBytes (n v : Nat) : leNat (leBytes n v) = v % 256 ^ n := by
  induction n generalizing v with
  | zero => simp [leBytes, leNat, Nat.mod_one]
  | succ n ih =>
    simp only [leBytes, leNat, ih, BitVec.toNat_ofNat]
    rw [Nat.pow_succ' (n := n), Nat.mod_mul]

end Sys2Proof.Machine
end

