-- ==== Sys2Proof/Laws/State.lean ====
section
/-! SUPPORT. What each update of a part of the state does to every field, true by computation. -/

set_option Elab.async false

namespace Sys2Proof.Machine

/-! ## setCtx -/

@[simp] theorem setCtx_mode (s : State) (core id : Nat) (c : Ctx) : (s.setCtx core id c).mode = s.mode := rfl
@[simp] theorem setCtx_now (s : State) (core id : Nat) (c : Ctx) : (s.setCtx core id c).now = s.now := rfl
@[simp] theorem setCtx_free (s : State) (core id : Nat) (c : Ctx) : (s.setCtx core id c).free = s.free := rfl
@[simp] theorem setCtx_agenda (s : State) (core id : Nat) (c : Ctx) : (s.setCtx core id c).agenda = s.agenda := rfl
@[simp] theorem setCtx_acts (s : State) (core id : Nat) (c : Ctx) : (s.setCtx core id c).acts = s.acts := rfl
@[simp] theorem setCtx_passed (s : State) (core id : Nat) (c : Ctx) : (s.setCtx core id c).passed = s.passed := rfl
@[simp] theorem setCtx_timers (s : State) (core id : Nat) (c : Ctx) : (s.setCtx core id c).timers = s.timers := rfl
@[simp] theorem setCtx_cur (s : State) (core id : Nat) (c : Ctx) : (s.setCtx core id c).cur = s.cur := rfl
@[simp] theorem setCtx_arg (s : State) (core id : Nat) (c : Ctx) : (s.setCtx core id c).arg = s.arg := rfl
@[simp] theorem setCtx_latch (s : State) (core id : Nat) (c : Ctx) : (s.setCtx core id c).latch = s.latch := rfl
@[simp] theorem setCtx_resp (s : State) (core id : Nat) (c : Ctx) : (s.setCtx core id c).resp = s.resp := rfl
@[simp] theorem setCtx_accs (s : State) (core id : Nat) (c : Ctx) : (s.setCtx core id c).accs = s.accs := rfl
@[simp] theorem setCtx_memos (s : State) (core id : Nat) (c : Ctx) : (s.setCtx core id c).memos = s.memos := rfl
@[simp] theorem setCtx_serial (s : State) (core id : Nat) (c : Ctx) : (s.setCtx core id c).serial = s.serial := rfl
@[simp] theorem setCtx_ctxs (s : State) (core id : Nat) (c : Ctx) : (s.setCtx core id c).ctxs = mset {} s.ctxs (ctxKey core id) c := rfl
@[simp] theorem setCtx_slots (s : State) (core id : Nat) (c : Ctx) : (s.setCtx core id c).slots = s.slots := rfl
@[simp] theorem setCtx_cores (s : State) (core id : Nat) (c : Ctx) : (s.setCtx core id c).cores = s.cores := rfl
@[simp] theorem setCtx_clusters (s : State) (core id : Nat) (c : Ctx) : (s.setCtx core id c).clusters = s.clusters := rfl
@[simp] theorem setCtx_tiles (s : State) (core id : Nat) (c : Ctx) : (s.setCtx core id c).tiles = s.tiles := rfl
@[simp] theorem setCtx_dirs (s : State) (core id : Nat) (c : Ctx) : (s.setCtx core id c).dirs = s.dirs := rfl
@[simp] theorem setCtx_agents (s : State) (core id : Nat) (c : Ctx) : (s.setCtx core id c).agents = s.agents := rfl
@[simp] theorem setCtx_images (s : State) (core id : Nat) (c : Ctx) : (s.setCtx core id c).images = s.images := rfl
@[simp] theorem setCtx_dram (s : State) (core id : Nat) (c : Ctx) : (s.setCtx core id c).dram = s.dram := rfl
@[simp] theorem setCtx_fe (s : State) (core id : Nat) (c : Ctx) : (s.setCtx core id c).fe = s.fe := rfl
@[simp] theorem setCtx_poison (s : State) (core id : Nat) (c : Ctx) : (s.setCtx core id c).poison = s.poison := rfl
@[simp] theorem setCtx_lmem (s : State) (core id : Nat) (c : Ctx) : (s.setCtx core id c).lmem = s.lmem := rfl
@[simp] theorem setCtx_lmemBad (s : State) (core id : Nat) (c : Ctx) : (s.setCtx core id c).lmemBad = s.lmemBad := rfl
@[simp] theorem setCtx_lmInjLive (s : State) (core id : Nat) (c : Ctx) : (s.setCtx core id c).lmInjLive = s.lmInjLive := rfl
@[simp] theorem setCtx_flash (s : State) (core id : Nat) (c : Ctx) : (s.setCtx core id c).flash = s.flash := rfl
@[simp] theorem setCtx_csr (s : State) (core id : Nat) (c : Ctx) : (s.setCtx core id c).csr = s.csr := rfl
@[simp] theorem setCtx_cubeSems (s : State) (core id : Nat) (c : Ctx) : (s.setCtx core id c).cubeSems = s.cubeSems := rfl
@[simp] theorem setCtx_cubeWaiters (s : State) (core id : Nat) (c : Ctx) : (s.setCtx core id c).cubeWaiters = s.cubeWaiters := rfl
@[simp] theorem setCtx_lqs (s : State) (core id : Nat) (c : Ctx) : (s.setCtx core id c).lqs = s.lqs := rfl
@[simp] theorem setCtx_startBuf (s : State) (core id : Nat) (c : Ctx) : (s.setCtx core id c).startBuf = s.startBuf := rfl
@[simp] theorem setCtx_lastServed (s : State) (core id : Nat) (c : Ctx) : (s.setCtx core id c).lastServed = s.lastServed := rfl
@[simp] theorem setCtx_routers (s : State) (core id : Nat) (c : Ctx) : (s.setCtx core id c).routers = s.routers := rfl
@[simp] theorem setCtx_ports (s : State) (core id : Nat) (c : Ctx) : (s.setCtx core id c).ports = s.ports := rfl
@[simp] theorem setCtx_outst (s : State) (core id : Nat) (c : Ctx) : (s.setCtx core id c).outst = s.outst := rfl
@[simp] theorem setCtx_colls (s : State) (core id : Nat) (c : Ctx) : (s.setCtx core id c).colls = s.colls := rfl
@[simp] theorem setCtx_groups (s : State) (core id : Nat) (c : Ctx) : (s.setCtx core id c).groups = s.groups := rfl
@[simp] theorem setCtx_prsets (s : State) (core id : Nat) (c : Ctx) : (s.setCtx core id c).prsets = s.prsets := rfl
@[simp] theorem setCtx_ptloads (s : State) (core id : Nat) (c : Ctx) : (s.setCtx core id c).ptloads = s.ptloads := rfl
@[simp] theorem setCtx_farRuns (s : State) (core id : Nat) (c : Ctx) : (s.setCtx core id c).farRuns = s.farRuns := rfl
@[simp] theorem setCtx_held (s : State) (core id : Nat) (c : Ctx) : (s.setCtx core id c).held = s.held := rfl
@[simp] theorem setCtx_tests (s : State) (core id : Nat) (c : Ctx) : (s.setCtx core id c).tests = s.tests := rfl
@[simp] theorem setCtx_powered (s : State) (core id : Nat) (c : Ctx) : (s.setCtx core id c).powered = s.powered := rfl
@[simp] theorem setCtx_errors (s : State) (core id : Nat) (c : Ctx) : (s.setCtx core id c).errors = s.errors := rfl
@[simp] theorem setCtx_lifetime (s : State) (core id : Nat) (c : Ctx) : (s.setCtx core id c).lifetime = s.lifetime := rfl
@[simp] theorem setCtx_repairs (s : State) (core id : Nat) (c : Ctx) : (s.setCtx core id c).repairs = s.repairs := rfl
@[simp] theorem setCtx_svnFloor (s : State) (core id : Nat) (c : Ctx) : (s.setCtx core id c).svnFloor = s.svnFloor := rfl
@[simp] theorem setCtx_meas (s : State) (core id : Nat) (c : Ctx) : (s.setCtx core id c).meas = s.meas := rfl
@[simp] theorem setCtx_update (s : State) (core id : Nat) (c : Ctx) : (s.setCtx core id c).update = s.update := rfl
@[simp] theorem setCtx_i3cStatic (s : State) (core id : Nat) (c : Ctx) : (s.setCtx core id c).i3cStatic = s.i3cStatic := rfl
@[simp] theorem setCtx_i3cDynamic (s : State) (core id : Nat) (c : Ctx) : (s.setCtx core id c).i3cDynamic = s.i3cDynamic := rfl
@[simp] theorem setCtx_spdm (s : State) (core id : Nat) (c : Ctx) : (s.setCtx core id c).spdm = s.spdm := rfl
@[simp] theorem setCtx_sent (s : State) (core id : Nat) (c : Ctx) : (s.setCtx core id c).sent = s.sent := rfl

/-! ## setSlot -/

@[simp] theorem setSlot_mode (s : State) (core k : Nat) (t : Slot) : (s.setSlot core k t).mode = s.mode := rfl
@[simp] theorem setSlot_now (s : State) (core k : Nat) (t : Slot) : (s.setSlot core k t).now = s.now := rfl
@[simp] theorem setSlot_free (s : State) (core k : Nat) (t : Slot) : (s.setSlot core k t).free = s.free := rfl
@[simp] theorem setSlot_agenda (s : State) (core k : Nat) (t : Slot) : (s.setSlot core k t).agenda = s.agenda := rfl
@[simp] theorem setSlot_acts (s : State) (core k : Nat) (t : Slot) : (s.setSlot core k t).acts = s.acts := rfl
@[simp] theorem setSlot_passed (s : State) (core k : Nat) (t : Slot) : (s.setSlot core k t).passed = s.passed := rfl
@[simp] theorem setSlot_timers (s : State) (core k : Nat) (t : Slot) : (s.setSlot core k t).timers = s.timers := rfl
@[simp] theorem setSlot_cur (s : State) (core k : Nat) (t : Slot) : (s.setSlot core k t).cur = s.cur := rfl
@[simp] theorem setSlot_arg (s : State) (core k : Nat) (t : Slot) : (s.setSlot core k t).arg = s.arg := rfl
@[simp] theorem setSlot_latch (s : State) (core k : Nat) (t : Slot) : (s.setSlot core k t).latch = s.latch := rfl
@[simp] theorem setSlot_resp (s : State) (core k : Nat) (t : Slot) : (s.setSlot core k t).resp = s.resp := rfl
@[simp] theorem setSlot_accs (s : State) (core k : Nat) (t : Slot) : (s.setSlot core k t).accs = s.accs := rfl
@[simp] theorem setSlot_memos (s : State) (core k : Nat) (t : Slot) : (s.setSlot core k t).memos = s.memos := rfl
@[simp] theorem setSlot_serial (s : State) (core k : Nat) (t : Slot) : (s.setSlot core k t).serial = s.serial := rfl
@[simp] theorem setSlot_ctxs (s : State) (core k : Nat) (t : Slot) : (s.setSlot core k t).ctxs = s.ctxs := rfl
@[simp] theorem setSlot_slots (s : State) (core k : Nat) (t : Slot) : (s.setSlot core k t).slots = mset {} s.slots (slotKey core k) t := rfl
@[simp] theorem setSlot_cores (s : State) (core k : Nat) (t : Slot) : (s.setSlot core k t).cores = s.cores := rfl
@[simp] theorem setSlot_clusters (s : State) (core k : Nat) (t : Slot) : (s.setSlot core k t).clusters = s.clusters := rfl
@[simp] theorem setSlot_tiles (s : State) (core k : Nat) (t : Slot) : (s.setSlot core k t).tiles = s.tiles := rfl
@[simp] theorem setSlot_dirs (s : State) (core k : Nat) (t : Slot) : (s.setSlot core k t).dirs = s.dirs := rfl
@[simp] theorem setSlot_agents (s : State) (core k : Nat) (t : Slot) : (s.setSlot core k t).agents = s.agents := rfl
@[simp] theorem setSlot_images (s : State) (core k : Nat) (t : Slot) : (s.setSlot core k t).images = s.images := rfl
@[simp] theorem setSlot_dram (s : State) (core k : Nat) (t : Slot) : (s.setSlot core k t).dram = s.dram := rfl
@[simp] theorem setSlot_fe (s : State) (core k : Nat) (t : Slot) : (s.setSlot core k t).fe = s.fe := rfl
@[simp] theorem setSlot_poison (s : State) (core k : Nat) (t : Slot) : (s.setSlot core k t).poison = s.poison := rfl
@[simp] theorem setSlot_lmem (s : State) (core k : Nat) (t : Slot) : (s.setSlot core k t).lmem = s.lmem := rfl
@[simp] theorem setSlot_lmemBad (s : State) (core k : Nat) (t : Slot) : (s.setSlot core k t).lmemBad = s.lmemBad := rfl
@[simp] theorem setSlot_lmInjLive (s : State) (core k : Nat) (t : Slot) : (s.setSlot core k t).lmInjLive = s.lmInjLive := rfl
@[simp] theorem setSlot_flash (s : State) (core k : Nat) (t : Slot) : (s.setSlot core k t).flash = s.flash := rfl
@[simp] theorem setSlot_csr (s : State) (core k : Nat) (t : Slot) : (s.setSlot core k t).csr = s.csr := rfl
@[simp] theorem setSlot_cubeSems (s : State) (core k : Nat) (t : Slot) : (s.setSlot core k t).cubeSems = s.cubeSems := rfl
@[simp] theorem setSlot_cubeWaiters (s : State) (core k : Nat) (t : Slot) : (s.setSlot core k t).cubeWaiters = s.cubeWaiters := rfl
@[simp] theorem setSlot_lqs (s : State) (core k : Nat) (t : Slot) : (s.setSlot core k t).lqs = s.lqs := rfl
@[simp] theorem setSlot_startBuf (s : State) (core k : Nat) (t : Slot) : (s.setSlot core k t).startBuf = s.startBuf := rfl
@[simp] theorem setSlot_lastServed (s : State) (core k : Nat) (t : Slot) : (s.setSlot core k t).lastServed = s.lastServed := rfl
@[simp] theorem setSlot_routers (s : State) (core k : Nat) (t : Slot) : (s.setSlot core k t).routers = s.routers := rfl
@[simp] theorem setSlot_ports (s : State) (core k : Nat) (t : Slot) : (s.setSlot core k t).ports = s.ports := rfl
@[simp] theorem setSlot_outst (s : State) (core k : Nat) (t : Slot) : (s.setSlot core k t).outst = s.outst := rfl
@[simp] theorem setSlot_colls (s : State) (core k : Nat) (t : Slot) : (s.setSlot core k t).colls = s.colls := rfl
@[simp] theorem setSlot_groups (s : State) (core k : Nat) (t : Slot) : (s.setSlot core k t).groups = s.groups := rfl
@[simp] theorem setSlot_prsets (s : State) (core k : Nat) (t : Slot) : (s.setSlot core k t).prsets = s.prsets := rfl
@[simp] theorem setSlot_ptloads (s : State) (core k : Nat) (t : Slot) : (s.setSlot core k t).ptloads = s.ptloads := rfl
@[simp] theorem setSlot_farRuns (s : State) (core k : Nat) (t : Slot) : (s.setSlot core k t).farRuns = s.farRuns := rfl
@[simp] theorem setSlot_held (s : State) (core k : Nat) (t : Slot) : (s.setSlot core k t).held = s.held := rfl
@[simp] theorem setSlot_tests (s : State) (core k : Nat) (t : Slot) : (s.setSlot core k t).tests = s.tests := rfl
@[simp] theorem setSlot_powered (s : State) (core k : Nat) (t : Slot) : (s.setSlot core k t).powered = s.powered := rfl
@[simp] theorem setSlot_errors (s : State) (core k : Nat) (t : Slot) : (s.setSlot core k t).errors = s.errors := rfl
@[simp] theorem setSlot_lifetime (s : State) (core k : Nat) (t : Slot) : (s.setSlot core k t).lifetime = s.lifetime := rfl
@[simp] theorem setSlot_repairs (s : State) (core k : Nat) (t : Slot) : (s.setSlot core k t).repairs = s.repairs := rfl
@[simp] theorem setSlot_svnFloor (s : State) (core k : Nat) (t : Slot) : (s.setSlot core k t).svnFloor = s.svnFloor := rfl
@[simp] theorem setSlot_meas (s : State) (core k : Nat) (t : Slot) : (s.setSlot core k t).meas = s.meas := rfl
@[simp] theorem setSlot_update (s : State) (core k : Nat) (t : Slot) : (s.setSlot core k t).update = s.update := rfl
@[simp] theorem setSlot_i3cStatic (s : State) (core k : Nat) (t : Slot) : (s.setSlot core k t).i3cStatic = s.i3cStatic := rfl
@[simp] theorem setSlot_i3cDynamic (s : State) (core k : Nat) (t : Slot) : (s.setSlot core k t).i3cDynamic = s.i3cDynamic := rfl
@[simp] theorem setSlot_spdm (s : State) (core k : Nat) (t : Slot) : (s.setSlot core k t).spdm = s.spdm := rfl
@[simp] theorem setSlot_sent (s : State) (core k : Nat) (t : Slot) : (s.setSlot core k t).sent = s.sent := rfl

/-! ## updCore -/

@[simp] theorem updCore_mode (s : State) (n : Nat) (f : CoreSt → CoreSt) : (s.updCore n f).mode = s.mode := rfl
@[simp] theorem updCore_now (s : State) (n : Nat) (f : CoreSt → CoreSt) : (s.updCore n f).now = s.now := rfl
@[simp] theorem updCore_free (s : State) (n : Nat) (f : CoreSt → CoreSt) : (s.updCore n f).free = s.free := rfl
@[simp] theorem updCore_agenda (s : State) (n : Nat) (f : CoreSt → CoreSt) : (s.updCore n f).agenda = s.agenda := rfl
@[simp] theorem updCore_acts (s : State) (n : Nat) (f : CoreSt → CoreSt) : (s.updCore n f).acts = s.acts := rfl
@[simp] theorem updCore_passed (s : State) (n : Nat) (f : CoreSt → CoreSt) : (s.updCore n f).passed = s.passed := rfl
@[simp] theorem updCore_timers (s : State) (n : Nat) (f : CoreSt → CoreSt) : (s.updCore n f).timers = s.timers := rfl
@[simp] theorem updCore_cur (s : State) (n : Nat) (f : CoreSt → CoreSt) : (s.updCore n f).cur = s.cur := rfl
@[simp] theorem updCore_arg (s : State) (n : Nat) (f : CoreSt → CoreSt) : (s.updCore n f).arg = s.arg := rfl
@[simp] theorem updCore_latch (s : State) (n : Nat) (f : CoreSt → CoreSt) : (s.updCore n f).latch = s.latch := rfl
@[simp] theorem updCore_resp (s : State) (n : Nat) (f : CoreSt → CoreSt) : (s.updCore n f).resp = s.resp := rfl
@[simp] theorem updCore_accs (s : State) (n : Nat) (f : CoreSt → CoreSt) : (s.updCore n f).accs = s.accs := rfl
@[simp] theorem updCore_memos (s : State) (n : Nat) (f : CoreSt → CoreSt) : (s.updCore n f).memos = s.memos := rfl
@[simp] theorem updCore_serial (s : State) (n : Nat) (f : CoreSt → CoreSt) : (s.updCore n f).serial = s.serial := rfl
@[simp] theorem updCore_ctxs (s : State) (n : Nat) (f : CoreSt → CoreSt) : (s.updCore n f).ctxs = s.ctxs := rfl
@[simp] theorem updCore_slots (s : State) (n : Nat) (f : CoreSt → CoreSt) : (s.updCore n f).slots = s.slots := rfl
@[simp] theorem updCore_cores (s : State) (n : Nat) (f : CoreSt → CoreSt) : (s.updCore n f).cores = mupd {} s.cores n f := rfl
@[simp] theorem updCore_clusters (s : State) (n : Nat) (f : CoreSt → CoreSt) : (s.updCore n f).clusters = s.clusters := rfl
@[simp] theorem updCore_tiles (s : State) (n : Nat) (f : CoreSt → CoreSt) : (s.updCore n f).tiles = s.tiles := rfl
@[simp] theorem updCore_dirs (s : State) (n : Nat) (f : CoreSt → CoreSt) : (s.updCore n f).dirs = s.dirs := rfl
@[simp] theorem updCore_agents (s : State) (n : Nat) (f : CoreSt → CoreSt) : (s.updCore n f).agents = s.agents := rfl
@[simp] theorem updCore_images (s : State) (n : Nat) (f : CoreSt → CoreSt) : (s.updCore n f).images = s.images := rfl
@[simp] theorem updCore_dram (s : State) (n : Nat) (f : CoreSt → CoreSt) : (s.updCore n f).dram = s.dram := rfl
@[simp] theorem updCore_fe (s : State) (n : Nat) (f : CoreSt → CoreSt) : (s.updCore n f).fe = s.fe := rfl
@[simp] theorem updCore_poison (s : State) (n : Nat) (f : CoreSt → CoreSt) : (s.updCore n f).poison = s.poison := rfl
@[simp] theorem updCore_lmem (s : State) (n : Nat) (f : CoreSt → CoreSt) : (s.updCore n f).lmem = s.lmem := rfl
@[simp] theorem updCore_lmemBad (s : State) (n : Nat) (f : CoreSt → CoreSt) : (s.updCore n f).lmemBad = s.lmemBad := rfl
@[simp] theorem updCore_lmInjLive (s : State) (n : Nat) (f : CoreSt → CoreSt) : (s.updCore n f).lmInjLive = s.lmInjLive := rfl
@[simp] theorem updCore_flash (s : State) (n : Nat) (f : CoreSt → CoreSt) : (s.updCore n f).flash = s.flash := rfl
@[simp] theorem updCore_csr (s : State) (n : Nat) (f : CoreSt → CoreSt) : (s.updCore n f).csr = s.csr := rfl
@[simp] theorem updCore_cubeSems (s : State) (n : Nat) (f : CoreSt → CoreSt) : (s.updCore n f).cubeSems = s.cubeSems := rfl
@[simp] theorem updCore_cubeWaiters (s : State) (n : Nat) (f : CoreSt → CoreSt) : (s.updCore n f).cubeWaiters = s.cubeWaiters := rfl
@[simp] theorem updCore_lqs (s : State) (n : Nat) (f : CoreSt → CoreSt) : (s.updCore n f).lqs = s.lqs := rfl
@[simp] theorem updCore_startBuf (s : State) (n : Nat) (f : CoreSt → CoreSt) : (s.updCore n f).startBuf = s.startBuf := rfl
@[simp] theorem updCore_lastServed (s : State) (n : Nat) (f : CoreSt → CoreSt) : (s.updCore n f).lastServed = s.lastServed := rfl
@[simp] theorem updCore_routers (s : State) (n : Nat) (f : CoreSt → CoreSt) : (s.updCore n f).routers = s.routers := rfl
@[simp] theorem updCore_ports (s : State) (n : Nat) (f : CoreSt → CoreSt) : (s.updCore n f).ports = s.ports := rfl
@[simp] theorem updCore_outst (s : State) (n : Nat) (f : CoreSt → CoreSt) : (s.updCore n f).outst = s.outst := rfl
@[simp] theorem updCore_colls (s : State) (n : Nat) (f : CoreSt → CoreSt) : (s.updCore n f).colls = s.colls := rfl
@[simp] theorem updCore_groups (s : State) (n : Nat) (f : CoreSt → CoreSt) : (s.updCore n f).groups = s.groups := rfl
@[simp] theorem updCore_prsets (s : State) (n : Nat) (f : CoreSt → CoreSt) : (s.updCore n f).prsets = s.prsets := rfl
@[simp] theorem updCore_ptloads (s : State) (n : Nat) (f : CoreSt → CoreSt) : (s.updCore n f).ptloads = s.ptloads := rfl
@[simp] theorem updCore_farRuns (s : State) (n : Nat) (f : CoreSt → CoreSt) : (s.updCore n f).farRuns = s.farRuns := rfl
@[simp] theorem updCore_held (s : State) (n : Nat) (f : CoreSt → CoreSt) : (s.updCore n f).held = s.held := rfl
@[simp] theorem updCore_tests (s : State) (n : Nat) (f : CoreSt → CoreSt) : (s.updCore n f).tests = s.tests := rfl
@[simp] theorem updCore_powered (s : State) (n : Nat) (f : CoreSt → CoreSt) : (s.updCore n f).powered = s.powered := rfl
@[simp] theorem updCore_errors (s : State) (n : Nat) (f : CoreSt → CoreSt) : (s.updCore n f).errors = s.errors := rfl
@[simp] theorem updCore_lifetime (s : State) (n : Nat) (f : CoreSt → CoreSt) : (s.updCore n f).lifetime = s.lifetime := rfl
@[simp] theorem updCore_repairs (s : State) (n : Nat) (f : CoreSt → CoreSt) : (s.updCore n f).repairs = s.repairs := rfl
@[simp] theorem updCore_svnFloor (s : State) (n : Nat) (f : CoreSt → CoreSt) : (s.updCore n f).svnFloor = s.svnFloor := rfl
@[simp] theorem updCore_meas (s : State) (n : Nat) (f : CoreSt → CoreSt) : (s.updCore n f).meas = s.meas := rfl
@[simp] theorem updCore_update (s : State) (n : Nat) (f : CoreSt → CoreSt) : (s.updCore n f).update = s.update := rfl
@[simp] theorem updCore_i3cStatic (s : State) (n : Nat) (f : CoreSt → CoreSt) : (s.updCore n f).i3cStatic = s.i3cStatic := rfl
@[simp] theorem updCore_i3cDynamic (s : State) (n : Nat) (f : CoreSt → CoreSt) : (s.updCore n f).i3cDynamic = s.i3cDynamic := rfl
@[simp] theorem updCore_spdm (s : State) (n : Nat) (f : CoreSt → CoreSt) : (s.updCore n f).spdm = s.spdm := rfl
@[simp] theorem updCore_sent (s : State) (n : Nat) (f : CoreSt → CoreSt) : (s.updCore n f).sent = s.sent := rfl

/-! ## updCluster -/

@[simp] theorem updCluster_mode (s : State) (n : Nat) (f : Cluster → Cluster) : (s.updCluster n f).mode = s.mode := rfl
@[simp] theorem updCluster_now (s : State) (n : Nat) (f : Cluster → Cluster) : (s.updCluster n f).now = s.now := rfl
@[simp] theorem updCluster_free (s : State) (n : Nat) (f : Cluster → Cluster) : (s.updCluster n f).free = s.free := rfl
@[simp] theorem updCluster_agenda (s : State) (n : Nat) (f : Cluster → Cluster) : (s.updCluster n f).agenda = s.agenda := rfl
@[simp] theorem updCluster_acts (s : State) (n : Nat) (f : Cluster → Cluster) : (s.updCluster n f).acts = s.acts := rfl
@[simp] theorem updCluster_passed (s : State) (n : Nat) (f : Cluster → Cluster) : (s.updCluster n f).passed = s.passed := rfl
@[simp] theorem updCluster_timers (s : State) (n : Nat) (f : Cluster → Cluster) : (s.updCluster n f).timers = s.timers := rfl
@[simp] theorem updCluster_cur (s : State) (n : Nat) (f : Cluster → Cluster) : (s.updCluster n f).cur = s.cur := rfl
@[simp] theorem updCluster_arg (s : State) (n : Nat) (f : Cluster → Cluster) : (s.updCluster n f).arg = s.arg := rfl
@[simp] theorem updCluster_latch (s : State) (n : Nat) (f : Cluster → Cluster) : (s.updCluster n f).latch = s.latch := rfl
@[simp] theorem updCluster_resp (s : State) (n : Nat) (f : Cluster → Cluster) : (s.updCluster n f).resp = s.resp := rfl
@[simp] theorem updCluster_accs (s : State) (n : Nat) (f : Cluster → Cluster) : (s.updCluster n f).accs = s.accs := rfl
@[simp] theorem updCluster_memos (s : State) (n : Nat) (f : Cluster → Cluster) : (s.updCluster n f).memos = s.memos := rfl
@[simp] theorem updCluster_serial (s : State) (n : Nat) (f : Cluster → Cluster) : (s.updCluster n f).serial = s.serial := rfl
@[simp] theorem updCluster_ctxs (s : State) (n : Nat) (f : Cluster → Cluster) : (s.updCluster n f).ctxs = s.ctxs := rfl
@[simp] theorem updCluster_slots (s : State) (n : Nat) (f : Cluster → Cluster) : (s.updCluster n f).slots = s.slots := rfl
@[simp] theorem updCluster_cores (s : State) (n : Nat) (f : Cluster → Cluster) : (s.updCluster n f).cores = s.cores := rfl
@[simp] theorem updCluster_clusters (s : State) (n : Nat) (f : Cluster → Cluster) : (s.updCluster n f).clusters = mupd {} s.clusters n f := rfl
@[simp] theorem updCluster_tiles (s : State) (n : Nat) (f : Cluster → Cluster) : (s.updCluster n f).tiles = s.tiles := rfl
@[simp] theorem updCluster_dirs (s : State) (n : Nat) (f : Cluster → Cluster) : (s.updCluster n f).dirs = s.dirs := rfl
@[simp] theorem updCluster_agents (s : State) (n : Nat) (f : Cluster → Cluster) : (s.updCluster n f).agents = s.agents := rfl
@[simp] theorem updCluster_images (s : State) (n : Nat) (f : Cluster → Cluster) : (s.updCluster n f).images = s.images := rfl
@[simp] theorem updCluster_dram (s : State) (n : Nat) (f : Cluster → Cluster) : (s.updCluster n f).dram = s.dram := rfl
@[simp] theorem updCluster_fe (s : State) (n : Nat) (f : Cluster → Cluster) : (s.updCluster n f).fe = s.fe := rfl
@[simp] theorem updCluster_poison (s : State) (n : Nat) (f : Cluster → Cluster) : (s.updCluster n f).poison = s.poison := rfl
@[simp] theorem updCluster_lmem (s : State) (n : Nat) (f : Cluster → Cluster) : (s.updCluster n f).lmem = s.lmem := rfl
@[simp] theorem updCluster_lmemBad (s : State) (n : Nat) (f : Cluster → Cluster) : (s.updCluster n f).lmemBad = s.lmemBad := rfl
@[simp] theorem updCluster_lmInjLive (s : State) (n : Nat) (f : Cluster → Cluster) : (s.updCluster n f).lmInjLive = s.lmInjLive := rfl
@[simp] theorem updCluster_flash (s : State) (n : Nat) (f : Cluster → Cluster) : (s.updCluster n f).flash = s.flash := rfl
@[simp] theorem updCluster_csr (s : State) (n : Nat) (f : Cluster → Cluster) : (s.updCluster n f).csr = s.csr := rfl
@[simp] theorem updCluster_cubeSems (s : State) (n : Nat) (f : Cluster → Cluster) : (s.updCluster n f).cubeSems = s.cubeSems := rfl
@[simp] theorem updCluster_cubeWaiters (s : State) (n : Nat) (f : Cluster → Cluster) : (s.updCluster n f).cubeWaiters = s.cubeWaiters := rfl
@[simp] theorem updCluster_lqs (s : State) (n : Nat) (f : Cluster → Cluster) : (s.updCluster n f).lqs = s.lqs := rfl
@[simp] theorem updCluster_startBuf (s : State) (n : Nat) (f : Cluster → Cluster) : (s.updCluster n f).startBuf = s.startBuf := rfl
@[simp] theorem updCluster_lastServed (s : State) (n : Nat) (f : Cluster → Cluster) : (s.updCluster n f).lastServed = s.lastServed := rfl
@[simp] theorem updCluster_routers (s : State) (n : Nat) (f : Cluster → Cluster) : (s.updCluster n f).routers = s.routers := rfl
@[simp] theorem updCluster_ports (s : State) (n : Nat) (f : Cluster → Cluster) : (s.updCluster n f).ports = s.ports := rfl
@[simp] theorem updCluster_outst (s : State) (n : Nat) (f : Cluster → Cluster) : (s.updCluster n f).outst = s.outst := rfl
@[simp] theorem updCluster_colls (s : State) (n : Nat) (f : Cluster → Cluster) : (s.updCluster n f).colls = s.colls := rfl
@[simp] theorem updCluster_groups (s : State) (n : Nat) (f : Cluster → Cluster) : (s.updCluster n f).groups = s.groups := rfl
@[simp] theorem updCluster_prsets (s : State) (n : Nat) (f : Cluster → Cluster) : (s.updCluster n f).prsets = s.prsets := rfl
@[simp] theorem updCluster_ptloads (s : State) (n : Nat) (f : Cluster → Cluster) : (s.updCluster n f).ptloads = s.ptloads := rfl
@[simp] theorem updCluster_farRuns (s : State) (n : Nat) (f : Cluster → Cluster) : (s.updCluster n f).farRuns = s.farRuns := rfl
@[simp] theorem updCluster_held (s : State) (n : Nat) (f : Cluster → Cluster) : (s.updCluster n f).held = s.held := rfl
@[simp] theorem updCluster_tests (s : State) (n : Nat) (f : Cluster → Cluster) : (s.updCluster n f).tests = s.tests := rfl
@[simp] theorem updCluster_powered (s : State) (n : Nat) (f : Cluster → Cluster) : (s.updCluster n f).powered = s.powered := rfl
@[simp] theorem updCluster_errors (s : State) (n : Nat) (f : Cluster → Cluster) : (s.updCluster n f).errors = s.errors := rfl
@[simp] theorem updCluster_lifetime (s : State) (n : Nat) (f : Cluster → Cluster) : (s.updCluster n f).lifetime = s.lifetime := rfl
@[simp] theorem updCluster_repairs (s : State) (n : Nat) (f : Cluster → Cluster) : (s.updCluster n f).repairs = s.repairs := rfl
@[simp] theorem updCluster_svnFloor (s : State) (n : Nat) (f : Cluster → Cluster) : (s.updCluster n f).svnFloor = s.svnFloor := rfl
@[simp] theorem updCluster_meas (s : State) (n : Nat) (f : Cluster → Cluster) : (s.updCluster n f).meas = s.meas := rfl
@[simp] theorem updCluster_update (s : State) (n : Nat) (f : Cluster → Cluster) : (s.updCluster n f).update = s.update := rfl
@[simp] theorem updCluster_i3cStatic (s : State) (n : Nat) (f : Cluster → Cluster) : (s.updCluster n f).i3cStatic = s.i3cStatic := rfl
@[simp] theorem updCluster_i3cDynamic (s : State) (n : Nat) (f : Cluster → Cluster) : (s.updCluster n f).i3cDynamic = s.i3cDynamic := rfl
@[simp] theorem updCluster_spdm (s : State) (n : Nat) (f : Cluster → Cluster) : (s.updCluster n f).spdm = s.spdm := rfl
@[simp] theorem updCluster_sent (s : State) (n : Nat) (f : Cluster → Cluster) : (s.updCluster n f).sent = s.sent := rfl

/-! ## updTile -/

@[simp] theorem updTile_mode (s : State) (n : Nat) (f : Tile → Tile) : (s.updTile n f).mode = s.mode := rfl
@[simp] theorem updTile_now (s : State) (n : Nat) (f : Tile → Tile) : (s.updTile n f).now = s.now := rfl
@[simp] theorem updTile_free (s : State) (n : Nat) (f : Tile → Tile) : (s.updTile n f).free = s.free := rfl
@[simp] theorem updTile_agenda (s : State) (n : Nat) (f : Tile → Tile) : (s.updTile n f).agenda = s.agenda := rfl
@[simp] theorem updTile_acts (s : State) (n : Nat) (f : Tile → Tile) : (s.updTile n f).acts = s.acts := rfl
@[simp] theorem updTile_passed (s : State) (n : Nat) (f : Tile → Tile) : (s.updTile n f).passed = s.passed := rfl
@[simp] theorem updTile_timers (s : State) (n : Nat) (f : Tile → Tile) : (s.updTile n f).timers = s.timers := rfl
@[simp] theorem updTile_cur (s : State) (n : Nat) (f : Tile → Tile) : (s.updTile n f).cur = s.cur := rfl
@[simp] theorem updTile_arg (s : State) (n : Nat) (f : Tile → Tile) : (s.updTile n f).arg = s.arg := rfl
@[simp] theorem updTile_latch (s : State) (n : Nat) (f : Tile → Tile) : (s.updTile n f).latch = s.latch := rfl
@[simp] theorem updTile_resp (s : State) (n : Nat) (f : Tile → Tile) : (s.updTile n f).resp = s.resp := rfl
@[simp] theorem updTile_accs (s : State) (n : Nat) (f : Tile → Tile) : (s.updTile n f).accs = s.accs := rfl
@[simp] theorem updTile_memos (s : State) (n : Nat) (f : Tile → Tile) : (s.updTile n f).memos = s.memos := rfl
@[simp] theorem updTile_serial (s : State) (n : Nat) (f : Tile → Tile) : (s.updTile n f).serial = s.serial := rfl
@[simp] theorem updTile_ctxs (s : State) (n : Nat) (f : Tile → Tile) : (s.updTile n f).ctxs = s.ctxs := rfl
@[simp] theorem updTile_slots (s : State) (n : Nat) (f : Tile → Tile) : (s.updTile n f).slots = s.slots := rfl
@[simp] theorem updTile_cores (s : State) (n : Nat) (f : Tile → Tile) : (s.updTile n f).cores = s.cores := rfl
@[simp] theorem updTile_clusters (s : State) (n : Nat) (f : Tile → Tile) : (s.updTile n f).clusters = s.clusters := rfl
@[simp] theorem updTile_tiles (s : State) (n : Nat) (f : Tile → Tile) : (s.updTile n f).tiles = mupd {} s.tiles n f := rfl
@[simp] theorem updTile_dirs (s : State) (n : Nat) (f : Tile → Tile) : (s.updTile n f).dirs = s.dirs := rfl
@[simp] theorem updTile_agents (s : State) (n : Nat) (f : Tile → Tile) : (s.updTile n f).agents = s.agents := rfl
@[simp] theorem updTile_images (s : State) (n : Nat) (f : Tile → Tile) : (s.updTile n f).images = s.images := rfl
@[simp] theorem updTile_dram (s : State) (n : Nat) (f : Tile → Tile) : (s.updTile n f).dram = s.dram := rfl
@[simp] theorem updTile_fe (s : State) (n : Nat) (f : Tile → Tile) : (s.updTile n f).fe = s.fe := rfl
@[simp] theorem updTile_poison (s : State) (n : Nat) (f : Tile → Tile) : (s.updTile n f).poison = s.poison := rfl
@[simp] theorem updTile_lmem (s : State) (n : Nat) (f : Tile → Tile) : (s.updTile n f).lmem = s.lmem := rfl
@[simp] theorem updTile_lmemBad (s : State) (n : Nat) (f : Tile → Tile) : (s.updTile n f).lmemBad = s.lmemBad := rfl
@[simp] theorem updTile_lmInjLive (s : State) (n : Nat) (f : Tile → Tile) : (s.updTile n f).lmInjLive = s.lmInjLive := rfl
@[simp] theorem updTile_flash (s : State) (n : Nat) (f : Tile → Tile) : (s.updTile n f).flash = s.flash := rfl
@[simp] theorem updTile_csr (s : State) (n : Nat) (f : Tile → Tile) : (s.updTile n f).csr = s.csr := rfl
@[simp] theorem updTile_cubeSems (s : State) (n : Nat) (f : Tile → Tile) : (s.updTile n f).cubeSems = s.cubeSems := rfl
@[simp] theorem updTile_cubeWaiters (s : State) (n : Nat) (f : Tile → Tile) : (s.updTile n f).cubeWaiters = s.cubeWaiters := rfl
@[simp] theorem updTile_lqs (s : State) (n : Nat) (f : Tile → Tile) : (s.updTile n f).lqs = s.lqs := rfl
@[simp] theorem updTile_startBuf (s : State) (n : Nat) (f : Tile → Tile) : (s.updTile n f).startBuf = s.startBuf := rfl
@[simp] theorem updTile_lastServed (s : State) (n : Nat) (f : Tile → Tile) : (s.updTile n f).lastServed = s.lastServed := rfl
@[simp] theorem updTile_routers (s : State) (n : Nat) (f : Tile → Tile) : (s.updTile n f).routers = s.routers := rfl
@[simp] theorem updTile_ports (s : State) (n : Nat) (f : Tile → Tile) : (s.updTile n f).ports = s.ports := rfl
@[simp] theorem updTile_outst (s : State) (n : Nat) (f : Tile → Tile) : (s.updTile n f).outst = s.outst := rfl
@[simp] theorem updTile_colls (s : State) (n : Nat) (f : Tile → Tile) : (s.updTile n f).colls = s.colls := rfl
@[simp] theorem updTile_groups (s : State) (n : Nat) (f : Tile → Tile) : (s.updTile n f).groups = s.groups := rfl
@[simp] theorem updTile_prsets (s : State) (n : Nat) (f : Tile → Tile) : (s.updTile n f).prsets = s.prsets := rfl
@[simp] theorem updTile_ptloads (s : State) (n : Nat) (f : Tile → Tile) : (s.updTile n f).ptloads = s.ptloads := rfl
@[simp] theorem updTile_farRuns (s : State) (n : Nat) (f : Tile → Tile) : (s.updTile n f).farRuns = s.farRuns := rfl
@[simp] theorem updTile_held (s : State) (n : Nat) (f : Tile → Tile) : (s.updTile n f).held = s.held := rfl
@[simp] theorem updTile_tests (s : State) (n : Nat) (f : Tile → Tile) : (s.updTile n f).tests = s.tests := rfl
@[simp] theorem updTile_powered (s : State) (n : Nat) (f : Tile → Tile) : (s.updTile n f).powered = s.powered := rfl
@[simp] theorem updTile_errors (s : State) (n : Nat) (f : Tile → Tile) : (s.updTile n f).errors = s.errors := rfl
@[simp] theorem updTile_lifetime (s : State) (n : Nat) (f : Tile → Tile) : (s.updTile n f).lifetime = s.lifetime := rfl
@[simp] theorem updTile_repairs (s : State) (n : Nat) (f : Tile → Tile) : (s.updTile n f).repairs = s.repairs := rfl
@[simp] theorem updTile_svnFloor (s : State) (n : Nat) (f : Tile → Tile) : (s.updTile n f).svnFloor = s.svnFloor := rfl
@[simp] theorem updTile_meas (s : State) (n : Nat) (f : Tile → Tile) : (s.updTile n f).meas = s.meas := rfl
@[simp] theorem updTile_update (s : State) (n : Nat) (f : Tile → Tile) : (s.updTile n f).update = s.update := rfl
@[simp] theorem updTile_i3cStatic (s : State) (n : Nat) (f : Tile → Tile) : (s.updTile n f).i3cStatic = s.i3cStatic := rfl
@[simp] theorem updTile_i3cDynamic (s : State) (n : Nat) (f : Tile → Tile) : (s.updTile n f).i3cDynamic = s.i3cDynamic := rfl
@[simp] theorem updTile_spdm (s : State) (n : Nat) (f : Tile → Tile) : (s.updTile n f).spdm = s.spdm := rfl
@[simp] theorem updTile_sent (s : State) (n : Nat) (f : Tile → Tile) : (s.updTile n f).sent = s.sent := rfl

/-! ## setDir -/

@[simp] theorem setDir_mode (s : State) (l : Nat) (d : DirLine) : (s.setDir l d).mode = s.mode := rfl
@[simp] theorem setDir_now (s : State) (l : Nat) (d : DirLine) : (s.setDir l d).now = s.now := rfl
@[simp] theorem setDir_free (s : State) (l : Nat) (d : DirLine) : (s.setDir l d).free = s.free := rfl
@[simp] theorem setDir_agenda (s : State) (l : Nat) (d : DirLine) : (s.setDir l d).agenda = s.agenda := rfl
@[simp] theorem setDir_acts (s : State) (l : Nat) (d : DirLine) : (s.setDir l d).acts = s.acts := rfl
@[simp] theorem setDir_passed (s : State) (l : Nat) (d : DirLine) : (s.setDir l d).passed = s.passed := rfl
@[simp] theorem setDir_timers (s : State) (l : Nat) (d : DirLine) : (s.setDir l d).timers = s.timers := rfl
@[simp] theorem setDir_cur (s : State) (l : Nat) (d : DirLine) : (s.setDir l d).cur = s.cur := rfl
@[simp] theorem setDir_arg (s : State) (l : Nat) (d : DirLine) : (s.setDir l d).arg = s.arg := rfl
@[simp] theorem setDir_latch (s : State) (l : Nat) (d : DirLine) : (s.setDir l d).latch = s.latch := rfl
@[simp] theorem setDir_resp (s : State) (l : Nat) (d : DirLine) : (s.setDir l d).resp = s.resp := rfl
@[simp] theorem setDir_accs (s : State) (l : Nat) (d : DirLine) : (s.setDir l d).accs = s.accs := rfl
@[simp] theorem setDir_memos (s : State) (l : Nat) (d : DirLine) : (s.setDir l d).memos = s.memos := rfl
@[simp] theorem setDir_serial (s : State) (l : Nat) (d : DirLine) : (s.setDir l d).serial = s.serial := rfl
@[simp] theorem setDir_ctxs (s : State) (l : Nat) (d : DirLine) : (s.setDir l d).ctxs = s.ctxs := rfl
@[simp] theorem setDir_slots (s : State) (l : Nat) (d : DirLine) : (s.setDir l d).slots = s.slots := rfl
@[simp] theorem setDir_cores (s : State) (l : Nat) (d : DirLine) : (s.setDir l d).cores = s.cores := rfl
@[simp] theorem setDir_clusters (s : State) (l : Nat) (d : DirLine) : (s.setDir l d).clusters = s.clusters := rfl
@[simp] theorem setDir_tiles (s : State) (l : Nat) (d : DirLine) : (s.setDir l d).tiles = s.tiles := rfl
@[simp] theorem setDir_dirs (s : State) (l : Nat) (d : DirLine) : (s.setDir l d).dirs = mset {} s.dirs l d := rfl
@[simp] theorem setDir_agents (s : State) (l : Nat) (d : DirLine) : (s.setDir l d).agents = s.agents := rfl
@[simp] theorem setDir_images (s : State) (l : Nat) (d : DirLine) : (s.setDir l d).images = s.images := rfl
@[simp] theorem setDir_dram (s : State) (l : Nat) (d : DirLine) : (s.setDir l d).dram = s.dram := rfl
@[simp] theorem setDir_fe (s : State) (l : Nat) (d : DirLine) : (s.setDir l d).fe = s.fe := rfl
@[simp] theorem setDir_poison (s : State) (l : Nat) (d : DirLine) : (s.setDir l d).poison = s.poison := rfl
@[simp] theorem setDir_lmem (s : State) (l : Nat) (d : DirLine) : (s.setDir l d).lmem = s.lmem := rfl
@[simp] theorem setDir_lmemBad (s : State) (l : Nat) (d : DirLine) : (s.setDir l d).lmemBad = s.lmemBad := rfl
@[simp] theorem setDir_lmInjLive (s : State) (l : Nat) (d : DirLine) : (s.setDir l d).lmInjLive = s.lmInjLive := rfl
@[simp] theorem setDir_flash (s : State) (l : Nat) (d : DirLine) : (s.setDir l d).flash = s.flash := rfl
@[simp] theorem setDir_csr (s : State) (l : Nat) (d : DirLine) : (s.setDir l d).csr = s.csr := rfl
@[simp] theorem setDir_cubeSems (s : State) (l : Nat) (d : DirLine) : (s.setDir l d).cubeSems = s.cubeSems := rfl
@[simp] theorem setDir_cubeWaiters (s : State) (l : Nat) (d : DirLine) : (s.setDir l d).cubeWaiters = s.cubeWaiters := rfl
@[simp] theorem setDir_lqs (s : State) (l : Nat) (d : DirLine) : (s.setDir l d).lqs = s.lqs := rfl
@[simp] theorem setDir_startBuf (s : State) (l : Nat) (d : DirLine) : (s.setDir l d).startBuf = s.startBuf := rfl
@[simp] theorem setDir_lastServed (s : State) (l : Nat) (d : DirLine) : (s.setDir l d).lastServed = s.lastServed := rfl
@[simp] theorem setDir_routers (s : State) (l : Nat) (d : DirLine) : (s.setDir l d).routers = s.routers := rfl
@[simp] theorem setDir_ports (s : State) (l : Nat) (d : DirLine) : (s.setDir l d).ports = s.ports := rfl
@[simp] theorem setDir_outst (s : State) (l : Nat) (d : DirLine) : (s.setDir l d).outst = s.outst := rfl
@[simp] theorem setDir_colls (s : State) (l : Nat) (d : DirLine) : (s.setDir l d).colls = s.colls := rfl
@[simp] theorem setDir_groups (s : State) (l : Nat) (d : DirLine) : (s.setDir l d).groups = s.groups := rfl
@[simp] theorem setDir_prsets (s : State) (l : Nat) (d : DirLine) : (s.setDir l d).prsets = s.prsets := rfl
@[simp] theorem setDir_ptloads (s : State) (l : Nat) (d : DirLine) : (s.setDir l d).ptloads = s.ptloads := rfl
@[simp] theorem setDir_farRuns (s : State) (l : Nat) (d : DirLine) : (s.setDir l d).farRuns = s.farRuns := rfl
@[simp] theorem setDir_held (s : State) (l : Nat) (d : DirLine) : (s.setDir l d).held = s.held := rfl
@[simp] theorem setDir_tests (s : State) (l : Nat) (d : DirLine) : (s.setDir l d).tests = s.tests := rfl
@[simp] theorem setDir_powered (s : State) (l : Nat) (d : DirLine) : (s.setDir l d).powered = s.powered := rfl
@[simp] theorem setDir_errors (s : State) (l : Nat) (d : DirLine) : (s.setDir l d).errors = s.errors := rfl
@[simp] theorem setDir_lifetime (s : State) (l : Nat) (d : DirLine) : (s.setDir l d).lifetime = s.lifetime := rfl
@[simp] theorem setDir_repairs (s : State) (l : Nat) (d : DirLine) : (s.setDir l d).repairs = s.repairs := rfl
@[simp] theorem setDir_svnFloor (s : State) (l : Nat) (d : DirLine) : (s.setDir l d).svnFloor = s.svnFloor := rfl
@[simp] theorem setDir_meas (s : State) (l : Nat) (d : DirLine) : (s.setDir l d).meas = s.meas := rfl
@[simp] theorem setDir_update (s : State) (l : Nat) (d : DirLine) : (s.setDir l d).update = s.update := rfl
@[simp] theorem setDir_i3cStatic (s : State) (l : Nat) (d : DirLine) : (s.setDir l d).i3cStatic = s.i3cStatic := rfl
@[simp] theorem setDir_i3cDynamic (s : State) (l : Nat) (d : DirLine) : (s.setDir l d).i3cDynamic = s.i3cDynamic := rfl
@[simp] theorem setDir_spdm (s : State) (l : Nat) (d : DirLine) : (s.setDir l d).spdm = s.spdm := rfl
@[simp] theorem setDir_sent (s : State) (l : Nat) (d : DirLine) : (s.setDir l d).sent = s.sent := rfl

/-! ## setAgent -/

@[simp] theorem setAgent_mode (s : State) (t g : Nat) (a : AgentLine) : (s.setAgent t g a).mode = s.mode := rfl
@[simp] theorem setAgent_now (s : State) (t g : Nat) (a : AgentLine) : (s.setAgent t g a).now = s.now := rfl
@[simp] theorem setAgent_free (s : State) (t g : Nat) (a : AgentLine) : (s.setAgent t g a).free = s.free := rfl
@[simp] theorem setAgent_agenda (s : State) (t g : Nat) (a : AgentLine) : (s.setAgent t g a).agenda = s.agenda := rfl
@[simp] theorem setAgent_acts (s : State) (t g : Nat) (a : AgentLine) : (s.setAgent t g a).acts = s.acts := rfl
@[simp] theorem setAgent_passed (s : State) (t g : Nat) (a : AgentLine) : (s.setAgent t g a).passed = s.passed := rfl
@[simp] theorem setAgent_timers (s : State) (t g : Nat) (a : AgentLine) : (s.setAgent t g a).timers = s.timers := rfl
@[simp] theorem setAgent_cur (s : State) (t g : Nat) (a : AgentLine) : (s.setAgent t g a).cur = s.cur := rfl
@[simp] theorem setAgent_arg (s : State) (t g : Nat) (a : AgentLine) : (s.setAgent t g a).arg = s.arg := rfl
@[simp] theorem setAgent_latch (s : State) (t g : Nat) (a : AgentLine) : (s.setAgent t g a).latch = s.latch := rfl
@[simp] theorem setAgent_resp (s : State) (t g : Nat) (a : AgentLine) : (s.setAgent t g a).resp = s.resp := rfl
@[simp] theorem setAgent_accs (s : State) (t g : Nat) (a : AgentLine) : (s.setAgent t g a).accs = s.accs := rfl
@[simp] theorem setAgent_memos (s : State) (t g : Nat) (a : AgentLine) : (s.setAgent t g a).memos = s.memos := rfl
@[simp] theorem setAgent_serial (s : State) (t g : Nat) (a : AgentLine) : (s.setAgent t g a).serial = s.serial := rfl
@[simp] theorem setAgent_ctxs (s : State) (t g : Nat) (a : AgentLine) : (s.setAgent t g a).ctxs = s.ctxs := rfl
@[simp] theorem setAgent_slots (s : State) (t g : Nat) (a : AgentLine) : (s.setAgent t g a).slots = s.slots := rfl
@[simp] theorem setAgent_cores (s : State) (t g : Nat) (a : AgentLine) : (s.setAgent t g a).cores = s.cores := rfl
@[simp] theorem setAgent_clusters (s : State) (t g : Nat) (a : AgentLine) : (s.setAgent t g a).clusters = s.clusters := rfl
@[simp] theorem setAgent_tiles (s : State) (t g : Nat) (a : AgentLine) : (s.setAgent t g a).tiles = s.tiles := rfl
@[simp] theorem setAgent_dirs (s : State) (t g : Nat) (a : AgentLine) : (s.setAgent t g a).dirs = s.dirs := rfl
@[simp] theorem setAgent_agents (s : State) (t g : Nat) (a : AgentLine) : (s.setAgent t g a).agents = mset {} s.agents (agentKey t g) a := rfl
@[simp] theorem setAgent_images (s : State) (t g : Nat) (a : AgentLine) : (s.setAgent t g a).images = s.images := rfl
@[simp] theorem setAgent_dram (s : State) (t g : Nat) (a : AgentLine) : (s.setAgent t g a).dram = s.dram := rfl
@[simp] theorem setAgent_fe (s : State) (t g : Nat) (a : AgentLine) : (s.setAgent t g a).fe = s.fe := rfl
@[simp] theorem setAgent_poison (s : State) (t g : Nat) (a : AgentLine) : (s.setAgent t g a).poison = s.poison := rfl
@[simp] theorem setAgent_lmem (s : State) (t g : Nat) (a : AgentLine) : (s.setAgent t g a).lmem = s.lmem := rfl
@[simp] theorem setAgent_lmemBad (s : State) (t g : Nat) (a : AgentLine) : (s.setAgent t g a).lmemBad = s.lmemBad := rfl
@[simp] theorem setAgent_lmInjLive (s : State) (t g : Nat) (a : AgentLine) : (s.setAgent t g a).lmInjLive = s.lmInjLive := rfl
@[simp] theorem setAgent_flash (s : State) (t g : Nat) (a : AgentLine) : (s.setAgent t g a).flash = s.flash := rfl
@[simp] theorem setAgent_csr (s : State) (t g : Nat) (a : AgentLine) : (s.setAgent t g a).csr = s.csr := rfl
@[simp] theorem setAgent_cubeSems (s : State) (t g : Nat) (a : AgentLine) : (s.setAgent t g a).cubeSems = s.cubeSems := rfl
@[simp] theorem setAgent_cubeWaiters (s : State) (t g : Nat) (a : AgentLine) : (s.setAgent t g a).cubeWaiters = s.cubeWaiters := rfl
@[simp] theorem setAgent_lqs (s : State) (t g : Nat) (a : AgentLine) : (s.setAgent t g a).lqs = s.lqs := rfl
@[simp] theorem setAgent_startBuf (s : State) (t g : Nat) (a : AgentLine) : (s.setAgent t g a).startBuf = s.startBuf := rfl
@[simp] theorem setAgent_lastServed (s : State) (t g : Nat) (a : AgentLine) : (s.setAgent t g a).lastServed = s.lastServed := rfl
@[simp] theorem setAgent_routers (s : State) (t g : Nat) (a : AgentLine) : (s.setAgent t g a).routers = s.routers := rfl
@[simp] theorem setAgent_ports (s : State) (t g : Nat) (a : AgentLine) : (s.setAgent t g a).ports = s.ports := rfl
@[simp] theorem setAgent_outst (s : State) (t g : Nat) (a : AgentLine) : (s.setAgent t g a).outst = s.outst := rfl
@[simp] theorem setAgent_colls (s : State) (t g : Nat) (a : AgentLine) : (s.setAgent t g a).colls = s.colls := rfl
@[simp] theorem setAgent_groups (s : State) (t g : Nat) (a : AgentLine) : (s.setAgent t g a).groups = s.groups := rfl
@[simp] theorem setAgent_prsets (s : State) (t g : Nat) (a : AgentLine) : (s.setAgent t g a).prsets = s.prsets := rfl
@[simp] theorem setAgent_ptloads (s : State) (t g : Nat) (a : AgentLine) : (s.setAgent t g a).ptloads = s.ptloads := rfl
@[simp] theorem setAgent_farRuns (s : State) (t g : Nat) (a : AgentLine) : (s.setAgent t g a).farRuns = s.farRuns := rfl
@[simp] theorem setAgent_held (s : State) (t g : Nat) (a : AgentLine) : (s.setAgent t g a).held = s.held := rfl
@[simp] theorem setAgent_tests (s : State) (t g : Nat) (a : AgentLine) : (s.setAgent t g a).tests = s.tests := rfl
@[simp] theorem setAgent_powered (s : State) (t g : Nat) (a : AgentLine) : (s.setAgent t g a).powered = s.powered := rfl
@[simp] theorem setAgent_errors (s : State) (t g : Nat) (a : AgentLine) : (s.setAgent t g a).errors = s.errors := rfl
@[simp] theorem setAgent_lifetime (s : State) (t g : Nat) (a : AgentLine) : (s.setAgent t g a).lifetime = s.lifetime := rfl
@[simp] theorem setAgent_repairs (s : State) (t g : Nat) (a : AgentLine) : (s.setAgent t g a).repairs = s.repairs := rfl
@[simp] theorem setAgent_svnFloor (s : State) (t g : Nat) (a : AgentLine) : (s.setAgent t g a).svnFloor = s.svnFloor := rfl
@[simp] theorem setAgent_meas (s : State) (t g : Nat) (a : AgentLine) : (s.setAgent t g a).meas = s.meas := rfl
@[simp] theorem setAgent_update (s : State) (t g : Nat) (a : AgentLine) : (s.setAgent t g a).update = s.update := rfl
@[simp] theorem setAgent_i3cStatic (s : State) (t g : Nat) (a : AgentLine) : (s.setAgent t g a).i3cStatic = s.i3cStatic := rfl
@[simp] theorem setAgent_i3cDynamic (s : State) (t g : Nat) (a : AgentLine) : (s.setAgent t g a).i3cDynamic = s.i3cDynamic := rfl
@[simp] theorem setAgent_spdm (s : State) (t g : Nat) (a : AgentLine) : (s.setAgent t g a).spdm = s.spdm := rfl
@[simp] theorem setAgent_sent (s : State) (t g : Nat) (a : AgentLine) : (s.setAgent t g a).sent = s.sent := rfl

/-! ## updRouter -/

@[simp] theorem updRouter_mode (s : State) (r : Nat) (f : Router → Router) : (s.updRouter r f).mode = s.mode := rfl
@[simp] theorem updRouter_now (s : State) (r : Nat) (f : Router → Router) : (s.updRouter r f).now = s.now := rfl
@[simp] theorem updRouter_free (s : State) (r : Nat) (f : Router → Router) : (s.updRouter r f).free = s.free := rfl
@[simp] theorem updRouter_agenda (s : State) (r : Nat) (f : Router → Router) : (s.updRouter r f).agenda = s.agenda := rfl
@[simp] theorem updRouter_acts (s : State) (r : Nat) (f : Router → Router) : (s.updRouter r f).acts = s.acts := rfl
@[simp] theorem updRouter_passed (s : State) (r : Nat) (f : Router → Router) : (s.updRouter r f).passed = s.passed := rfl
@[simp] theorem updRouter_timers (s : State) (r : Nat) (f : Router → Router) : (s.updRouter r f).timers = s.timers := rfl
@[simp] theorem updRouter_cur (s : State) (r : Nat) (f : Router → Router) : (s.updRouter r f).cur = s.cur := rfl
@[simp] theorem updRouter_arg (s : State) (r : Nat) (f : Router → Router) : (s.updRouter r f).arg = s.arg := rfl
@[simp] theorem updRouter_latch (s : State) (r : Nat) (f : Router → Router) : (s.updRouter r f).latch = s.latch := rfl
@[simp] theorem updRouter_resp (s : State) (r : Nat) (f : Router → Router) : (s.updRouter r f).resp = s.resp := rfl
@[simp] theorem updRouter_accs (s : State) (r : Nat) (f : Router → Router) : (s.updRouter r f).accs = s.accs := rfl
@[simp] theorem updRouter_memos (s : State) (r : Nat) (f : Router → Router) : (s.updRouter r f).memos = s.memos := rfl
@[simp] theorem updRouter_serial (s : State) (r : Nat) (f : Router → Router) : (s.updRouter r f).serial = s.serial := rfl
@[simp] theorem updRouter_ctxs (s : State) (r : Nat) (f : Router → Router) : (s.updRouter r f).ctxs = s.ctxs := rfl
@[simp] theorem updRouter_slots (s : State) (r : Nat) (f : Router → Router) : (s.updRouter r f).slots = s.slots := rfl
@[simp] theorem updRouter_cores (s : State) (r : Nat) (f : Router → Router) : (s.updRouter r f).cores = s.cores := rfl
@[simp] theorem updRouter_clusters (s : State) (r : Nat) (f : Router → Router) : (s.updRouter r f).clusters = s.clusters := rfl
@[simp] theorem updRouter_tiles (s : State) (r : Nat) (f : Router → Router) : (s.updRouter r f).tiles = s.tiles := rfl
@[simp] theorem updRouter_dirs (s : State) (r : Nat) (f : Router → Router) : (s.updRouter r f).dirs = s.dirs := rfl
@[simp] theorem updRouter_agents (s : State) (r : Nat) (f : Router → Router) : (s.updRouter r f).agents = s.agents := rfl
@[simp] theorem updRouter_images (s : State) (r : Nat) (f : Router → Router) : (s.updRouter r f).images = s.images := rfl
@[simp] theorem updRouter_dram (s : State) (r : Nat) (f : Router → Router) : (s.updRouter r f).dram = s.dram := rfl
@[simp] theorem updRouter_fe (s : State) (r : Nat) (f : Router → Router) : (s.updRouter r f).fe = s.fe := rfl
@[simp] theorem updRouter_poison (s : State) (r : Nat) (f : Router → Router) : (s.updRouter r f).poison = s.poison := rfl
@[simp] theorem updRouter_lmem (s : State) (r : Nat) (f : Router → Router) : (s.updRouter r f).lmem = s.lmem := rfl
@[simp] theorem updRouter_lmemBad (s : State) (r : Nat) (f : Router → Router) : (s.updRouter r f).lmemBad = s.lmemBad := rfl
@[simp] theorem updRouter_lmInjLive (s : State) (r : Nat) (f : Router → Router) : (s.updRouter r f).lmInjLive = s.lmInjLive := rfl
@[simp] theorem updRouter_flash (s : State) (r : Nat) (f : Router → Router) : (s.updRouter r f).flash = s.flash := rfl
@[simp] theorem updRouter_csr (s : State) (r : Nat) (f : Router → Router) : (s.updRouter r f).csr = s.csr := rfl
@[simp] theorem updRouter_cubeSems (s : State) (r : Nat) (f : Router → Router) : (s.updRouter r f).cubeSems = s.cubeSems := rfl
@[simp] theorem updRouter_cubeWaiters (s : State) (r : Nat) (f : Router → Router) : (s.updRouter r f).cubeWaiters = s.cubeWaiters := rfl
@[simp] theorem updRouter_lqs (s : State) (r : Nat) (f : Router → Router) : (s.updRouter r f).lqs = s.lqs := rfl
@[simp] theorem updRouter_startBuf (s : State) (r : Nat) (f : Router → Router) : (s.updRouter r f).startBuf = s.startBuf := rfl
@[simp] theorem updRouter_lastServed (s : State) (r : Nat) (f : Router → Router) : (s.updRouter r f).lastServed = s.lastServed := rfl
@[simp] theorem updRouter_routers (s : State) (r : Nat) (f : Router → Router) : (s.updRouter r f).routers = mupd {} s.routers r f := rfl
@[simp] theorem updRouter_ports (s : State) (r : Nat) (f : Router → Router) : (s.updRouter r f).ports = s.ports := rfl
@[simp] theorem updRouter_outst (s : State) (r : Nat) (f : Router → Router) : (s.updRouter r f).outst = s.outst := rfl
@[simp] theorem updRouter_colls (s : State) (r : Nat) (f : Router → Router) : (s.updRouter r f).colls = s.colls := rfl
@[simp] theorem updRouter_groups (s : State) (r : Nat) (f : Router → Router) : (s.updRouter r f).groups = s.groups := rfl
@[simp] theorem updRouter_prsets (s : State) (r : Nat) (f : Router → Router) : (s.updRouter r f).prsets = s.prsets := rfl
@[simp] theorem updRouter_ptloads (s : State) (r : Nat) (f : Router → Router) : (s.updRouter r f).ptloads = s.ptloads := rfl
@[simp] theorem updRouter_farRuns (s : State) (r : Nat) (f : Router → Router) : (s.updRouter r f).farRuns = s.farRuns := rfl
@[simp] theorem updRouter_held (s : State) (r : Nat) (f : Router → Router) : (s.updRouter r f).held = s.held := rfl
@[simp] theorem updRouter_tests (s : State) (r : Nat) (f : Router → Router) : (s.updRouter r f).tests = s.tests := rfl
@[simp] theorem updRouter_powered (s : State) (r : Nat) (f : Router → Router) : (s.updRouter r f).powered = s.powered := rfl
@[simp] theorem updRouter_errors (s : State) (r : Nat) (f : Router → Router) : (s.updRouter r f).errors = s.errors := rfl
@[simp] theorem updRouter_lifetime (s : State) (r : Nat) (f : Router → Router) : (s.updRouter r f).lifetime = s.lifetime := rfl
@[simp] theorem updRouter_repairs (s : State) (r : Nat) (f : Router → Router) : (s.updRouter r f).repairs = s.repairs := rfl
@[simp] theorem updRouter_svnFloor (s : State) (r : Nat) (f : Router → Router) : (s.updRouter r f).svnFloor = s.svnFloor := rfl
@[simp] theorem updRouter_meas (s : State) (r : Nat) (f : Router → Router) : (s.updRouter r f).meas = s.meas := rfl
@[simp] theorem updRouter_update (s : State) (r : Nat) (f : Router → Router) : (s.updRouter r f).update = s.update := rfl
@[simp] theorem updRouter_i3cStatic (s : State) (r : Nat) (f : Router → Router) : (s.updRouter r f).i3cStatic = s.i3cStatic := rfl
@[simp] theorem updRouter_i3cDynamic (s : State) (r : Nat) (f : Router → Router) : (s.updRouter r f).i3cDynamic = s.i3cDynamic := rfl
@[simp] theorem updRouter_spdm (s : State) (r : Nat) (f : Router → Router) : (s.updRouter r f).spdm = s.spdm := rfl
@[simp] theorem updRouter_sent (s : State) (r : Nat) (f : Router → Router) : (s.updRouter r f).sent = s.sent := rfl

/-! ## updPort -/

@[simp] theorem updPort_mode (s : State) (p : Nat) (f : Port → Port) : (s.updPort p f).mode = s.mode := rfl
@[simp] theorem updPort_now (s : State) (p : Nat) (f : Port → Port) : (s.updPort p f).now = s.now := rfl
@[simp] theorem updPort_free (s : State) (p : Nat) (f : Port → Port) : (s.updPort p f).free = s.free := rfl
@[simp] theorem updPort_agenda (s : State) (p : Nat) (f : Port → Port) : (s.updPort p f).agenda = s.agenda := rfl
@[simp] theorem updPort_acts (s : State) (p : Nat) (f : Port → Port) : (s.updPort p f).acts = s.acts := rfl
@[simp] theorem updPort_passed (s : State) (p : Nat) (f : Port → Port) : (s.updPort p f).passed = s.passed := rfl
@[simp] theorem updPort_timers (s : State) (p : Nat) (f : Port → Port) : (s.updPort p f).timers = s.timers := rfl
@[simp] theorem updPort_cur (s : State) (p : Nat) (f : Port → Port) : (s.updPort p f).cur = s.cur := rfl
@[simp] theorem updPort_arg (s : State) (p : Nat) (f : Port → Port) : (s.updPort p f).arg = s.arg := rfl
@[simp] theorem updPort_latch (s : State) (p : Nat) (f : Port → Port) : (s.updPort p f).latch = s.latch := rfl
@[simp] theorem updPort_resp (s : State) (p : Nat) (f : Port → Port) : (s.updPort p f).resp = s.resp := rfl
@[simp] theorem updPort_accs (s : State) (p : Nat) (f : Port → Port) : (s.updPort p f).accs = s.accs := rfl
@[simp] theorem updPort_memos (s : State) (p : Nat) (f : Port → Port) : (s.updPort p f).memos = s.memos := rfl
@[simp] theorem updPort_serial (s : State) (p : Nat) (f : Port → Port) : (s.updPort p f).serial = s.serial := rfl
@[simp] theorem updPort_ctxs (s : State) (p : Nat) (f : Port → Port) : (s.updPort p f).ctxs = s.ctxs := rfl
@[simp] theorem updPort_slots (s : State) (p : Nat) (f : Port → Port) : (s.updPort p f).slots = s.slots := rfl
@[simp] theorem updPort_cores (s : State) (p : Nat) (f : Port → Port) : (s.updPort p f).cores = s.cores := rfl
@[simp] theorem updPort_clusters (s : State) (p : Nat) (f : Port → Port) : (s.updPort p f).clusters = s.clusters := rfl
@[simp] theorem updPort_tiles (s : State) (p : Nat) (f : Port → Port) : (s.updPort p f).tiles = s.tiles := rfl
@[simp] theorem updPort_dirs (s : State) (p : Nat) (f : Port → Port) : (s.updPort p f).dirs = s.dirs := rfl
@[simp] theorem updPort_agents (s : State) (p : Nat) (f : Port → Port) : (s.updPort p f).agents = s.agents := rfl
@[simp] theorem updPort_images (s : State) (p : Nat) (f : Port → Port) : (s.updPort p f).images = s.images := rfl
@[simp] theorem updPort_dram (s : State) (p : Nat) (f : Port → Port) : (s.updPort p f).dram = s.dram := rfl
@[simp] theorem updPort_fe (s : State) (p : Nat) (f : Port → Port) : (s.updPort p f).fe = s.fe := rfl
@[simp] theorem updPort_poison (s : State) (p : Nat) (f : Port → Port) : (s.updPort p f).poison = s.poison := rfl
@[simp] theorem updPort_lmem (s : State) (p : Nat) (f : Port → Port) : (s.updPort p f).lmem = s.lmem := rfl
@[simp] theorem updPort_lmemBad (s : State) (p : Nat) (f : Port → Port) : (s.updPort p f).lmemBad = s.lmemBad := rfl
@[simp] theorem updPort_lmInjLive (s : State) (p : Nat) (f : Port → Port) : (s.updPort p f).lmInjLive = s.lmInjLive := rfl
@[simp] theorem updPort_flash (s : State) (p : Nat) (f : Port → Port) : (s.updPort p f).flash = s.flash := rfl
@[simp] theorem updPort_csr (s : State) (p : Nat) (f : Port → Port) : (s.updPort p f).csr = s.csr := rfl
@[simp] theorem updPort_cubeSems (s : State) (p : Nat) (f : Port → Port) : (s.updPort p f).cubeSems = s.cubeSems := rfl
@[simp] theorem updPort_cubeWaiters (s : State) (p : Nat) (f : Port → Port) : (s.updPort p f).cubeWaiters = s.cubeWaiters := rfl
@[simp] theorem updPort_lqs (s : State) (p : Nat) (f : Port → Port) : (s.updPort p f).lqs = s.lqs := rfl
@[simp] theorem updPort_startBuf (s : State) (p : Nat) (f : Port → Port) : (s.updPort p f).startBuf = s.startBuf := rfl
@[simp] theorem updPort_lastServed (s : State) (p : Nat) (f : Port → Port) : (s.updPort p f).lastServed = s.lastServed := rfl
@[simp] theorem updPort_routers (s : State) (p : Nat) (f : Port → Port) : (s.updPort p f).routers = s.routers := rfl
@[simp] theorem updPort_ports (s : State) (p : Nat) (f : Port → Port) : (s.updPort p f).ports = mupd {} s.ports p f := rfl
@[simp] theorem updPort_outst (s : State) (p : Nat) (f : Port → Port) : (s.updPort p f).outst = s.outst := rfl
@[simp] theorem updPort_colls (s : State) (p : Nat) (f : Port → Port) : (s.updPort p f).colls = s.colls := rfl
@[simp] theorem updPort_groups (s : State) (p : Nat) (f : Port → Port) : (s.updPort p f).groups = s.groups := rfl
@[simp] theorem updPort_prsets (s : State) (p : Nat) (f : Port → Port) : (s.updPort p f).prsets = s.prsets := rfl
@[simp] theorem updPort_ptloads (s : State) (p : Nat) (f : Port → Port) : (s.updPort p f).ptloads = s.ptloads := rfl
@[simp] theorem updPort_farRuns (s : State) (p : Nat) (f : Port → Port) : (s.updPort p f).farRuns = s.farRuns := rfl
@[simp] theorem updPort_held (s : State) (p : Nat) (f : Port → Port) : (s.updPort p f).held = s.held := rfl
@[simp] theorem updPort_tests (s : State) (p : Nat) (f : Port → Port) : (s.updPort p f).tests = s.tests := rfl
@[simp] theorem updPort_powered (s : State) (p : Nat) (f : Port → Port) : (s.updPort p f).powered = s.powered := rfl
@[simp] theorem updPort_errors (s : State) (p : Nat) (f : Port → Port) : (s.updPort p f).errors = s.errors := rfl
@[simp] theorem updPort_lifetime (s : State) (p : Nat) (f : Port → Port) : (s.updPort p f).lifetime = s.lifetime := rfl
@[simp] theorem updPort_repairs (s : State) (p : Nat) (f : Port → Port) : (s.updPort p f).repairs = s.repairs := rfl
@[simp] theorem updPort_svnFloor (s : State) (p : Nat) (f : Port → Port) : (s.updPort p f).svnFloor = s.svnFloor := rfl
@[simp] theorem updPort_meas (s : State) (p : Nat) (f : Port → Port) : (s.updPort p f).meas = s.meas := rfl
@[simp] theorem updPort_update (s : State) (p : Nat) (f : Port → Port) : (s.updPort p f).update = s.update := rfl
@[simp] theorem updPort_i3cStatic (s : State) (p : Nat) (f : Port → Port) : (s.updPort p f).i3cStatic = s.i3cStatic := rfl
@[simp] theorem updPort_i3cDynamic (s : State) (p : Nat) (f : Port → Port) : (s.updPort p f).i3cDynamic = s.i3cDynamic := rfl
@[simp] theorem updPort_spdm (s : State) (p : Nat) (f : Port → Port) : (s.updPort p f).spdm = s.spdm := rfl
@[simp] theorem updPort_sent (s : State) (p : Nat) (f : Port → Port) : (s.updPort p f).sent = s.sent := rfl

/-! ## updLq -/

@[simp] theorem updLq_mode (s : State) (q : Nat) (f : LQueue → LQueue) : (s.updLq q f).mode = s.mode := rfl
@[simp] theorem updLq_now (s : State) (q : Nat) (f : LQueue → LQueue) : (s.updLq q f).now = s.now := rfl
@[simp] theorem updLq_free (s : State) (q : Nat) (f : LQueue → LQueue) : (s.updLq q f).free = s.free := rfl
@[simp] theorem updLq_agenda (s : State) (q : Nat) (f : LQueue → LQueue) : (s.updLq q f).agenda = s.agenda := rfl
@[simp] theorem updLq_acts (s : State) (q : Nat) (f : LQueue → LQueue) : (s.updLq q f).acts = s.acts := rfl
@[simp] theorem updLq_passed (s : State) (q : Nat) (f : LQueue → LQueue) : (s.updLq q f).passed = s.passed := rfl
@[simp] theorem updLq_timers (s : State) (q : Nat) (f : LQueue → LQueue) : (s.updLq q f).timers = s.timers := rfl
@[simp] theorem updLq_cur (s : State) (q : Nat) (f : LQueue → LQueue) : (s.updLq q f).cur = s.cur := rfl
@[simp] theorem updLq_arg (s : State) (q : Nat) (f : LQueue → LQueue) : (s.updLq q f).arg = s.arg := rfl
@[simp] theorem updLq_latch (s : State) (q : Nat) (f : LQueue → LQueue) : (s.updLq q f).latch = s.latch := rfl
@[simp] theorem updLq_resp (s : State) (q : Nat) (f : LQueue → LQueue) : (s.updLq q f).resp = s.resp := rfl
@[simp] theorem updLq_accs (s : State) (q : Nat) (f : LQueue → LQueue) : (s.updLq q f).accs = s.accs := rfl
@[simp] theorem updLq_memos (s : State) (q : Nat) (f : LQueue → LQueue) : (s.updLq q f).memos = s.memos := rfl
@[simp] theorem updLq_serial (s : State) (q : Nat) (f : LQueue → LQueue) : (s.updLq q f).serial = s.serial := rfl
@[simp] theorem updLq_ctxs (s : State) (q : Nat) (f : LQueue → LQueue) : (s.updLq q f).ctxs = s.ctxs := rfl
@[simp] theorem updLq_slots (s : State) (q : Nat) (f : LQueue → LQueue) : (s.updLq q f).slots = s.slots := rfl
@[simp] theorem updLq_cores (s : State) (q : Nat) (f : LQueue → LQueue) : (s.updLq q f).cores = s.cores := rfl
@[simp] theorem updLq_clusters (s : State) (q : Nat) (f : LQueue → LQueue) : (s.updLq q f).clusters = s.clusters := rfl
@[simp] theorem updLq_tiles (s : State) (q : Nat) (f : LQueue → LQueue) : (s.updLq q f).tiles = s.tiles := rfl
@[simp] theorem updLq_dirs (s : State) (q : Nat) (f : LQueue → LQueue) : (s.updLq q f).dirs = s.dirs := rfl
@[simp] theorem updLq_agents (s : State) (q : Nat) (f : LQueue → LQueue) : (s.updLq q f).agents = s.agents := rfl
@[simp] theorem updLq_images (s : State) (q : Nat) (f : LQueue → LQueue) : (s.updLq q f).images = s.images := rfl
@[simp] theorem updLq_dram (s : State) (q : Nat) (f : LQueue → LQueue) : (s.updLq q f).dram = s.dram := rfl
@[simp] theorem updLq_fe (s : State) (q : Nat) (f : LQueue → LQueue) : (s.updLq q f).fe = s.fe := rfl
@[simp] theorem updLq_poison (s : State) (q : Nat) (f : LQueue → LQueue) : (s.updLq q f).poison = s.poison := rfl
@[simp] theorem updLq_lmem (s : State) (q : Nat) (f : LQueue → LQueue) : (s.updLq q f).lmem = s.lmem := rfl
@[simp] theorem updLq_lmemBad (s : State) (q : Nat) (f : LQueue → LQueue) : (s.updLq q f).lmemBad = s.lmemBad := rfl
@[simp] theorem updLq_lmInjLive (s : State) (q : Nat) (f : LQueue → LQueue) : (s.updLq q f).lmInjLive = s.lmInjLive := rfl
@[simp] theorem updLq_flash (s : State) (q : Nat) (f : LQueue → LQueue) : (s.updLq q f).flash = s.flash := rfl
@[simp] theorem updLq_csr (s : State) (q : Nat) (f : LQueue → LQueue) : (s.updLq q f).csr = s.csr := rfl
@[simp] theorem updLq_cubeSems (s : State) (q : Nat) (f : LQueue → LQueue) : (s.updLq q f).cubeSems = s.cubeSems := rfl
@[simp] theorem updLq_cubeWaiters (s : State) (q : Nat) (f : LQueue → LQueue) : (s.updLq q f).cubeWaiters = s.cubeWaiters := rfl
@[simp] theorem updLq_lqs (s : State) (q : Nat) (f : LQueue → LQueue) : (s.updLq q f).lqs = mupd {} s.lqs q f := rfl
@[simp] theorem updLq_startBuf (s : State) (q : Nat) (f : LQueue → LQueue) : (s.updLq q f).startBuf = s.startBuf := rfl
@[simp] theorem updLq_lastServed (s : State) (q : Nat) (f : LQueue → LQueue) : (s.updLq q f).lastServed = s.lastServed := rfl
@[simp] theorem updLq_routers (s : State) (q : Nat) (f : LQueue → LQueue) : (s.updLq q f).routers = s.routers := rfl
@[simp] theorem updLq_ports (s : State) (q : Nat) (f : LQueue → LQueue) : (s.updLq q f).ports = s.ports := rfl
@[simp] theorem updLq_outst (s : State) (q : Nat) (f : LQueue → LQueue) : (s.updLq q f).outst = s.outst := rfl
@[simp] theorem updLq_colls (s : State) (q : Nat) (f : LQueue → LQueue) : (s.updLq q f).colls = s.colls := rfl
@[simp] theorem updLq_groups (s : State) (q : Nat) (f : LQueue → LQueue) : (s.updLq q f).groups = s.groups := rfl
@[simp] theorem updLq_prsets (s : State) (q : Nat) (f : LQueue → LQueue) : (s.updLq q f).prsets = s.prsets := rfl
@[simp] theorem updLq_ptloads (s : State) (q : Nat) (f : LQueue → LQueue) : (s.updLq q f).ptloads = s.ptloads := rfl
@[simp] theorem updLq_farRuns (s : State) (q : Nat) (f : LQueue → LQueue) : (s.updLq q f).farRuns = s.farRuns := rfl
@[simp] theorem updLq_held (s : State) (q : Nat) (f : LQueue → LQueue) : (s.updLq q f).held = s.held := rfl
@[simp] theorem updLq_tests (s : State) (q : Nat) (f : LQueue → LQueue) : (s.updLq q f).tests = s.tests := rfl
@[simp] theorem updLq_powered (s : State) (q : Nat) (f : LQueue → LQueue) : (s.updLq q f).powered = s.powered := rfl
@[simp] theorem updLq_errors (s : State) (q : Nat) (f : LQueue → LQueue) : (s.updLq q f).errors = s.errors := rfl
@[simp] theorem updLq_lifetime (s : State) (q : Nat) (f : LQueue → LQueue) : (s.updLq q f).lifetime = s.lifetime := rfl
@[simp] theorem updLq_repairs (s : State) (q : Nat) (f : LQueue → LQueue) : (s.updLq q f).repairs = s.repairs := rfl
@[simp] theorem updLq_svnFloor (s : State) (q : Nat) (f : LQueue → LQueue) : (s.updLq q f).svnFloor = s.svnFloor := rfl
@[simp] theorem updLq_meas (s : State) (q : Nat) (f : LQueue → LQueue) : (s.updLq q f).meas = s.meas := rfl
@[simp] theorem updLq_update (s : State) (q : Nat) (f : LQueue → LQueue) : (s.updLq q f).update = s.update := rfl
@[simp] theorem updLq_i3cStatic (s : State) (q : Nat) (f : LQueue → LQueue) : (s.updLq q f).i3cStatic = s.i3cStatic := rfl
@[simp] theorem updLq_i3cDynamic (s : State) (q : Nat) (f : LQueue → LQueue) : (s.updLq q f).i3cDynamic = s.i3cDynamic := rfl
@[simp] theorem updLq_spdm (s : State) (q : Nat) (f : LQueue → LQueue) : (s.updLq q f).spdm = s.spdm := rfl
@[simp] theorem updLq_sent (s : State) (q : Nat) (f : LQueue → LQueue) : (s.updLq q f).sent = s.sent := rfl

/-! ## updGroup -/

@[simp] theorem updGroup_mode (s : State) (g : Nat) (f : CollGroup → CollGroup) : (s.updGroup g f).mode = s.mode := rfl
@[simp] theorem updGroup_now (s : State) (g : Nat) (f : CollGroup → CollGroup) : (s.updGroup g f).now = s.now := rfl
@[simp] theorem updGroup_free (s : State) (g : Nat) (f : CollGroup → CollGroup) : (s.updGroup g f).free = s.free := rfl
@[simp] theorem updGroup_agenda (s : State) (g : Nat) (f : CollGroup → CollGroup) : (s.updGroup g f).agenda = s.agenda := rfl
@[simp] theorem updGroup_acts (s : State) (g : Nat) (f : CollGroup → CollGroup) : (s.updGroup g f).acts = s.acts := rfl
@[simp] theorem updGroup_passed (s : State) (g : Nat) (f : CollGroup → CollGroup) : (s.updGroup g f).passed = s.passed := rfl
@[simp] theorem updGroup_timers (s : State) (g : Nat) (f : CollGroup → CollGroup) : (s.updGroup g f).timers = s.timers := rfl
@[simp] theorem updGroup_cur (s : State) (g : Nat) (f : CollGroup → CollGroup) : (s.updGroup g f).cur = s.cur := rfl
@[simp] theorem updGroup_arg (s : State) (g : Nat) (f : CollGroup → CollGroup) : (s.updGroup g f).arg = s.arg := rfl
@[simp] theorem updGroup_latch (s : State) (g : Nat) (f : CollGroup → CollGroup) : (s.updGroup g f).latch = s.latch := rfl
@[simp] theorem updGroup_resp (s : State) (g : Nat) (f : CollGroup → CollGroup) : (s.updGroup g f).resp = s.resp := rfl
@[simp] theorem updGroup_accs (s : State) (g : Nat) (f : CollGroup → CollGroup) : (s.updGroup g f).accs = s.accs := rfl
@[simp] theorem updGroup_memos (s : State) (g : Nat) (f : CollGroup → CollGroup) : (s.updGroup g f).memos = s.memos := rfl
@[simp] theorem updGroup_serial (s : State) (g : Nat) (f : CollGroup → CollGroup) : (s.updGroup g f).serial = s.serial := rfl
@[simp] theorem updGroup_ctxs (s : State) (g : Nat) (f : CollGroup → CollGroup) : (s.updGroup g f).ctxs = s.ctxs := rfl
@[simp] theorem updGroup_slots (s : State) (g : Nat) (f : CollGroup → CollGroup) : (s.updGroup g f).slots = s.slots := rfl
@[simp] theorem updGroup_cores (s : State) (g : Nat) (f : CollGroup → CollGroup) : (s.updGroup g f).cores = s.cores := rfl
@[simp] theorem updGroup_clusters (s : State) (g : Nat) (f : CollGroup → CollGroup) : (s.updGroup g f).clusters = s.clusters := rfl
@[simp] theorem updGroup_tiles (s : State) (g : Nat) (f : CollGroup → CollGroup) : (s.updGroup g f).tiles = s.tiles := rfl
@[simp] theorem updGroup_dirs (s : State) (g : Nat) (f : CollGroup → CollGroup) : (s.updGroup g f).dirs = s.dirs := rfl
@[simp] theorem updGroup_agents (s : State) (g : Nat) (f : CollGroup → CollGroup) : (s.updGroup g f).agents = s.agents := rfl
@[simp] theorem updGroup_images (s : State) (g : Nat) (f : CollGroup → CollGroup) : (s.updGroup g f).images = s.images := rfl
@[simp] theorem updGroup_dram (s : State) (g : Nat) (f : CollGroup → CollGroup) : (s.updGroup g f).dram = s.dram := rfl
@[simp] theorem updGroup_fe (s : State) (g : Nat) (f : CollGroup → CollGroup) : (s.updGroup g f).fe = s.fe := rfl
@[simp] theorem updGroup_poison (s : State) (g : Nat) (f : CollGroup → CollGroup) : (s.updGroup g f).poison = s.poison := rfl
@[simp] theorem updGroup_lmem (s : State) (g : Nat) (f : CollGroup → CollGroup) : (s.updGroup g f).lmem = s.lmem := rfl
@[simp] theorem updGroup_lmemBad (s : State) (g : Nat) (f : CollGroup → CollGroup) : (s.updGroup g f).lmemBad = s.lmemBad := rfl
@[simp] theorem updGroup_lmInjLive (s : State) (g : Nat) (f : CollGroup → CollGroup) : (s.updGroup g f).lmInjLive = s.lmInjLive := rfl
@[simp] theorem updGroup_flash (s : State) (g : Nat) (f : CollGroup → CollGroup) : (s.updGroup g f).flash = s.flash := rfl
@[simp] theorem updGroup_csr (s : State) (g : Nat) (f : CollGroup → CollGroup) : (s.updGroup g f).csr = s.csr := rfl
@[simp] theorem updGroup_cubeSems (s : State) (g : Nat) (f : CollGroup → CollGroup) : (s.updGroup g f).cubeSems = s.cubeSems := rfl
@[simp] theorem updGroup_cubeWaiters (s : State) (g : Nat) (f : CollGroup → CollGroup) : (s.updGroup g f).cubeWaiters = s.cubeWaiters := rfl
@[simp] theorem updGroup_lqs (s : State) (g : Nat) (f : CollGroup → CollGroup) : (s.updGroup g f).lqs = s.lqs := rfl
@[simp] theorem updGroup_startBuf (s : State) (g : Nat) (f : CollGroup → CollGroup) : (s.updGroup g f).startBuf = s.startBuf := rfl
@[simp] theorem updGroup_lastServed (s : State) (g : Nat) (f : CollGroup → CollGroup) : (s.updGroup g f).lastServed = s.lastServed := rfl
@[simp] theorem updGroup_routers (s : State) (g : Nat) (f : CollGroup → CollGroup) : (s.updGroup g f).routers = s.routers := rfl
@[simp] theorem updGroup_ports (s : State) (g : Nat) (f : CollGroup → CollGroup) : (s.updGroup g f).ports = s.ports := rfl
@[simp] theorem updGroup_outst (s : State) (g : Nat) (f : CollGroup → CollGroup) : (s.updGroup g f).outst = s.outst := rfl
@[simp] theorem updGroup_colls (s : State) (g : Nat) (f : CollGroup → CollGroup) : (s.updGroup g f).colls = s.colls := rfl
@[simp] theorem updGroup_groups (s : State) (g : Nat) (f : CollGroup → CollGroup) : (s.updGroup g f).groups = mupd {} s.groups g f := rfl
@[simp] theorem updGroup_prsets (s : State) (g : Nat) (f : CollGroup → CollGroup) : (s.updGroup g f).prsets = s.prsets := rfl
@[simp] theorem updGroup_ptloads (s : State) (g : Nat) (f : CollGroup → CollGroup) : (s.updGroup g f).ptloads = s.ptloads := rfl
@[simp] theorem updGroup_farRuns (s : State) (g : Nat) (f : CollGroup → CollGroup) : (s.updGroup g f).farRuns = s.farRuns := rfl
@[simp] theorem updGroup_held (s : State) (g : Nat) (f : CollGroup → CollGroup) : (s.updGroup g f).held = s.held := rfl
@[simp] theorem updGroup_tests (s : State) (g : Nat) (f : CollGroup → CollGroup) : (s.updGroup g f).tests = s.tests := rfl
@[simp] theorem updGroup_powered (s : State) (g : Nat) (f : CollGroup → CollGroup) : (s.updGroup g f).powered = s.powered := rfl
@[simp] theorem updGroup_errors (s : State) (g : Nat) (f : CollGroup → CollGroup) : (s.updGroup g f).errors = s.errors := rfl
@[simp] theorem updGroup_lifetime (s : State) (g : Nat) (f : CollGroup → CollGroup) : (s.updGroup g f).lifetime = s.lifetime := rfl
@[simp] theorem updGroup_repairs (s : State) (g : Nat) (f : CollGroup → CollGroup) : (s.updGroup g f).repairs = s.repairs := rfl
@[simp] theorem updGroup_svnFloor (s : State) (g : Nat) (f : CollGroup → CollGroup) : (s.updGroup g f).svnFloor = s.svnFloor := rfl
@[simp] theorem updGroup_meas (s : State) (g : Nat) (f : CollGroup → CollGroup) : (s.updGroup g f).meas = s.meas := rfl
@[simp] theorem updGroup_update (s : State) (g : Nat) (f : CollGroup → CollGroup) : (s.updGroup g f).update = s.update := rfl
@[simp] theorem updGroup_i3cStatic (s : State) (g : Nat) (f : CollGroup → CollGroup) : (s.updGroup g f).i3cStatic = s.i3cStatic := rfl
@[simp] theorem updGroup_i3cDynamic (s : State) (g : Nat) (f : CollGroup → CollGroup) : (s.updGroup g f).i3cDynamic = s.i3cDynamic := rfl
@[simp] theorem updGroup_spdm (s : State) (g : Nat) (f : CollGroup → CollGroup) : (s.updGroup g f).spdm = s.spdm := rfl
@[simp] theorem updGroup_sent (s : State) (g : Nat) (f : CollGroup → CollGroup) : (s.updGroup g f).sent = s.sent := rfl

/-! ## post -/

@[simp] theorem post_mode (s : State) (i : Instr) (a : EvArg) : (s.post i a).mode = s.mode := rfl
@[simp] theorem post_now (s : State) (i : Instr) (a : EvArg) : (s.post i a).now = s.now := rfl
@[simp] theorem post_free (s : State) (i : Instr) (a : EvArg) : (s.post i a).free = s.free := rfl
@[simp] theorem post_agenda (s : State) (i : Instr) (a : EvArg) : (s.post i a).agenda = s.agenda ++ [.event i a] := rfl
@[simp] theorem post_acts (s : State) (i : Instr) (a : EvArg) : (s.post i a).acts = s.acts := rfl
@[simp] theorem post_passed (s : State) (i : Instr) (a : EvArg) : (s.post i a).passed = s.passed := rfl
@[simp] theorem post_timers (s : State) (i : Instr) (a : EvArg) : (s.post i a).timers = s.timers := rfl
@[simp] theorem post_cur (s : State) (i : Instr) (a : EvArg) : (s.post i a).cur = s.cur := rfl
@[simp] theorem post_arg (s : State) (i : Instr) (a : EvArg) : (s.post i a).arg = s.arg := rfl
@[simp] theorem post_latch (s : State) (i : Instr) (a : EvArg) : (s.post i a).latch = s.latch := rfl
@[simp] theorem post_resp (s : State) (i : Instr) (a : EvArg) : (s.post i a).resp = s.resp := rfl
@[simp] theorem post_accs (s : State) (i : Instr) (a : EvArg) : (s.post i a).accs = s.accs := rfl
@[simp] theorem post_memos (s : State) (i : Instr) (a : EvArg) : (s.post i a).memos = s.memos := rfl
@[simp] theorem post_serial (s : State) (i : Instr) (a : EvArg) : (s.post i a).serial = s.serial := rfl
@[simp] theorem post_ctxs (s : State) (i : Instr) (a : EvArg) : (s.post i a).ctxs = s.ctxs := rfl
@[simp] theorem post_slots (s : State) (i : Instr) (a : EvArg) : (s.post i a).slots = s.slots := rfl
@[simp] theorem post_cores (s : State) (i : Instr) (a : EvArg) : (s.post i a).cores = s.cores := rfl
@[simp] theorem post_clusters (s : State) (i : Instr) (a : EvArg) : (s.post i a).clusters = s.clusters := rfl
@[simp] theorem post_tiles (s : State) (i : Instr) (a : EvArg) : (s.post i a).tiles = s.tiles := rfl
@[simp] theorem post_dirs (s : State) (i : Instr) (a : EvArg) : (s.post i a).dirs = s.dirs := rfl
@[simp] theorem post_agents (s : State) (i : Instr) (a : EvArg) : (s.post i a).agents = s.agents := rfl
@[simp] theorem post_images (s : State) (i : Instr) (a : EvArg) : (s.post i a).images = s.images := rfl
@[simp] theorem post_dram (s : State) (i : Instr) (a : EvArg) : (s.post i a).dram = s.dram := rfl
@[simp] theorem post_fe (s : State) (i : Instr) (a : EvArg) : (s.post i a).fe = s.fe := rfl
@[simp] theorem post_poison (s : State) (i : Instr) (a : EvArg) : (s.post i a).poison = s.poison := rfl
@[simp] theorem post_lmem (s : State) (i : Instr) (a : EvArg) : (s.post i a).lmem = s.lmem := rfl
@[simp] theorem post_lmemBad (s : State) (i : Instr) (a : EvArg) : (s.post i a).lmemBad = s.lmemBad := rfl
@[simp] theorem post_lmInjLive (s : State) (i : Instr) (a : EvArg) : (s.post i a).lmInjLive = s.lmInjLive := rfl
@[simp] theorem post_flash (s : State) (i : Instr) (a : EvArg) : (s.post i a).flash = s.flash := rfl
@[simp] theorem post_csr (s : State) (i : Instr) (a : EvArg) : (s.post i a).csr = s.csr := rfl
@[simp] theorem post_cubeSems (s : State) (i : Instr) (a : EvArg) : (s.post i a).cubeSems = s.cubeSems := rfl
@[simp] theorem post_cubeWaiters (s : State) (i : Instr) (a : EvArg) : (s.post i a).cubeWaiters = s.cubeWaiters := rfl
@[simp] theorem post_lqs (s : State) (i : Instr) (a : EvArg) : (s.post i a).lqs = s.lqs := rfl
@[simp] theorem post_startBuf (s : State) (i : Instr) (a : EvArg) : (s.post i a).startBuf = s.startBuf := rfl
@[simp] theorem post_lastServed (s : State) (i : Instr) (a : EvArg) : (s.post i a).lastServed = s.lastServed := rfl
@[simp] theorem post_routers (s : State) (i : Instr) (a : EvArg) : (s.post i a).routers = s.routers := rfl
@[simp] theorem post_ports (s : State) (i : Instr) (a : EvArg) : (s.post i a).ports = s.ports := rfl
@[simp] theorem post_outst (s : State) (i : Instr) (a : EvArg) : (s.post i a).outst = s.outst := rfl
@[simp] theorem post_colls (s : State) (i : Instr) (a : EvArg) : (s.post i a).colls = s.colls := rfl
@[simp] theorem post_groups (s : State) (i : Instr) (a : EvArg) : (s.post i a).groups = s.groups := rfl
@[simp] theorem post_prsets (s : State) (i : Instr) (a : EvArg) : (s.post i a).prsets = s.prsets := rfl
@[simp] theorem post_ptloads (s : State) (i : Instr) (a : EvArg) : (s.post i a).ptloads = s.ptloads := rfl
@[simp] theorem post_farRuns (s : State) (i : Instr) (a : EvArg) : (s.post i a).farRuns = s.farRuns := rfl
@[simp] theorem post_held (s : State) (i : Instr) (a : EvArg) : (s.post i a).held = s.held := rfl
@[simp] theorem post_tests (s : State) (i : Instr) (a : EvArg) : (s.post i a).tests = s.tests := rfl
@[simp] theorem post_powered (s : State) (i : Instr) (a : EvArg) : (s.post i a).powered = s.powered := rfl
@[simp] theorem post_errors (s : State) (i : Instr) (a : EvArg) : (s.post i a).errors = s.errors := rfl
@[simp] theorem post_lifetime (s : State) (i : Instr) (a : EvArg) : (s.post i a).lifetime = s.lifetime := rfl
@[simp] theorem post_repairs (s : State) (i : Instr) (a : EvArg) : (s.post i a).repairs = s.repairs := rfl
@[simp] theorem post_svnFloor (s : State) (i : Instr) (a : EvArg) : (s.post i a).svnFloor = s.svnFloor := rfl
@[simp] theorem post_meas (s : State) (i : Instr) (a : EvArg) : (s.post i a).meas = s.meas := rfl
@[simp] theorem post_update (s : State) (i : Instr) (a : EvArg) : (s.post i a).update = s.update := rfl
@[simp] theorem post_i3cStatic (s : State) (i : Instr) (a : EvArg) : (s.post i a).i3cStatic = s.i3cStatic := rfl
@[simp] theorem post_i3cDynamic (s : State) (i : Instr) (a : EvArg) : (s.post i a).i3cDynamic = s.i3cDynamic := rfl
@[simp] theorem post_spdm (s : State) (i : Instr) (a : EvArg) : (s.post i a).spdm = s.spdm := rfl
@[simp] theorem post_sent (s : State) (i : Instr) (a : EvArg) : (s.post i a).sent = s.sent := rfl

/-! ## after -/

@[simp] theorem after_mode (s : State) (d : Nat) (i : Instr) (a : EvArg) : (s.after d i a).mode = s.mode := rfl
@[simp] theorem after_now (s : State) (d : Nat) (i : Instr) (a : EvArg) : (s.after d i a).now = s.now := rfl
@[simp] theorem after_free (s : State) (d : Nat) (i : Instr) (a : EvArg) : (s.after d i a).free = s.free := rfl
@[simp] theorem after_agenda (s : State) (d : Nat) (i : Instr) (a : EvArg) : (s.after d i a).agenda = s.agenda := rfl
@[simp] theorem after_acts (s : State) (d : Nat) (i : Instr) (a : EvArg) : (s.after d i a).acts = s.acts := rfl
@[simp] theorem after_passed (s : State) (d : Nat) (i : Instr) (a : EvArg) : (s.after d i a).passed = s.passed := rfl
@[simp] theorem after_timers (s : State) (d : Nat) (i : Instr) (a : EvArg) : (s.after d i a).timers = s.timers ++ [(s.now + d, i, a)] := rfl
@[simp] theorem after_cur (s : State) (d : Nat) (i : Instr) (a : EvArg) : (s.after d i a).cur = s.cur := rfl
@[simp] theorem after_arg (s : State) (d : Nat) (i : Instr) (a : EvArg) : (s.after d i a).arg = s.arg := rfl
@[simp] theorem after_latch (s : State) (d : Nat) (i : Instr) (a : EvArg) : (s.after d i a).latch = s.latch := rfl
@[simp] theorem after_resp (s : State) (d : Nat) (i : Instr) (a : EvArg) : (s.after d i a).resp = s.resp := rfl
@[simp] theorem after_accs (s : State) (d : Nat) (i : Instr) (a : EvArg) : (s.after d i a).accs = s.accs := rfl
@[simp] theorem after_memos (s : State) (d : Nat) (i : Instr) (a : EvArg) : (s.after d i a).memos = s.memos := rfl
@[simp] theorem after_serial (s : State) (d : Nat) (i : Instr) (a : EvArg) : (s.after d i a).serial = s.serial := rfl
@[simp] theorem after_ctxs (s : State) (d : Nat) (i : Instr) (a : EvArg) : (s.after d i a).ctxs = s.ctxs := rfl
@[simp] theorem after_slots (s : State) (d : Nat) (i : Instr) (a : EvArg) : (s.after d i a).slots = s.slots := rfl
@[simp] theorem after_cores (s : State) (d : Nat) (i : Instr) (a : EvArg) : (s.after d i a).cores = s.cores := rfl
@[simp] theorem after_clusters (s : State) (d : Nat) (i : Instr) (a : EvArg) : (s.after d i a).clusters = s.clusters := rfl
@[simp] theorem after_tiles (s : State) (d : Nat) (i : Instr) (a : EvArg) : (s.after d i a).tiles = s.tiles := rfl
@[simp] theorem after_dirs (s : State) (d : Nat) (i : Instr) (a : EvArg) : (s.after d i a).dirs = s.dirs := rfl
@[simp] theorem after_agents (s : State) (d : Nat) (i : Instr) (a : EvArg) : (s.after d i a).agents = s.agents := rfl
@[simp] theorem after_images (s : State) (d : Nat) (i : Instr) (a : EvArg) : (s.after d i a).images = s.images := rfl
@[simp] theorem after_dram (s : State) (d : Nat) (i : Instr) (a : EvArg) : (s.after d i a).dram = s.dram := rfl
@[simp] theorem after_fe (s : State) (d : Nat) (i : Instr) (a : EvArg) : (s.after d i a).fe = s.fe := rfl
@[simp] theorem after_poison (s : State) (d : Nat) (i : Instr) (a : EvArg) : (s.after d i a).poison = s.poison := rfl
@[simp] theorem after_lmem (s : State) (d : Nat) (i : Instr) (a : EvArg) : (s.after d i a).lmem = s.lmem := rfl
@[simp] theorem after_lmemBad (s : State) (d : Nat) (i : Instr) (a : EvArg) : (s.after d i a).lmemBad = s.lmemBad := rfl
@[simp] theorem after_lmInjLive (s : State) (d : Nat) (i : Instr) (a : EvArg) : (s.after d i a).lmInjLive = s.lmInjLive := rfl
@[simp] theorem after_flash (s : State) (d : Nat) (i : Instr) (a : EvArg) : (s.after d i a).flash = s.flash := rfl
@[simp] theorem after_csr (s : State) (d : Nat) (i : Instr) (a : EvArg) : (s.after d i a).csr = s.csr := rfl
@[simp] theorem after_cubeSems (s : State) (d : Nat) (i : Instr) (a : EvArg) : (s.after d i a).cubeSems = s.cubeSems := rfl
@[simp] theorem after_cubeWaiters (s : State) (d : Nat) (i : Instr) (a : EvArg) : (s.after d i a).cubeWaiters = s.cubeWaiters := rfl
@[simp] theorem after_lqs (s : State) (d : Nat) (i : Instr) (a : EvArg) : (s.after d i a).lqs = s.lqs := rfl
@[simp] theorem after_startBuf (s : State) (d : Nat) (i : Instr) (a : EvArg) : (s.after d i a).startBuf = s.startBuf := rfl
@[simp] theorem after_lastServed (s : State) (d : Nat) (i : Instr) (a : EvArg) : (s.after d i a).lastServed = s.lastServed := rfl
@[simp] theorem after_routers (s : State) (d : Nat) (i : Instr) (a : EvArg) : (s.after d i a).routers = s.routers := rfl
@[simp] theorem after_ports (s : State) (d : Nat) (i : Instr) (a : EvArg) : (s.after d i a).ports = s.ports := rfl
@[simp] theorem after_outst (s : State) (d : Nat) (i : Instr) (a : EvArg) : (s.after d i a).outst = s.outst := rfl
@[simp] theorem after_colls (s : State) (d : Nat) (i : Instr) (a : EvArg) : (s.after d i a).colls = s.colls := rfl
@[simp] theorem after_groups (s : State) (d : Nat) (i : Instr) (a : EvArg) : (s.after d i a).groups = s.groups := rfl
@[simp] theorem after_prsets (s : State) (d : Nat) (i : Instr) (a : EvArg) : (s.after d i a).prsets = s.prsets := rfl
@[simp] theorem after_ptloads (s : State) (d : Nat) (i : Instr) (a : EvArg) : (s.after d i a).ptloads = s.ptloads := rfl
@[simp] theorem after_farRuns (s : State) (d : Nat) (i : Instr) (a : EvArg) : (s.after d i a).farRuns = s.farRuns := rfl
@[simp] theorem after_held (s : State) (d : Nat) (i : Instr) (a : EvArg) : (s.after d i a).held = s.held := rfl
@[simp] theorem after_tests (s : State) (d : Nat) (i : Instr) (a : EvArg) : (s.after d i a).tests = s.tests := rfl
@[simp] theorem after_powered (s : State) (d : Nat) (i : Instr) (a : EvArg) : (s.after d i a).powered = s.powered := rfl
@[simp] theorem after_errors (s : State) (d : Nat) (i : Instr) (a : EvArg) : (s.after d i a).errors = s.errors := rfl
@[simp] theorem after_lifetime (s : State) (d : Nat) (i : Instr) (a : EvArg) : (s.after d i a).lifetime = s.lifetime := rfl
@[simp] theorem after_repairs (s : State) (d : Nat) (i : Instr) (a : EvArg) : (s.after d i a).repairs = s.repairs := rfl
@[simp] theorem after_svnFloor (s : State) (d : Nat) (i : Instr) (a : EvArg) : (s.after d i a).svnFloor = s.svnFloor := rfl
@[simp] theorem after_meas (s : State) (d : Nat) (i : Instr) (a : EvArg) : (s.after d i a).meas = s.meas := rfl
@[simp] theorem after_update (s : State) (d : Nat) (i : Instr) (a : EvArg) : (s.after d i a).update = s.update := rfl
@[simp] theorem after_i3cStatic (s : State) (d : Nat) (i : Instr) (a : EvArg) : (s.after d i a).i3cStatic = s.i3cStatic := rfl
@[simp] theorem after_i3cDynamic (s : State) (d : Nat) (i : Instr) (a : EvArg) : (s.after d i a).i3cDynamic = s.i3cDynamic := rfl
@[simp] theorem after_spdm (s : State) (d : Nat) (i : Instr) (a : EvArg) : (s.after d i a).spdm = s.spdm := rfl
@[simp] theorem after_sent (s : State) (d : Nat) (i : Instr) (a : EvArg) : (s.after d i a).sent = s.sent := rfl

/-! ## dropMemo -/

@[simp] theorem dropMemo_mode (s : State) (o : Src) : (s.dropMemo o).mode = s.mode := rfl
@[simp] theorem dropMemo_now (s : State) (o : Src) : (s.dropMemo o).now = s.now := rfl
@[simp] theorem dropMemo_free (s : State) (o : Src) : (s.dropMemo o).free = s.free := rfl
@[simp] theorem dropMemo_agenda (s : State) (o : Src) : (s.dropMemo o).agenda = s.agenda := rfl
@[simp] theorem dropMemo_acts (s : State) (o : Src) : (s.dropMemo o).acts = s.acts := rfl
@[simp] theorem dropMemo_passed (s : State) (o : Src) : (s.dropMemo o).passed = s.passed := rfl
@[simp] theorem dropMemo_timers (s : State) (o : Src) : (s.dropMemo o).timers = s.timers := rfl
@[simp] theorem dropMemo_cur (s : State) (o : Src) : (s.dropMemo o).cur = s.cur := rfl
@[simp] theorem dropMemo_arg (s : State) (o : Src) : (s.dropMemo o).arg = s.arg := rfl
@[simp] theorem dropMemo_latch (s : State) (o : Src) : (s.dropMemo o).latch = s.latch := rfl
@[simp] theorem dropMemo_resp (s : State) (o : Src) : (s.dropMemo o).resp = s.resp := rfl
@[simp] theorem dropMemo_accs (s : State) (o : Src) : (s.dropMemo o).accs = s.accs := rfl
@[simp] theorem dropMemo_memos (s : State) (o : Src) : (s.dropMemo o).memos = s.memos.filter (fun m => m.owner != o) := rfl
@[simp] theorem dropMemo_serial (s : State) (o : Src) : (s.dropMemo o).serial = s.serial := rfl
@[simp] theorem dropMemo_ctxs (s : State) (o : Src) : (s.dropMemo o).ctxs = s.ctxs := rfl
@[simp] theorem dropMemo_slots (s : State) (o : Src) : (s.dropMemo o).slots = s.slots := rfl
@[simp] theorem dropMemo_cores (s : State) (o : Src) : (s.dropMemo o).cores = s.cores := rfl
@[simp] theorem dropMemo_clusters (s : State) (o : Src) : (s.dropMemo o).clusters = s.clusters := rfl
@[simp] theorem dropMemo_tiles (s : State) (o : Src) : (s.dropMemo o).tiles = s.tiles := rfl
@[simp] theorem dropMemo_dirs (s : State) (o : Src) : (s.dropMemo o).dirs = s.dirs := rfl
@[simp] theorem dropMemo_agents (s : State) (o : Src) : (s.dropMemo o).agents = s.agents := rfl
@[simp] theorem dropMemo_images (s : State) (o : Src) : (s.dropMemo o).images = s.images := rfl
@[simp] theorem dropMemo_dram (s : State) (o : Src) : (s.dropMemo o).dram = s.dram := rfl
@[simp] theorem dropMemo_fe (s : State) (o : Src) : (s.dropMemo o).fe = s.fe := rfl
@[simp] theorem dropMemo_poison (s : State) (o : Src) : (s.dropMemo o).poison = s.poison := rfl
@[simp] theorem dropMemo_lmem (s : State) (o : Src) : (s.dropMemo o).lmem = s.lmem := rfl
@[simp] theorem dropMemo_lmemBad (s : State) (o : Src) : (s.dropMemo o).lmemBad = s.lmemBad := rfl
@[simp] theorem dropMemo_lmInjLive (s : State) (o : Src) : (s.dropMemo o).lmInjLive = s.lmInjLive := rfl
@[simp] theorem dropMemo_flash (s : State) (o : Src) : (s.dropMemo o).flash = s.flash := rfl
@[simp] theorem dropMemo_csr (s : State) (o : Src) : (s.dropMemo o).csr = s.csr := rfl
@[simp] theorem dropMemo_cubeSems (s : State) (o : Src) : (s.dropMemo o).cubeSems = s.cubeSems := rfl
@[simp] theorem dropMemo_cubeWaiters (s : State) (o : Src) : (s.dropMemo o).cubeWaiters = s.cubeWaiters := rfl
@[simp] theorem dropMemo_lqs (s : State) (o : Src) : (s.dropMemo o).lqs = s.lqs := rfl
@[simp] theorem dropMemo_startBuf (s : State) (o : Src) : (s.dropMemo o).startBuf = s.startBuf := rfl
@[simp] theorem dropMemo_lastServed (s : State) (o : Src) : (s.dropMemo o).lastServed = s.lastServed := rfl
@[simp] theorem dropMemo_routers (s : State) (o : Src) : (s.dropMemo o).routers = s.routers := rfl
@[simp] theorem dropMemo_ports (s : State) (o : Src) : (s.dropMemo o).ports = s.ports := rfl
@[simp] theorem dropMemo_outst (s : State) (o : Src) : (s.dropMemo o).outst = s.outst := rfl
@[simp] theorem dropMemo_colls (s : State) (o : Src) : (s.dropMemo o).colls = s.colls := rfl
@[simp] theorem dropMemo_groups (s : State) (o : Src) : (s.dropMemo o).groups = s.groups := rfl
@[simp] theorem dropMemo_prsets (s : State) (o : Src) : (s.dropMemo o).prsets = s.prsets := rfl
@[simp] theorem dropMemo_ptloads (s : State) (o : Src) : (s.dropMemo o).ptloads = s.ptloads := rfl
@[simp] theorem dropMemo_farRuns (s : State) (o : Src) : (s.dropMemo o).farRuns = s.farRuns := rfl
@[simp] theorem dropMemo_held (s : State) (o : Src) : (s.dropMemo o).held = s.held := rfl
@[simp] theorem dropMemo_tests (s : State) (o : Src) : (s.dropMemo o).tests = s.tests := rfl
@[simp] theorem dropMemo_powered (s : State) (o : Src) : (s.dropMemo o).powered = s.powered := rfl
@[simp] theorem dropMemo_errors (s : State) (o : Src) : (s.dropMemo o).errors = s.errors := rfl
@[simp] theorem dropMemo_lifetime (s : State) (o : Src) : (s.dropMemo o).lifetime = s.lifetime := rfl
@[simp] theorem dropMemo_repairs (s : State) (o : Src) : (s.dropMemo o).repairs = s.repairs := rfl
@[simp] theorem dropMemo_svnFloor (s : State) (o : Src) : (s.dropMemo o).svnFloor = s.svnFloor := rfl
@[simp] theorem dropMemo_meas (s : State) (o : Src) : (s.dropMemo o).meas = s.meas := rfl
@[simp] theorem dropMemo_update (s : State) (o : Src) : (s.dropMemo o).update = s.update := rfl
@[simp] theorem dropMemo_i3cStatic (s : State) (o : Src) : (s.dropMemo o).i3cStatic = s.i3cStatic := rfl
@[simp] theorem dropMemo_i3cDynamic (s : State) (o : Src) : (s.dropMemo o).i3cDynamic = s.i3cDynamic := rfl
@[simp] theorem dropMemo_spdm (s : State) (o : Src) : (s.dropMemo o).spdm = s.spdm := rfl
@[simp] theorem dropMemo_sent (s : State) (o : Src) : (s.dropMemo o).sent = s.sent := rfl

/-! ## useFree -/

@[simp] theorem useFree_mode (s : State) : (s.useFree).mode = s.mode := rfl
@[simp] theorem useFree_now (s : State) : (s.useFree).now = s.now := rfl
@[simp] theorem useFree_free (s : State) : (s.useFree).free = s.free + 1 := rfl
@[simp] theorem useFree_agenda (s : State) : (s.useFree).agenda = s.agenda := rfl
@[simp] theorem useFree_acts (s : State) : (s.useFree).acts = s.acts := rfl
@[simp] theorem useFree_passed (s : State) : (s.useFree).passed = s.passed := rfl
@[simp] theorem useFree_timers (s : State) : (s.useFree).timers = s.timers := rfl
@[simp] theorem useFree_cur (s : State) : (s.useFree).cur = s.cur := rfl
@[simp] theorem useFree_arg (s : State) : (s.useFree).arg = s.arg := rfl
@[simp] theorem useFree_latch (s : State) : (s.useFree).latch = s.latch := rfl
@[simp] theorem useFree_resp (s : State) : (s.useFree).resp = s.resp := rfl
@[simp] theorem useFree_accs (s : State) : (s.useFree).accs = s.accs := rfl
@[simp] theorem useFree_memos (s : State) : (s.useFree).memos = s.memos := rfl
@[simp] theorem useFree_serial (s : State) : (s.useFree).serial = s.serial := rfl
@[simp] theorem useFree_ctxs (s : State) : (s.useFree).ctxs = s.ctxs := rfl
@[simp] theorem useFree_slots (s : State) : (s.useFree).slots = s.slots := rfl
@[simp] theorem useFree_cores (s : State) : (s.useFree).cores = s.cores := rfl
@[simp] theorem useFree_clusters (s : State) : (s.useFree).clusters = s.clusters := rfl
@[simp] theorem useFree_tiles (s : State) : (s.useFree).tiles = s.tiles := rfl
@[simp] theorem useFree_dirs (s : State) : (s.useFree).dirs = s.dirs := rfl
@[simp] theorem useFree_agents (s : State) : (s.useFree).agents = s.agents := rfl
@[simp] theorem useFree_images (s : State) : (s.useFree).images = s.images := rfl
@[simp] theorem useFree_dram (s : State) : (s.useFree).dram = s.dram := rfl
@[simp] theorem useFree_fe (s : State) : (s.useFree).fe = s.fe := rfl
@[simp] theorem useFree_poison (s : State) : (s.useFree).poison = s.poison := rfl
@[simp] theorem useFree_lmem (s : State) : (s.useFree).lmem = s.lmem := rfl
@[simp] theorem useFree_lmemBad (s : State) : (s.useFree).lmemBad = s.lmemBad := rfl
@[simp] theorem useFree_lmInjLive (s : State) : (s.useFree).lmInjLive = s.lmInjLive := rfl
@[simp] theorem useFree_flash (s : State) : (s.useFree).flash = s.flash := rfl
@[simp] theorem useFree_csr (s : State) : (s.useFree).csr = s.csr := rfl
@[simp] theorem useFree_cubeSems (s : State) : (s.useFree).cubeSems = s.cubeSems := rfl
@[simp] theorem useFree_cubeWaiters (s : State) : (s.useFree).cubeWaiters = s.cubeWaiters := rfl
@[simp] theorem useFree_lqs (s : State) : (s.useFree).lqs = s.lqs := rfl
@[simp] theorem useFree_startBuf (s : State) : (s.useFree).startBuf = s.startBuf := rfl
@[simp] theorem useFree_lastServed (s : State) : (s.useFree).lastServed = s.lastServed := rfl
@[simp] theorem useFree_routers (s : State) : (s.useFree).routers = s.routers := rfl
@[simp] theorem useFree_ports (s : State) : (s.useFree).ports = s.ports := rfl
@[simp] theorem useFree_outst (s : State) : (s.useFree).outst = s.outst := rfl
@[simp] theorem useFree_colls (s : State) : (s.useFree).colls = s.colls := rfl
@[simp] theorem useFree_groups (s : State) : (s.useFree).groups = s.groups := rfl
@[simp] theorem useFree_prsets (s : State) : (s.useFree).prsets = s.prsets := rfl
@[simp] theorem useFree_ptloads (s : State) : (s.useFree).ptloads = s.ptloads := rfl
@[simp] theorem useFree_farRuns (s : State) : (s.useFree).farRuns = s.farRuns := rfl
@[simp] theorem useFree_held (s : State) : (s.useFree).held = s.held := rfl
@[simp] theorem useFree_tests (s : State) : (s.useFree).tests = s.tests := rfl
@[simp] theorem useFree_powered (s : State) : (s.useFree).powered = s.powered := rfl
@[simp] theorem useFree_errors (s : State) : (s.useFree).errors = s.errors := rfl
@[simp] theorem useFree_lifetime (s : State) : (s.useFree).lifetime = s.lifetime := rfl
@[simp] theorem useFree_repairs (s : State) : (s.useFree).repairs = s.repairs := rfl
@[simp] theorem useFree_svnFloor (s : State) : (s.useFree).svnFloor = s.svnFloor := rfl
@[simp] theorem useFree_meas (s : State) : (s.useFree).meas = s.meas := rfl
@[simp] theorem useFree_update (s : State) : (s.useFree).update = s.update := rfl
@[simp] theorem useFree_i3cStatic (s : State) : (s.useFree).i3cStatic = s.i3cStatic := rfl
@[simp] theorem useFree_i3cDynamic (s : State) : (s.useFree).i3cDynamic = s.i3cDynamic := rfl
@[simp] theorem useFree_spdm (s : State) : (s.useFree).spdm = s.spdm := rfl
@[simp] theorem useFree_sent (s : State) : (s.useFree).sent = s.sent := rfl

/-! ## setCsr -/

@[simp] theorem setCsr_mode (s : State) (off : Nat) (v : Word) : (s.setCsr off v).mode = s.mode := rfl
@[simp] theorem setCsr_now (s : State) (off : Nat) (v : Word) : (s.setCsr off v).now = s.now := rfl
@[simp] theorem setCsr_free (s : State) (off : Nat) (v : Word) : (s.setCsr off v).free = s.free := rfl
@[simp] theorem setCsr_agenda (s : State) (off : Nat) (v : Word) : (s.setCsr off v).agenda = s.agenda := rfl
@[simp] theorem setCsr_acts (s : State) (off : Nat) (v : Word) : (s.setCsr off v).acts = s.acts := rfl
@[simp] theorem setCsr_passed (s : State) (off : Nat) (v : Word) : (s.setCsr off v).passed = s.passed := rfl
@[simp] theorem setCsr_timers (s : State) (off : Nat) (v : Word) : (s.setCsr off v).timers = s.timers := rfl
@[simp] theorem setCsr_cur (s : State) (off : Nat) (v : Word) : (s.setCsr off v).cur = s.cur := rfl
@[simp] theorem setCsr_arg (s : State) (off : Nat) (v : Word) : (s.setCsr off v).arg = s.arg := rfl
@[simp] theorem setCsr_latch (s : State) (off : Nat) (v : Word) : (s.setCsr off v).latch = s.latch := rfl
@[simp] theorem setCsr_resp (s : State) (off : Nat) (v : Word) : (s.setCsr off v).resp = s.resp := rfl
@[simp] theorem setCsr_accs (s : State) (off : Nat) (v : Word) : (s.setCsr off v).accs = s.accs := rfl
@[simp] theorem setCsr_memos (s : State) (off : Nat) (v : Word) : (s.setCsr off v).memos = s.memos := rfl
@[simp] theorem setCsr_serial (s : State) (off : Nat) (v : Word) : (s.setCsr off v).serial = s.serial := rfl
@[simp] theorem setCsr_ctxs (s : State) (off : Nat) (v : Word) : (s.setCsr off v).ctxs = s.ctxs := rfl
@[simp] theorem setCsr_slots (s : State) (off : Nat) (v : Word) : (s.setCsr off v).slots = s.slots := rfl
@[simp] theorem setCsr_cores (s : State) (off : Nat) (v : Word) : (s.setCsr off v).cores = s.cores := rfl
@[simp] theorem setCsr_clusters (s : State) (off : Nat) (v : Word) : (s.setCsr off v).clusters = s.clusters := rfl
@[simp] theorem setCsr_tiles (s : State) (off : Nat) (v : Word) : (s.setCsr off v).tiles = s.tiles := rfl
@[simp] theorem setCsr_dirs (s : State) (off : Nat) (v : Word) : (s.setCsr off v).dirs = s.dirs := rfl
@[simp] theorem setCsr_agents (s : State) (off : Nat) (v : Word) : (s.setCsr off v).agents = s.agents := rfl
@[simp] theorem setCsr_images (s : State) (off : Nat) (v : Word) : (s.setCsr off v).images = s.images := rfl
@[simp] theorem setCsr_dram (s : State) (off : Nat) (v : Word) : (s.setCsr off v).dram = s.dram := rfl
@[simp] theorem setCsr_fe (s : State) (off : Nat) (v : Word) : (s.setCsr off v).fe = s.fe := rfl
@[simp] theorem setCsr_poison (s : State) (off : Nat) (v : Word) : (s.setCsr off v).poison = s.poison := rfl
@[simp] theorem setCsr_lmem (s : State) (off : Nat) (v : Word) : (s.setCsr off v).lmem = s.lmem := rfl
@[simp] theorem setCsr_lmemBad (s : State) (off : Nat) (v : Word) : (s.setCsr off v).lmemBad = s.lmemBad := rfl
@[simp] theorem setCsr_lmInjLive (s : State) (off : Nat) (v : Word) : (s.setCsr off v).lmInjLive = s.lmInjLive := rfl
@[simp] theorem setCsr_flash (s : State) (off : Nat) (v : Word) : (s.setCsr off v).flash = s.flash := rfl
@[simp] theorem setCsr_csr (s : State) (off : Nat) (v : Word) : (s.setCsr off v).csr = mset 0 s.csr off (v ^^^ csrReset off) := rfl
@[simp] theorem setCsr_cubeSems (s : State) (off : Nat) (v : Word) : (s.setCsr off v).cubeSems = s.cubeSems := rfl
@[simp] theorem setCsr_cubeWaiters (s : State) (off : Nat) (v : Word) : (s.setCsr off v).cubeWaiters = s.cubeWaiters := rfl
@[simp] theorem setCsr_lqs (s : State) (off : Nat) (v : Word) : (s.setCsr off v).lqs = s.lqs := rfl
@[simp] theorem setCsr_startBuf (s : State) (off : Nat) (v : Word) : (s.setCsr off v).startBuf = s.startBuf := rfl
@[simp] theorem setCsr_lastServed (s : State) (off : Nat) (v : Word) : (s.setCsr off v).lastServed = s.lastServed := rfl
@[simp] theorem setCsr_routers (s : State) (off : Nat) (v : Word) : (s.setCsr off v).routers = s.routers := rfl
@[simp] theorem setCsr_ports (s : State) (off : Nat) (v : Word) : (s.setCsr off v).ports = s.ports := rfl
@[simp] theorem setCsr_outst (s : State) (off : Nat) (v : Word) : (s.setCsr off v).outst = s.outst := rfl
@[simp] theorem setCsr_colls (s : State) (off : Nat) (v : Word) : (s.setCsr off v).colls = s.colls := rfl
@[simp] theorem setCsr_groups (s : State) (off : Nat) (v : Word) : (s.setCsr off v).groups = s.groups := rfl
@[simp] theorem setCsr_prsets (s : State) (off : Nat) (v : Word) : (s.setCsr off v).prsets = s.prsets := rfl
@[simp] theorem setCsr_ptloads (s : State) (off : Nat) (v : Word) : (s.setCsr off v).ptloads = s.ptloads := rfl
@[simp] theorem setCsr_farRuns (s : State) (off : Nat) (v : Word) : (s.setCsr off v).farRuns = s.farRuns := rfl
@[simp] theorem setCsr_held (s : State) (off : Nat) (v : Word) : (s.setCsr off v).held = s.held := rfl
@[simp] theorem setCsr_tests (s : State) (off : Nat) (v : Word) : (s.setCsr off v).tests = s.tests := rfl
@[simp] theorem setCsr_powered (s : State) (off : Nat) (v : Word) : (s.setCsr off v).powered = s.powered := rfl
@[simp] theorem setCsr_errors (s : State) (off : Nat) (v : Word) : (s.setCsr off v).errors = s.errors := rfl
@[simp] theorem setCsr_lifetime (s : State) (off : Nat) (v : Word) : (s.setCsr off v).lifetime = s.lifetime := rfl
@[simp] theorem setCsr_repairs (s : State) (off : Nat) (v : Word) : (s.setCsr off v).repairs = s.repairs := rfl
@[simp] theorem setCsr_svnFloor (s : State) (off : Nat) (v : Word) : (s.setCsr off v).svnFloor = s.svnFloor := rfl
@[simp] theorem setCsr_meas (s : State) (off : Nat) (v : Word) : (s.setCsr off v).meas = s.meas := rfl
@[simp] theorem setCsr_update (s : State) (off : Nat) (v : Word) : (s.setCsr off v).update = s.update := rfl
@[simp] theorem setCsr_i3cStatic (s : State) (off : Nat) (v : Word) : (s.setCsr off v).i3cStatic = s.i3cStatic := rfl
@[simp] theorem setCsr_i3cDynamic (s : State) (off : Nat) (v : Word) : (s.setCsr off v).i3cDynamic = s.i3cDynamic := rfl
@[simp] theorem setCsr_spdm (s : State) (off : Nat) (v : Word) : (s.setCsr off v).spdm = s.spdm := rfl
@[simp] theorem setCsr_sent (s : State) (off : Nat) (v : Word) : (s.setCsr off v).sent = s.sent := rfl

/-! ## updC -/

@[simp] theorem updC_dram (s : State) (f : Ctx → Ctx) : (s.updC f).dram = s.dram := rfl
@[simp] theorem updC_lmem (s : State) (f : Ctx → Ctx) : (s.updC f).lmem = s.lmem := rfl
@[simp] theorem updC_flash (s : State) (f : Ctx → Ctx) : (s.updC f).flash = s.flash := rfl
@[simp] theorem updC_fe (s : State) (f : Ctx → Ctx) : (s.updC f).fe = s.fe := rfl
@[simp] theorem updC_cores (s : State) (f : Ctx → Ctx) : (s.updC f).cores = s.cores := rfl
@[simp] theorem updC_clusters (s : State) (f : Ctx → Ctx) : (s.updC f).clusters = s.clusters := rfl
@[simp] theorem updC_tiles (s : State) (f : Ctx → Ctx) : (s.updC f).tiles = s.tiles := rfl
@[simp] theorem updC_dirs (s : State) (f : Ctx → Ctx) : (s.updC f).dirs = s.dirs := rfl
@[simp] theorem updC_agents (s : State) (f : Ctx → Ctx) : (s.updC f).agents = s.agents := rfl
@[simp] theorem updC_slots (s : State) (f : Ctx → Ctx) : (s.updC f).slots = s.slots := rfl
@[simp] theorem updC_csr (s : State) (f : Ctx → Ctx) : (s.updC f).csr = s.csr := rfl
@[simp] theorem updC_timers (s : State) (f : Ctx → Ctx) : (s.updC f).timers = s.timers := rfl
@[simp] theorem updC_now (s : State) (f : Ctx → Ctx) : (s.updC f).now = s.now := rfl
@[simp] theorem updC_agenda (s : State) (f : Ctx → Ctx) : (s.updC f).agenda = s.agenda := rfl
@[simp] theorem updC_images (s : State) (f : Ctx → Ctx) : (s.updC f).images = s.images := rfl
@[simp] theorem updC_lqs (s : State) (f : Ctx → Ctx) : (s.updC f).lqs = s.lqs := rfl
@[simp] theorem updC_mode (s : State) (f : Ctx → Ctx) : (s.updC f).mode = s.mode := rfl
@[simp] theorem updC_cur (s : State) (f : Ctx → Ctx) : (s.updC f).cur = s.cur := rfl

/-! ## setX -/

@[simp] theorem setX_dram (s : State) (r : Reg) (v : Word) : (s.setX r v).dram = s.dram := updC_dram s _
@[simp] theorem setX_lmem (s : State) (r : Reg) (v : Word) : (s.setX r v).lmem = s.lmem := updC_lmem s _
@[simp] theorem setX_flash (s : State) (r : Reg) (v : Word) : (s.setX r v).flash = s.flash := updC_flash s _
@[simp] theorem setX_fe (s : State) (r : Reg) (v : Word) : (s.setX r v).fe = s.fe := updC_fe s _
@[simp] theorem setX_cores (s : State) (r : Reg) (v : Word) : (s.setX r v).cores = s.cores := updC_cores s _
@[simp] theorem setX_clusters (s : State) (r : Reg) (v : Word) : (s.setX r v).clusters = s.clusters := updC_clusters s _
@[simp] theorem setX_tiles (s : State) (r : Reg) (v : Word) : (s.setX r v).tiles = s.tiles := updC_tiles s _
@[simp] theorem setX_dirs (s : State) (r : Reg) (v : Word) : (s.setX r v).dirs = s.dirs := updC_dirs s _
@[simp] theorem setX_agents (s : State) (r : Reg) (v : Word) : (s.setX r v).agents = s.agents := updC_agents s _
@[simp] theorem setX_slots (s : State) (r : Reg) (v : Word) : (s.setX r v).slots = s.slots := updC_slots s _
@[simp] theorem setX_csr (s : State) (r : Reg) (v : Word) : (s.setX r v).csr = s.csr := updC_csr s _
@[simp] theorem setX_timers (s : State) (r : Reg) (v : Word) : (s.setX r v).timers = s.timers := updC_timers s _
@[simp] theorem setX_now (s : State) (r : Reg) (v : Word) : (s.setX r v).now = s.now := updC_now s _
@[simp] theorem setX_agenda (s : State) (r : Reg) (v : Word) : (s.setX r v).agenda = s.agenda := updC_agenda s _
@[simp] theorem setX_images (s : State) (r : Reg) (v : Word) : (s.setX r v).images = s.images := updC_images s _
@[simp] theorem setX_lqs (s : State) (r : Reg) (v : Word) : (s.setX r v).lqs = s.lqs := updC_lqs s _
@[simp] theorem setX_mode (s : State) (r : Reg) (v : Word) : (s.setX r v).mode = s.mode := updC_mode s _
@[simp] theorem setX_cur (s : State) (r : Reg) (v : Word) : (s.setX r v).cur = s.cur := updC_cur s _

/-! ## setM -/

@[simp] theorem setM_dram (s : State) (r : BitVec 3) (v : BitVec 32) : (s.setM r v).dram = s.dram := updC_dram s _
@[simp] theorem setM_lmem (s : State) (r : BitVec 3) (v : BitVec 32) : (s.setM r v).lmem = s.lmem := updC_lmem s _
@[simp] theorem setM_flash (s : State) (r : BitVec 3) (v : BitVec 32) : (s.setM r v).flash = s.flash := updC_flash s _
@[simp] theorem setM_fe (s : State) (r : BitVec 3) (v : BitVec 32) : (s.setM r v).fe = s.fe := updC_fe s _
@[simp] theorem setM_cores (s : State) (r : BitVec 3) (v : BitVec 32) : (s.setM r v).cores = s.cores := updC_cores s _
@[simp] theorem setM_clusters (s : State) (r : BitVec 3) (v : BitVec 32) : (s.setM r v).clusters = s.clusters := updC_clusters s _
@[simp] theorem setM_tiles (s : State) (r : BitVec 3) (v : BitVec 32) : (s.setM r v).tiles = s.tiles := updC_tiles s _
@[simp] theorem setM_dirs (s : State) (r : BitVec 3) (v : BitVec 32) : (s.setM r v).dirs = s.dirs := updC_dirs s _
@[simp] theorem setM_agents (s : State) (r : BitVec 3) (v : BitVec 32) : (s.setM r v).agents = s.agents := updC_agents s _
@[simp] theorem setM_slots (s : State) (r : BitVec 3) (v : BitVec 32) : (s.setM r v).slots = s.slots := updC_slots s _
@[simp] theorem setM_csr (s : State) (r : BitVec 3) (v : BitVec 32) : (s.setM r v).csr = s.csr := updC_csr s _
@[simp] theorem setM_timers (s : State) (r : BitVec 3) (v : BitVec 32) : (s.setM r v).timers = s.timers := updC_timers s _
@[simp] theorem setM_now (s : State) (r : BitVec 3) (v : BitVec 32) : (s.setM r v).now = s.now := updC_now s _
@[simp] theorem setM_agenda (s : State) (r : BitVec 3) (v : BitVec 32) : (s.setM r v).agenda = s.agenda := updC_agenda s _
@[simp] theorem setM_images (s : State) (r : BitVec 3) (v : BitVec 32) : (s.setM r v).images = s.images := updC_images s _
@[simp] theorem setM_lqs (s : State) (r : BitVec 3) (v : BitVec 32) : (s.setM r v).lqs = s.lqs := updC_lqs s _
@[simp] theorem setM_mode (s : State) (r : BitVec 3) (v : BitVec 32) : (s.setM r v).mode = s.mode := updC_mode s _
@[simp] theorem setM_cur (s : State) (r : BitVec 3) (v : BitVec 32) : (s.setM r v).cur = s.cur := updC_cur s _

/-! ## headDone -/

@[simp] theorem headDone_dram (s : State) : (s.headDone).dram = s.dram := rfl
@[simp] theorem headDone_lmem (s : State) : (s.headDone).lmem = s.lmem := rfl
@[simp] theorem headDone_flash (s : State) : (s.headDone).flash = s.flash := rfl
@[simp] theorem headDone_fe (s : State) : (s.headDone).fe = s.fe := rfl
@[simp] theorem headDone_cores (s : State) : (s.headDone).cores = s.cores := rfl
@[simp] theorem headDone_clusters (s : State) : (s.headDone).clusters = s.clusters := rfl
@[simp] theorem headDone_tiles (s : State) : (s.headDone).tiles = s.tiles := rfl
@[simp] theorem headDone_dirs (s : State) : (s.headDone).dirs = s.dirs := rfl
@[simp] theorem headDone_agents (s : State) : (s.headDone).agents = s.agents := rfl
@[simp] theorem headDone_slots (s : State) : (s.headDone).slots = s.slots := rfl
@[simp] theorem headDone_csr (s : State) : (s.headDone).csr = s.csr := rfl
@[simp] theorem headDone_timers (s : State) : (s.headDone).timers = s.timers := rfl
@[simp] theorem headDone_now (s : State) : (s.headDone).now = s.now := rfl
@[simp] theorem headDone_agenda (s : State) : (s.headDone).agenda = s.agenda := rfl
@[simp] theorem headDone_images (s : State) : (s.headDone).images = s.images := rfl
@[simp] theorem headDone_lqs (s : State) : (s.headDone).lqs = s.lqs := rfl
@[simp] theorem headDone_mode (s : State) : (s.headDone).mode = s.mode := rfl
@[simp] theorem headDone_cur (s : State) : (s.headDone).cur = s.cur := rfl

/-! ## advance -/

@[simp] theorem advance_dram (s : State) : (s.advance).dram = s.dram := (headDone_dram _).trans (updC_dram s _)
@[simp] theorem advance_lmem (s : State) : (s.advance).lmem = s.lmem := (headDone_lmem _).trans (updC_lmem s _)
@[simp] theorem advance_flash (s : State) : (s.advance).flash = s.flash := (headDone_flash _).trans (updC_flash s _)
@[simp] theorem advance_fe (s : State) : (s.advance).fe = s.fe := (headDone_fe _).trans (updC_fe s _)
@[simp] theorem advance_cores (s : State) : (s.advance).cores = s.cores := (headDone_cores _).trans (updC_cores s _)
@[simp] theorem advance_clusters (s : State) : (s.advance).clusters = s.clusters := (headDone_clusters _).trans (updC_clusters s _)
@[simp] theorem advance_tiles (s : State) : (s.advance).tiles = s.tiles := (headDone_tiles _).trans (updC_tiles s _)
@[simp] theorem advance_dirs (s : State) : (s.advance).dirs = s.dirs := (headDone_dirs _).trans (updC_dirs s _)
@[simp] theorem advance_agents (s : State) : (s.advance).agents = s.agents := (headDone_agents _).trans (updC_agents s _)
@[simp] theorem advance_slots (s : State) : (s.advance).slots = s.slots := (headDone_slots _).trans (updC_slots s _)
@[simp] theorem advance_csr (s : State) : (s.advance).csr = s.csr := (headDone_csr _).trans (updC_csr s _)
@[simp] theorem advance_timers (s : State) : (s.advance).timers = s.timers := (headDone_timers _).trans (updC_timers s _)
@[simp] theorem advance_now (s : State) : (s.advance).now = s.now := (headDone_now _).trans (updC_now s _)
@[simp] theorem advance_agenda (s : State) : (s.advance).agenda = s.agenda := (headDone_agenda _).trans (updC_agenda s _)
@[simp] theorem advance_images (s : State) : (s.advance).images = s.images := (headDone_images _).trans (updC_images s _)
@[simp] theorem advance_lqs (s : State) : (s.advance).lqs = s.lqs := (headDone_lqs _).trans (updC_lqs s _)
@[simp] theorem advance_mode (s : State) : (s.advance).mode = s.mode := (headDone_mode _).trans (updC_mode s _)
@[simp] theorem advance_cur (s : State) : (s.advance).cur = s.cur := (headDone_cur _).trans (updC_cur s _)

/-! ## jump -/

@[simp] theorem jump_dram (s : State) (pc : Word) : (s.jump pc).dram = s.dram := (headDone_dram _).trans (updC_dram s _)
@[simp] theorem jump_lmem (s : State) (pc : Word) : (s.jump pc).lmem = s.lmem := (headDone_lmem _).trans (updC_lmem s _)
@[simp] theorem jump_flash (s : State) (pc : Word) : (s.jump pc).flash = s.flash := (headDone_flash _).trans (updC_flash s _)
@[simp] theorem jump_fe (s : State) (pc : Word) : (s.jump pc).fe = s.fe := (headDone_fe _).trans (updC_fe s _)
@[simp] theorem jump_cores (s : State) (pc : Word) : (s.jump pc).cores = s.cores := (headDone_cores _).trans (updC_cores s _)
@[simp] theorem jump_clusters (s : State) (pc : Word) : (s.jump pc).clusters = s.clusters := (headDone_clusters _).trans (updC_clusters s _)
@[simp] theorem jump_tiles (s : State) (pc : Word) : (s.jump pc).tiles = s.tiles := (headDone_tiles _).trans (updC_tiles s _)
@[simp] theorem jump_dirs (s : State) (pc : Word) : (s.jump pc).dirs = s.dirs := (headDone_dirs _).trans (updC_dirs s _)
@[simp] theorem jump_agents (s : State) (pc : Word) : (s.jump pc).agents = s.agents := (headDone_agents _).trans (updC_agents s _)
@[simp] theorem jump_slots (s : State) (pc : Word) : (s.jump pc).slots = s.slots := (headDone_slots _).trans (updC_slots s _)
@[simp] theorem jump_csr (s : State) (pc : Word) : (s.jump pc).csr = s.csr := (headDone_csr _).trans (updC_csr s _)
@[simp] theorem jump_timers (s : State) (pc : Word) : (s.jump pc).timers = s.timers := (headDone_timers _).trans (updC_timers s _)
@[simp] theorem jump_now (s : State) (pc : Word) : (s.jump pc).now = s.now := (headDone_now _).trans (updC_now s _)
@[simp] theorem jump_agenda (s : State) (pc : Word) : (s.jump pc).agenda = s.agenda := (headDone_agenda _).trans (updC_agenda s _)
@[simp] theorem jump_images (s : State) (pc : Word) : (s.jump pc).images = s.images := (headDone_images _).trans (updC_images s _)
@[simp] theorem jump_lqs (s : State) (pc : Word) : (s.jump pc).lqs = s.lqs := (headDone_lqs _).trans (updC_lqs s _)
@[simp] theorem jump_mode (s : State) (pc : Word) : (s.jump pc).mode = s.mode := (headDone_mode _).trans (updC_mode s _)
@[simp] theorem jump_cur (s : State) (pc : Word) : (s.jump pc).cur = s.cur := (headDone_cur _).trans (updC_cur s _)

end Sys2Proof.Machine
end

