-- ==== Sys2Proof/Laws/Ops.lean ====
section
/-! SUPPORT. What the shared operations do, each said once: contexts, slots and registers, the completion of a head,
reading registers, privilege, traps and returns, the shapes of the scalar heads, memories and time. -/

set_option Elab.async false

namespace Sys2Proof.Machine

/-! ## Contexts, slots and the other parts by number -/

@[simp] theorem ctx_setCtx_same (s : State) (core id : Nat) (c : Ctx) : (s.setCtx core id c).ctx core id = c := by
  simp [State.ctx]

theorem ctx_setCtx_ne (s : State) {core id core' id' : Nat} (c : Ctx) (h : ctxKey core' id' ≠ ctxKey core id) :
    (s.setCtx core id c).ctx core' id' = s.ctx core' id' := by
  simp [State.ctx, mget_mset_ne _ _ _ h]

@[simp] theorem slot_setSlot_same (s : State) (core k : Nat) (t : Slot) : (s.setSlot core k t).slot core k = t := by
  simp [State.slot]

theorem slot_setSlot_ne (s : State) {core k core' k' : Nat} (t : Slot) (h : slotKey core' k' ≠ slotKey core k) :
    (s.setSlot core k t).slot core' k' = s.slot core' k' := by
  simp [State.slot, mget_mset_ne _ _ _ h]

@[simp] theorem slot_setCtx (s : State) (core id : Nat) (c : Ctx) (n k : Nat) :
    (s.setCtx core id c).slot n k = s.slot n k := rfl

@[simp] theorem ctx_setSlot (s : State) (core k : Nat) (t : Slot) (n id : Nat) :
    (s.setSlot core k t).ctx n id = s.ctx n id := rfl

@[simp] theorem core_updCore_same (s : State) (n : Nat) (f : CoreSt → CoreSt) : (s.updCore n f).core n = f (s.core n) := by
  simp [State.core]

theorem core_updCore_ne (s : State) {n m : Nat} (f : CoreSt → CoreSt) (h : m ≠ n) : (s.updCore n f).core m = s.core m := by
  simp [State.core, mget_mupd, h.symm]

@[simp] theorem tile_updTile_same (s : State) (n : Nat) (f : Tile → Tile) : (s.updTile n f).tile n = f (s.tile n) := by
  simp [State.tile]

theorem tile_updTile_ne (s : State) {n m : Nat} (f : Tile → Tile) (h : m ≠ n) : (s.updTile n f).tile m = s.tile m := by
  simp [State.tile, mget_mupd, h.symm]

@[simp] theorem cluster_updCluster_same (s : State) (n : Nat) (f : Cluster → Cluster) :
    (s.updCluster n f).cluster n = f (s.cluster n) := by
  simp [State.cluster]

@[simp] theorem port_updPort_same (s : State) (n : Nat) (f : Port → Port) : (s.updPort n f).port n = f (s.port n) := by
  simp [State.port]

theorem port_updPort_ne (s : State) {n m : Nat} (f : Port → Port) (h : m ≠ n) : (s.updPort n f).port m = s.port m := by
  simp [State.port, mget_mupd, h.symm]

@[simp] theorem router_updRouter_same (s : State) (n : Nat) (f : Router → Router) :
    (s.updRouter n f).router n = f (s.router n) := by
  simp [State.router]

theorem router_updRouter_ne (s : State) {n m : Nat} (f : Router → Router) (h : m ≠ n) :
    (s.updRouter n f).router m = s.router m := by
  simp [State.router, mget_mupd, h.symm]

@[simp] theorem dir_setDir_same (s : State) (l : Nat) (d : DirLine) : (s.setDir l d).dir l = d := by
  simp [State.dir]

theorem dir_setDir_ne (s : State) {l k : Nat} (d : DirLine) (h : k ≠ l) : (s.setDir l d).dir k = s.dir k := by
  simp [State.dir, mget_mset_ne _ _ _ h]

@[simp] theorem csrAt_setCsr_same (s : State) (off : Nat) (v : Word) : (s.setCsr off v).csrAt off = v := by
  simp [State.csrAt, BitVec.xor_assoc]

theorem csrAt_setCsr_ne (s : State) {off o : Nat} (v : Word) (h : o ≠ off) : (s.setCsr off v).csrAt o = s.csrAt o := by
  simp [State.csrAt, mget_mset_ne _ _ _ h]

/-! ## The context being executed -/

@[simp] theorem c_updC (s : State) (f : Ctx → Ctx) : (s.updC f).c = f s.c := ctx_setCtx_same s _ _ _

theorem ctx_updC_ne (s : State) (f : Ctx → Ctx) {core id : Nat} (h : ctxKey core id ≠ ctxKey s.cur.core s.cur.ctx) :
    (s.updC f).ctx core id = s.ctx core id := ctx_setCtx_ne s _ h

@[simp] theorem c_dropMemo (s : State) (o : Src) : (s.dropMemo o).c = s.c := rfl

@[simp] theorem c_headDone (s : State) : s.headDone.c = { s.c with wait := none, st := .running } :=
  c_updC s (fun c => { c with wait := none, st := .running })

@[simp] theorem c_advance (s : State) :
    s.advance.c = { s.c with pc := s.c.nextPc, wait := none, st := .running } := by
  simp [State.advance]

@[simp] theorem c_jump (s : State) (pc : Word) :
    (s.jump pc).c = { s.c with pc := pc, line := none, wait := none, st := .running } := by
  simp [State.jump]

/-! ## Registers -/

@[simp] theorem Ctx.getX_zero (c : Ctx) : c.getX 0 = 0 := rfl

@[simp] theorem Ctx.setX_zero (c : Ctx) (v : Word) : c.setX 0 v = c := rfl

theorem Ctx.setX_ne (c : Ctx) {d : Reg} (v : Word) (h : d ≠ 0) : c.setX d v =
    { c with x := mset 0 c.x d.toNat v, bad := c.bad.filter (fun b => b != (1, d.toNat)) } := if_neg h

theorem Ctx.getX_ne (c : Ctx) {r : Reg} (h : r ≠ 0) : c.getX r = mget 0 c.x r.toNat := if_neg h

theorem Ctx.getX_setX_same (c : Ctx) {d : Reg} (v : Word) (h : d ≠ 0) : (c.setX d v).getX d = v := by
  rw [Ctx.setX_ne c v h, Ctx.getX_ne _ h]; exact mget_mset_same 0 c.x d.toNat v

theorem Ctx.getX_setX_ne (c : Ctx) {d r : Reg} (v : Word) (h : r ≠ d) : (c.setX d v).getX r = c.getX r := by
  have hn : r.toNat ≠ d.toNat := fun e => h (BitVec.eq_of_toNat_eq e)
  by_cases hr : r = 0
  · subst hr; rfl
  · by_cases hd : d = 0
    · subst hd; rfl
    · rw [Ctx.setX_ne c v hd, Ctx.getX_ne _ hr, Ctx.getX_ne _ hr]; exact mget_mset_ne 0 c.x v hn

@[simp] theorem Ctx.getV_setX (c : Ctx) (d r : Reg) (v : Word) : (c.setX d v).getV r = c.getV r := by
  unfold Ctx.setX; split <;> rfl

@[simp] theorem Ctx.getM_setX (c : Ctx) (d : Reg) (m : BitVec 3) (v : Word) : (c.setX d v).getM m = c.getM m := by
  unfold Ctx.setX; split <;> rfl

@[simp] theorem Ctx.getV_setV_same (c : Ctx) (d : Reg) (v : VReg) : (c.setV d v).getV d = v := by
  simp [Ctx.getV, Ctx.setV]

theorem Ctx.getV_setV_ne (c : Ctx) {d r : Reg} (v : VReg) (h : r ≠ d) : (c.setV d v).getV r = c.getV r := by
  have hn : r.toNat ≠ d.toNat := fun e => h (BitVec.eq_of_toNat_eq e)
  exact mget_mset_ne 0 c.v v hn

@[simp] theorem Ctx.getM_setM_same (c : Ctx) (d : BitVec 3) (v : BitVec 32) : (c.setM d v).getM d = v := by
  simp [Ctx.getM, Ctx.setM]

@[simp] theorem c_setX (s : State) (d : Reg) (v : Word) : (s.setX d v).c = s.c.setX d v := c_updC s _

@[simp] theorem c_setM (s : State) (d : BitVec 3) (v : BitVec 32) : (s.setM d v).c = s.c.setM d v := c_updC s _

/-- After a head that writes X[d] and completes, X[d] holds the value and every other register what it held. -/
theorem getX_setX_advance (s : State) (d r : Reg) (v : Word) :
    ((s.setX d v).advance).getX r = if r = 0 then 0 else if r = d then v else s.getX r := by
  have e : ((s.setX d v).advance).getX r = (s.c.setX d v).getX r := by
    simp only [State.getX, c_advance, c_setX]; rfl
  rw [e]
  by_cases h0 : r = 0
  · subst h0; exact Ctx.getX_zero _
  · rw [if_neg h0]
    by_cases hd : r = d
    · subst hd; rw [if_pos rfl, Ctx.getX_setX_same _ _ h0]
    · rw [if_neg hd, Ctx.getX_setX_ne _ _ hd]; rfl

/-! ## Reading registers, privilege -/

/-- A head whose registers have good parity and are awaited by no access goes on. -/
theorem withRegs_ready (s : State) (src dst : List RRef) (k : State → State) (h : s.c.hungOn (src ++ dst) = false)
    (b : s.c.badAmong src = none) : s.withRegs src dst k = k s := by
  simp [State.withRegs, h, b]

/-- All that reading registers can do: wait, meet a register of failed parity, or go on. -/
theorem withRegs_cases (s : State) (src dst : List RRef) (k : State → State) :
    s.withRegs src dst k = s.stall { kind := .operand } ∨
    (∃ kind num, s.c.badAmong src = some (kind, num) ∧
      s.withRegs src dst k = s.coreError s.cur.core (regPlace s.cur.core s.cur.ctx kind num) (parityTval kind num)) ∨
    (s.c.hungOn (src ++ dst) = false ∧ s.c.badAmong src = none ∧ s.withRegs src dst k = k s) := by
  unfold State.withRegs
  split
  · exact .inl rfl
  · split
    · exact .inr (.inl ⟨_, _, by assumption, rfl⟩)
    · exact .inr (.inr ⟨by simp_all, by assumption, rfl⟩)

theorem withLevel_ok (s : State) (i : Instr) (k : State → State) (h : i.level ≤ s.level) : s.withLevel i k = k s := by
  simp [State.withLevel, Nat.not_lt.mpr h]

theorem withLevel_below (s : State) (i : Instr) (k : State → State) (h : s.level < i.level) :
    s.withLevel i k = s.trap 0x03 i.tval := by
  simp [State.withLevel, h]

/-! ## Shapes of heads -/

theorem unary_ready (s : State) (d a : Reg) (f : Word → Word) (h : s.c.hungOn ([.x a] ++ [.x d]) = false)
    (b : s.c.badAmong [.x a] = none) : unary s d a f = .next ((s.setX d (f (s.getX a))).advance) := by
  simp only [unary, withRegs_ready _ _ _ _ h b]

theorem binary_ready (s : State) (d a b : Reg) (f : Word → Word → Word)
    (h : s.c.hungOn ([.x a, .x b] ++ [.x d]) = false) (g : s.c.badAmong [.x a, .x b] = none) :
    binary s d a b f = .next ((s.setX d (f (s.getX a) (s.getX b))).advance) := by
  simp only [binary, withRegs_ready _ _ _ _ h g]

theorem ternary_ready (s : State) (d a b c : Reg) (f : Word → Word → Word → Word)
    (h : s.c.hungOn ([.x a, .x b, .x c] ++ [.x d]) = false) (g : s.c.badAmong [.x a, .x b, .x c] = none) :
    ternary s d a b c f = .next ((s.setX d (f (s.getX a) (s.getX b) (s.getX c))).advance) := by
  simp only [ternary, withRegs_ready _ _ _ _ h g]

/-! ## Traps (R307, R308) -/

/-- What the entry of a trap at kernel level leaves in the slot, and where the context goes on. -/
theorem enterTrap_kernel (s : State) (core k : Nat) (async dbl : Bool) (sub code : Nat) (epc tval : Word) {id : Nat}
    (h : (s.slot core k).ctx = some id) :
    let t := s.enterTrap core k 1 async dbl sub code epc tval
    (t.slot core k).level = 1 ∧ (t.slot core k).k.epc = epc ∧ (t.slot core k).k.cause = causeWord async dbl sub code ∧
      (t.slot core k).k.tval = tval ∧ (t.slot core k).f = (s.slot core k).f ∧
      (t.ctx core id).pc = (s.core core).kvbase + BitVec.ofNat 64 (64 * code + 2) ∧ (t.ctx core id).x = (s.ctx core id).x := by
  simp only [State.enterTrap, h, State.updCtx]
  simp

/-- A trap of the head being executed from user level goes to the kernel. -/
theorem trapFull_user (s : State) (sub code : Nat) (epc tval : Word) (h : s.level = 0) :
    s.trapFull sub code epc tval =
      ({ (s.dropMemo (headOwner s.cur.core s.cur.ctx)).loadOver s.cur.core s.cur.ctx with accs := 0 } : State).enterTrap
        s.cur.core s.cur.slot 1 false false sub code epc tval := by
  have hl : trapLevel s.sl = 1 := by simp [trapLevel, show s.sl.level = 0 from h]
  simp [State.trapFull, hl]

/-! ## Memories -/

theorem wf_dramWrite (s : State) (la : Nat) (bs : List Byte) (h : Memory.wf 0 s.dram = true) :
    Memory.wf 0 (s.dramWrite la bs).dram = true := wf_writeBytes 0 _ la bs h

theorem wf_lmemWrite (s : State) (cl off : Nat) (bs : List Byte) (h : Memory.wf 0 s.lmem = true) :
    Memory.wf 0 (s.lmemWrite cl off bs).lmem = true := wf_writeBytes 0 _ _ bs h

theorem wf_flashWrite (s : State) (a : Nat) (bs : List Byte) (h : Memory.wf 0xFF s.flash = true) :
    Memory.wf 0xFF (s.flashWrite a bs).flash = true := wf_writeBytes 0xFF _ a bs h

theorem wf_filter (d : Byte) (m : List Host.Cell) (p : Host.Cell → Bool) (h : Memory.wf d m = true) :
    Memory.wf d (m.filter p) = true := by
  simp only [Memory.wf, mwf, Bool.and_eq_true, List.all_eq_true] at *
  exact ⟨risingFrom_filter _ _ _ h.1, fun e he => h.2 e (List.mem_filter.mp he).1⟩

theorem wf_flashErase (s : State) (a n : Nat) (h : Memory.wf 0xFF s.flash = true) :
    Memory.wf 0xFF (s.flashErase a n).flash = true := wf_filter 0xFF _ _ h

theorem lmem_clearSlots (core : Nat) (l : List Nat) (s : State) :
    (l.foldl (fun t k => t.setSlot core k {}) s).lmem = s.lmem := by
  induction l generalizing s with
  | nil => rfl
  | cons k r ih => exact ih (s.setSlot core k {})

theorem wf_remap (s : State) (core : Nat) (h : Memory.wf 0 s.lmem = true) : Memory.wf 0 (s.remap core).lmem = true := by
  simp only [State.remap]
  apply wf_filter
  rw [lmem_clearSlots]
  exact h

/-- The memories of the reset state have their canonical form. -/
theorem wf_reset : Memory.wf 0 State.reset.dram = true ∧ Memory.wf 0 State.reset.lmem = true ∧
    Memory.wf 0xFF State.reset.flash = true := ⟨rfl, rfl, rfl⟩

/-- What has been stored is read. -/
theorem dramRead_dramWrite (s : State) (la : Nat) (bs : List Byte) :
    (s.dramWrite la bs).dramRead la bs.length = bs := readBytes_writeBytes 0 _ la bs

/-- Bytes outside the stored ones stay. -/
theorem dram_dramWrite_out (s : State) (la k : Nat) (bs : List Byte) (h : k < la ∨ la + bs.length ≤ k) :
    mget 0 (s.dramWrite la bs).dram k = mget 0 s.dram k := mget_writeBytes_out 0 _ la bs k h

/-! ## Time -/

/-- Waking parked contexts changes contexts only. -/
theorem wakeParked_frame (s : State) :
    s.wakeParked.timers = s.timers ∧ s.wakeParked.now = s.now ∧ s.wakeParked.dram = s.dram ∧
      s.wakeParked.lmem = s.lmem ∧ s.wakeParked.slots = s.slots ∧ s.wakeParked.agenda = s.agenda := by
  have all : ∀ (l : List (Nat × Nat)) (t : State),
      let u := l.foldl (fun t e =>
        if t.waitOver (e.1 / 256) 0 (e.1 % 256) then
          (t.updCtx (e.1 / 256) (e.1 % 256) (fun c => { c with wait := c.wait.map (fun w =>
            if w.got.isSome then w else { w with got := some .waiting }) })).becomeReady (e.1 / 256) (e.1 % 256)
        else t) t
      u.timers = t.timers ∧ u.now = t.now ∧ u.dram = t.dram ∧ u.lmem = t.lmem ∧ u.slots = t.slots ∧
        u.agenda = t.agenda := by
    intro l
    induction l with
    | nil => intro t; simp
    | cons e r ih =>
      intro t
      simp only [List.foldl_cons]
      split
      · exact ih _
      · exact ih _
  exact all _ s

end Sys2Proof.Machine
end

