-- ==== Sys2Proof/Laws/PerInstr.lean ====
section
/-! SUPPORT. Decoding and encoding agree, constructor by constructor: the bits of a head and its tail come
apart into the fields they were put together from, and the fields of an encoded instruction name it. -/

set_option Elab.async false

namespace Sys2Proof

/-! ## Bits -/

theorem Laws.field_low {n m k : Nat} (e : n + m = k) (x : BitVec n) (y : BitVec m) :
    (BitVec.cast e (x ++ y)).extractLsb' 0 m = y := by
  subst e; exact BitVec.extractLsb'_append_eq_right

theorem Laws.field_above {n m k st w : Nat} {z : BitVec w} (e : n + m = k) (x : BitVec n) (y : BitVec m)
    (h : m ≤ st) (r : x.extractLsb' (st - m) w = z) : (BitVec.cast e (x ++ y)).extractLsb' st w = z := by
  subst e; exact (BitVec.extractLsb'_append_eq_of_le h).trans r

/-- The fields of a tail are read from the bits they were written to (R12). -/
theorem Laws.unpack_pack (t : Tail) : Tail.unpack t.format t.pack = t := by
  cases t with
  | none => rfl
  | r f b a =>
    have h_a : (Tail.r f b a).pack.extractLsb' 0 5 = a :=
      (Laws.field_low (n := 43) rfl _ a)
    have h_b : (Tail.r f b a).pack.extractLsb' 5 5 = b :=
      (Laws.field_above (n := 43) rfl _ a (by decide) (Laws.field_low (n := 38) rfl _ b))
    have h_f : (Tail.r f b a).pack.extractLsb' 10 6 = f :=
      (Laws.field_above (n := 43) rfl _ a (by decide) (Laws.field_above (n := 38) rfl _ b (by decide) (Laws.field_low (n := 32) rfl _ f)))
    show Tail.r _ _ _ = _
    rw [h_f, h_b, h_a]
  | i imm a =>
    have h_a : (Tail.i imm a).pack.extractLsb' 0 5 = a :=
      (Laws.field_low (n := 43) rfl _ a)
    have h_imm : (Tail.i imm a).pack.extractLsb' 5 11 = imm :=
      (Laws.field_above (n := 43) rfl _ a (by decide) (Laws.field_low (n := 32) rfl _ imm))
    show Tail.i _ _ = _
    rw [h_imm, h_a]
  | x md f c b a =>
    have h_a : (Tail.x md f c b a).pack.extractLsb' 0 5 = a :=
      (Laws.field_low (n := 43) rfl _ a)
    have h_b : (Tail.x md f c b a).pack.extractLsb' 5 5 = b :=
      (Laws.field_above (n := 43) rfl _ a (by decide) (Laws.field_low (n := 38) rfl _ b))
    have h_c : (Tail.x md f c b a).pack.extractLsb' 10 5 = c :=
      (Laws.field_above (n := 43) rfl _ a (by decide) (Laws.field_above (n := 38) rfl _ b (by decide) (Laws.field_low (n := 33) rfl _ c)))
    have h_f : (Tail.x md f c b a).pack.extractLsb' 15 6 = f :=
      (Laws.field_above (n := 43) rfl _ a (by decide) (Laws.field_above (n := 38) rfl _ b (by decide) (Laws.field_above (n := 33) rfl _ c (by decide) (Laws.field_low (n := 27) rfl _ f))))
    have h_md : (Tail.x md f c b a).pack.extractLsb' 21 11 = md :=
      (Laws.field_above (n := 43) rfl _ a (by decide) (Laws.field_above (n := 38) rfl _ b (by decide) (Laws.field_above (n := 33) rfl _ c (by decide) (Laws.field_above (n := 27) rfl _ f (by decide) (Laws.field_low (n := 16) rfl _ md)))))
    show Tail.x _ _ _ _ _ = _
    rw [h_md, h_f, h_c, h_b, h_a]
  | i27 imm a =>
    have h_a : (Tail.i27 imm a).pack.extractLsb' 0 5 = a :=
      (Laws.field_low (n := 43) rfl _ a)
    have h_imm : (Tail.i27 imm a).pack.extractLsb' 5 27 = imm :=
      (Laws.field_above (n := 43) rfl _ a (by decide) (Laws.field_low (n := 16) rfl _ imm))
    show Tail.i27 _ _ = _
    rw [h_imm, h_a]
  | br dl ix b a =>
    have h_a : (Tail.br dl ix b a).pack.extractLsb' 0 5 = a :=
      (Laws.field_low (n := 43) rfl _ a)
    have h_b : (Tail.br dl ix b a).pack.extractLsb' 5 5 = b :=
      (Laws.field_above (n := 43) rfl _ a (by decide) (Laws.field_low (n := 38) rfl _ b))
    have h_ix : (Tail.br dl ix b a).pack.extractLsb' 10 5 = ix :=
      (Laws.field_above (n := 43) rfl _ a (by decide) (Laws.field_above (n := 38) rfl _ b (by decide) (Laws.field_low (n := 33) rfl _ ix)))
    have h_dl : (Tail.br dl ix b a).pack.extractLsb' 15 17 = dl :=
      (Laws.field_above (n := 43) rfl _ a (by decide) (Laws.field_above (n := 38) rfl _ b (by decide) (Laws.field_above (n := 33) rfl _ ix (by decide) (Laws.field_low (n := 16) rfl _ dl))))
    show Tail.br _ _ _ _ = _
    rw [h_dl, h_ix, h_b, h_a]
  | i48 imm f a =>
    have h_a : (Tail.i48 imm f a).pack.extractLsb' 0 5 = a :=
      (Laws.field_low (n := 43) rfl _ a)
    have h_f : (Tail.i48 imm f a).pack.extractLsb' 5 11 = f :=
      (Laws.field_above (n := 43) rfl _ a (by decide) (Laws.field_low (n := 32) rfl _ f))
    have h_imm : (Tail.i48 imm f a).pack.extractLsb' 16 32 = imm :=
      (Laws.field_above (n := 43) rfl _ a (by decide) (Laws.field_above (n := 32) rfl _ f (by decide) (by simp)))
    show Tail.i48 _ _ _ = _
    rw [h_imm, h_f, h_a]
  | e inc ss imm mode ws c b a =>
    have h_a : (Tail.e inc ss imm mode ws c b a).pack.extractLsb' 0 5 = a :=
      (Laws.field_low (n := 43) rfl _ a)
    have h_b : (Tail.e inc ss imm mode ws c b a).pack.extractLsb' 5 5 = b :=
      (Laws.field_above (n := 43) rfl _ a (by decide) (Laws.field_low (n := 38) rfl _ b))
    have h_c : (Tail.e inc ss imm mode ws c b a).pack.extractLsb' 10 5 = c :=
      (Laws.field_above (n := 43) rfl _ a (by decide) (Laws.field_above (n := 38) rfl _ b (by decide) (Laws.field_low (n := 33) rfl _ c)))
    have h_ws : (Tail.e inc ss imm mode ws c b a).pack.extractLsb' 15 8 = ws :=
      (Laws.field_above (n := 43) rfl _ a (by decide) (Laws.field_above (n := 38) rfl _ b (by decide) (Laws.field_above (n := 33) rfl _ c (by decide) (Laws.field_low (n := 25) rfl _ ws))))
    have h_mode : (Tail.e inc ss imm mode ws c b a).pack.extractLsb' 23 2 = mode :=
      (Laws.field_above (n := 43) rfl _ a (by decide) (Laws.field_above (n := 38) rfl _ b (by decide) (Laws.field_above (n := 33) rfl _ c (by decide) (Laws.field_above (n := 25) rfl _ ws (by decide) (Laws.field_low (n := 23) rfl _ mode)))))
    have h_imm : (Tail.e inc ss imm mode ws c b a).pack.extractLsb' 25 11 = imm :=
      (Laws.field_above (n := 43) rfl _ a (by decide) (Laws.field_above (n := 38) rfl _ b (by decide) (Laws.field_above (n := 33) rfl _ c (by decide) (Laws.field_above (n := 25) rfl _ ws (by decide) (Laws.field_above (n := 23) rfl _ mode (by decide) (Laws.field_low (n := 12) rfl _ imm))))))
    have h_ss : (Tail.e inc ss imm mode ws c b a).pack.extractLsb' 36 8 = ss :=
      (Laws.field_above (n := 43) rfl _ a (by decide) (Laws.field_above (n := 38) rfl _ b (by decide) (Laws.field_above (n := 33) rfl _ c (by decide) (Laws.field_above (n := 25) rfl _ ws (by decide) (Laws.field_above (n := 23) rfl _ mode (by decide) (Laws.field_above (n := 12) rfl _ imm (by decide) (Laws.field_low (n := 4) rfl _ ss)))))))
    have h_inc : (Tail.e inc ss imm mode ws c b a).pack.extractLsb' 44 4 = inc :=
      (Laws.field_above (n := 43) rfl _ a (by decide) (Laws.field_above (n := 38) rfl _ b (by decide) (Laws.field_above (n := 33) rfl _ c (by decide) (Laws.field_above (n := 25) rfl _ ws (by decide) (Laws.field_above (n := 23) rfl _ mode (by decide) (Laws.field_above (n := 12) rfl _ imm (by decide) (Laws.field_above (n := 4) rfl _ ss (by decide) (by simp))))))))
    show Tail.e _ _ _ _ _ _ _ _ = _
    rw [h_inc, h_ss, h_imm, h_mode, h_ws, h_c, h_b, h_a]

theorem Laws.headD_pack (n : Nat) (h : HeadF) : headD (packHead n h) = h.d :=
  Laws.field_low (n := 11) rfl _ h.d

theorem Laws.headSel_pack (n : Nat) (h : HeadF) : headSel (packHead n h) = h.sel :=
  Laws.field_above (n := 11) rfl _ h.d (by decide) (Laws.field_low (n := 9) rfl _ h.sel)

theorem Laws.headOP_pack (n : Nat) (h : HeadF) (ho : h.op < 128) : headOP (packHead n h) = h.op := by
  have e : (packHead n h).extractLsb' 7 7 = BitVec.ofNat 7 h.op :=
    Laws.field_above (n := 11) rfl _ h.d (by decide)
      (Laws.field_above (n := 9) rfl _ h.sel (by decide) (Laws.field_low (n := 2) rfl _ _))
  simp only [headOP, e, BitVec.toNat_ofNat]
  omega

theorem Laws.headTL_pack (n : Nat) (h : HeadF) (hn : n < 4) : headTL (packHead n h) = n := by
  have e : (packHead n h).extractLsb' 14 2 = BitVec.ofNat 2 n :=
    Laws.field_above (n := 11) rfl _ h.d (by decide)
      (Laws.field_above (n := 9) rfl _ h.sel (by decide)
        (Laws.field_above (n := 2) rfl _ (BitVec.ofNat 7 h.op) (by decide) (by simp)))
  simp only [headTL, e, BitVec.toNat_ofNat]
  omega

theorem Laws.tl_lt (f : Format) : f.tl < 4 := by cases f <;> decide

/-- Decoding a packed head and tail is decoding their fields. -/
theorem Laws.decode_pack (h : HeadF) (t : Tail) (ho : h.op < 128) (hf : opFormat h.op = some t.format) :
    decode (packHead t.format.tl h) t.pack =
      match decodeFields h.op h.sel h.d t with
      | some i => if i.wellFormed then .ok i else .badEncoding
      | none => .badEncoding := by
  simp only [decode, Laws.headOP_pack _ h ho, hf, Laws.headTL_pack _ h (Laws.tl_lt _), Laws.headSel_pack,
    Laws.headD_pack, Laws.unpack_pack, ne_eq, not_true_eq_false, if_false]
  all_goals cases decodeFields h.op h.sel h.d t <;> rfl

/-! ## Operand fields -/

namespace Laws

theorem hi5_mk56 (h : BitVec 5) (l : BitVec 6) : hi5 (mk56 h l) = h :=
  field_above (n := 5) rfl _ l (by decide) (by simp)
theorem lo6_mk56 (h : BitVec 5) (l : BitVec 6) : lo6 (mk56 h l) = l := field_low (n := 5) rfl h l
theorem hi4_mk416 (h : BitVec 4) (b : BitVec 1) (l : BitVec 6) : hi4 (mk416 h b l) = h :=
  field_above (n := 5) rfl _ l (by decide) (field_above (n := 4) rfl _ b (by decide) (by simp))
theorem bit6_mk416 (h : BitVec 4) (b : BitVec 1) (l : BitVec 6) : bit6 (mk416 h b l) = b :=
  field_above (n := 5) rfl _ l (by decide) (field_low (n := 4) rfl h b)
theorem lo6_mk416 (h : BitVec 4) (b : BitVec 1) (l : BitVec 6) : lo6 (mk416 h b l) = l :=
  field_low (n := 5) rfl _ l
theorem mk15_split (w : BitVec 6) : mk15 (hi1 w) (lo5 w) = w := by revert w; decide
theorem hi9_mk92 (h : BitVec 9) (l : BitVec 2) : hi9 (mk92 h l) = h :=
  field_above (n := 9) rfl _ l (by decide) (by simp)
theorem lo2_mk92 (h : BitVec 9) (l : BitVec 2) : lo2 (mk92 h l) = l := field_low (n := 9) rfl h l
theorem hi8_mk83 (h : BitVec 8) (l : BitVec 3) : hi8 (mk83 h l) = h :=
  field_above (n := 8) rfl _ l (by decide) (by simp)
theorem lo3m_mk83 (h : BitVec 8) (l : BitVec 3) : lo3m (mk83 h l) = l := field_low (n := 8) rfl h l
theorem hi7_mk74 (h : BitVec 7) (l : BitVec 4) : hi7 (mk74 h l) = h :=
  field_above (n := 7) rfl _ l (by decide) (by simp)
theorem lo4_mk74 (h : BitVec 7) (l : BitVec 4) : lo4 (mk74 h l) = l := field_low (n := 7) rfl h l
theorem hi15_mk1512 (h : BitVec 15) (l : BitVec 12) : hi15 (mk1512 h l) = h :=
  field_above (n := 15) rfl _ l (by decide) (by simp)
theorem lo12_mk1512 (h : BitVec 15) (l : BitVec 12) : lo12 (mk1512 h l) = l := field_low (n := 15) rfl h l
theorem hi10_mk101 (b : Bool) : hi10 (mk101 b) = 0 := by cases b <;> rfl
theorem bit0_mk101 (b : Bool) : bit0 (mk101 b) = b := by cases b <;> rfl
theorem lsb_mk11 (h l : Bool) : lsb (mk11 h l) = l := by cases h <;> cases l <;> rfl
theorem msb_mk11 (h l : Bool) : msb (mk11 h l) = h := by cases h <;> cases l <;> rfl
theorem vhi_vreg (v : BitVec 2) : vhi (vreg v) = true := by revert v; decide
theorem vlo_vreg (v : BitVec 2) : vlo (vreg v) = v := by revert v; decide
theorem m3_mreg (m : BitVec 3) : m3 (mreg m) = true := by revert m; decide
theorem mlo_mreg (m : BitVec 3) : mlo (mreg m) = m := by revert m; decide

theorem amo_fields (sc : BitVec 3) (rel acq w : Bool) :
    hi5 (mkAmo sc rel acq w) = 0 ∧ sc3 (mkAmo sc rel acq w) = sc ∧ bit0 (mkAmo sc rel acq w) = w ∧
      bit1 (mkAmo sc rel acq w) = acq ∧ bit2 (mkAmo sc rel acq w) = rel := by
  revert sc rel acq w; decide
theorem fence_fields (eng st ld : Bool) (sc : BitVec 3) :
    hi5 (mkFence eng st ld sc) = 0 ∧ lo3m (mkFence eng st ld sc) = sc ∧ bit3 (mkFence eng st ld sc) = ld ∧
      bit4 (mkFence eng st ld sc) = st ∧ bit5 (mkFence eng st ld sc) = eng := by
  revert eng st ld sc; decide

theorem mty (t : MTy) : hi3f (mk33 0#3 t.enc) = 0#3 ∧ MTy.dec (lo3 (mk33 0#3 t.enc)) = t := by cases t <;> decide
theorem msize (t : MSize) :
    hi3f (mk33 1#3 t.enc) = 1#3 ∧ MSize.dec (lo2f (mk33 1#3 t.enc)) = t ∧ t4 (mk33 1#3 t.enc) = true := by
  cases t <;> decide

theorem scope (sc : Scope) : scopeOk sc.enc sc.reg = true ∧ Scope.dec sc.enc sc.reg = sc := by
  cases sc with
  | rect c => exact ⟨rfl, rfl⟩
  | _ => exact ⟨rfl, rfl⟩

theorem wait (wt : EWait) :
    waitOk wt.mode wt.sem wt.imm wt.reg = true ∧ EWait.dec wt.mode wt.sem wt.imm wt.reg = wt := by
  cases wt with
  | none => exact ⟨rfl, rfl⟩
  | atLeast s n => exact ⟨rfl, rfl⟩
  | atLeastReg s c n => exact ⟨rfl, rfl⟩

theorem signal (sg : ESignal) (h : signalOk sg = true) :
    signalEncOk (sigInc sg) (sigSem sg) = true ∧ signalDec (sigInc sg) (sigSem sg) = sg := by
  match sg, h with
  | none, _ => exact ⟨rfl, rfl⟩
  | some (k, ss), h =>
    have hk : k ≠ 0#4 := by simpa [signalOk] using h
    exact ⟨by simp [signalEncOk, sigInc, hk], by simp [signalDec, sigInc, sigSem, hk]⟩

theorem code4 (t : ETy) : ETy.ofCode t.code4.toNat = some t := by cases t <;> rfl

theorem modTM_ty (t : ETy) (m : Mask) : lo4 (modTM t m) = t.code4 := by
  cases m with
  | none => exact field_low (n := 7) rfl _ t.code4
  | some p => exact field_low (n := 7) rfl _ t.code4

theorem modTM_mask (t : ETy) (m : Mask) : maskDec (modTM t m) = some m := by
  rcases m with _ | ⟨r, z⟩
  · cases t <;> rfl
  · revert r z; cases t <;> decide

theorem modTM_z (t : ETy) (m : Option (BitVec 3)) : zbit (modTM t (m.map (fun r => (r, false)))) = false := by
  rcases m with _ | r
  · cases t <;> rfl
  · revert r; cases t <;> decide

theorem mask_fst (m : Option (BitVec 3)) : m.map (Prod.fst ∘ fun r => (r, false)) = m := by cases m <;> rfl

theorem withTM_mod (t : ETy) (m : Mask) (k : ETy → Mask → Instr) : withTM (modTM t m) k = some (k t m) := by
  simp only [withTM, withTMo, modTM_ty, code4, modTM_mask]

theorem withTMo_mod (t : ETy) (m : Mask) (k : ETy → Mask → Option Instr) : withTMo (modTM t m) k = k t m := by
  simp only [withTMo, modTM_ty, code4, modTM_mask]

theorem ety_reg (s : ETy) : s.reg.getLsbD 4 = false ∧ s.reg.extractLsb' 0 4 = s.code4 := by cases s <;> decide

theorem withSTMo_mod (s t : ETy) (m : Mask) (k : ETy → ETy → Mask → Option Instr) :
    withSTMo (modTM t m) s.reg k = k s t m := by
  simp only [withSTMo, (ety_reg s).1, (ety_reg s).2, code4, withTMo_mod, Bool.false_eq_true, if_false]

theorem withSTM_mod (s t : ETy) (m : Mask) (k : ETy → ETy → Mask → Instr) :
    withSTM (modTM t m) s.reg k = some (k s t m) := by
  simp only [withSTM, withSTMo_mod]

/-! ## The family -/

/-- What the family RoundTrip says of an instruction: where it is well formed and has an encoding, the decoder
reads it back from that encoding. -/
def RoundTrip.Statement (i : Instr) : Prop :=
  i.wellFormed = true → ∀ h t, encode i = some (h, t) → decode h t = .ok i

/-- The family from the fields. -/
theorem RoundTrip.of_fields {i : Instr} {h : HeadF} {t : Tail} (e : encodeFields i = some (h, t))
    (ho : decide (h.op < 128) = true)
    (hf : opFormat h.op = some t.format) (hd : i.wellFormed = true → decodeFields h.op h.sel h.d t = some i) :
    RoundTrip.Statement i := by
  intro w hh tt he
  simp only [encode, e, Option.some.injEq, Prod.mk.injEq] at he
  obtain ⟨rfl, rfl⟩ := he
  rw [Laws.decode_pack h t (of_decide_eq_true ho) hf, hd w]
  simp only [w, if_true]

theorem RoundTrip.of_none {i : Instr} (e : encodeFields i = none) : RoundTrip.Statement i := by
  intro _ _ _ he
  simp only [encode, e, reduceCtorEq] at he

theorem RoundTrip.beq (a b : Reg) (t : BTarget) : RoundTrip.Statement (.beq a b t) :=
  of_fields rfl rfl rfl (fun _ => by show dec02 _ _ _ _ _ _ = _; simp [dec02])

theorem RoundTrip.bne (a b : Reg) (t : BTarget) : RoundTrip.Statement (.bne a b t) :=
  of_fields rfl rfl rfl (fun _ => by show dec02 _ _ _ _ _ _ = _; simp [dec02])

theorem RoundTrip.blt (a b : Reg) (t : BTarget) : RoundTrip.Statement (.blt a b t) :=
  of_fields rfl rfl rfl (fun _ => by show dec02 _ _ _ _ _ _ = _; simp [dec02])

theorem RoundTrip.bge (a b : Reg) (t : BTarget) : RoundTrip.Statement (.bge a b t) :=
  of_fields rfl rfl rfl (fun _ => by show dec02 _ _ _ _ _ _ = _; simp [dec02])

theorem RoundTrip.bltZ (a b : Reg) (t : BTarget) : RoundTrip.Statement (.bltZ a b t) :=
  of_fields rfl rfl rfl (fun _ => by show dec02 _ _ _ _ _ _ = _; simp [dec02])

theorem RoundTrip.bgeZ (a b : Reg) (t : BTarget) : RoundTrip.Statement (.bgeZ a b t) :=
  of_fields rfl rfl rfl (fun _ => by show dec02 _ _ _ _ _ _ = _; simp [dec02])

theorem RoundTrip.br (t : BTarget) : RoundTrip.Statement (.br t) :=
  of_fields rfl rfl rfl (fun _ => by show dec02 _ _ _ _ _ _ = _; simp [dec02])

theorem RoundTrip.jal (d : Reg) (t : BTarget) : RoundTrip.Statement (.jal d t) :=
  of_fields rfl rfl rfl (fun _ => by show dec03 _ _ _ _ _ _ = _; simp [dec03])

theorem RoundTrip.jalr (d a : Reg) (imm : BitVec 11) : RoundTrip.Statement (.jalr d a imm) :=
  of_fields rfl rfl rfl (fun _ => by show dec04 _ _ _ _ = _; simp [dec04])

theorem RoundTrip.loop (a : Reg) (t : BTarget) : RoundTrip.Statement (.loop a t) :=
  of_fields rfl rfl rfl (fun _ => by show dec05 _ _ _ _ _ _ = _; simp [dec05])

theorem RoundTrip.bsdone (v : BitVec 2) (t : BTarget) : RoundTrip.Statement (.bsdone v t) :=
  of_fields rfl rfl rfl (fun _ => by show dec06 _ _ _ _ _ _ = _; simp [dec06, vhi_vreg, vlo_vreg])

theorem RoundTrip.bsmore (v : BitVec 2) (t : BTarget) : RoundTrip.Statement (.bsmore v t) :=
  of_fields rfl rfl rfl (fun _ => by show dec06 _ _ _ _ _ _ = _; simp [dec06, vhi_vreg, vlo_vreg])

theorem RoundTrip.li (d : Reg) (imm : BitVec 32) : RoundTrip.Statement (.li d imm) :=
  of_fields rfl rfl rfl (fun _ => by show dec08 _ _ _ _ _ = _; simp [dec08])

theorem RoundTrip.liZ (d : Reg) (imm : BitVec 32) : RoundTrip.Statement (.liZ d imm) :=
  of_fields rfl rfl rfl (fun _ => by show dec08 _ _ _ _ _ = _; simp [dec08])

theorem RoundTrip.lihi (d : Reg) (imm : BitVec 32) : RoundTrip.Statement (.lihi d imm) :=
  of_fields rfl rfl rfl (fun _ => by show dec08 _ _ _ _ _ = _; simp [dec08])

theorem RoundTrip.addi (d a : Reg) (imm : BitVec 11) : RoundTrip.Statement (.addi d a imm) :=
  of_fields rfl rfl rfl (fun _ => by show dec09 _ _ _ _ = _; simp [dec09])

theorem RoundTrip.andi (d a : Reg) (imm : BitVec 11) : RoundTrip.Statement (.andi d a imm) :=
  of_fields rfl rfl rfl (fun _ => by show dec09 _ _ _ _ = _; simp [dec09])

theorem RoundTrip.ori (d a : Reg) (imm : BitVec 11) : RoundTrip.Statement (.ori d a imm) :=
  of_fields rfl rfl rfl (fun _ => by show dec09 _ _ _ _ = _; simp [dec09])

theorem RoundTrip.xori (d a : Reg) (imm : BitVec 11) : RoundTrip.Statement (.xori d a imm) :=
  of_fields rfl rfl rfl (fun _ => by show dec09 _ _ _ _ = _; simp [dec09])

theorem RoundTrip.slli (d a : Reg) (sh : BitVec 6) : RoundTrip.Statement (.slli d a sh) :=
  of_fields rfl rfl rfl (fun _ => by show dec0A _ _ _ _ = _; simp [dec0A, hi5_mk56, lo6_mk56])

theorem RoundTrip.srli (d a : Reg) (sh : BitVec 6) : RoundTrip.Statement (.srli d a sh) :=
  of_fields rfl rfl rfl (fun _ => by show dec0A _ _ _ _ = _; simp [dec0A, hi5_mk56, lo6_mk56])

theorem RoundTrip.srai (d a : Reg) (sh : BitVec 6) : RoundTrip.Statement (.srai d a sh) :=
  of_fields rfl rfl rfl (fun _ => by show dec0A _ _ _ _ = _; simp [dec0A, hi5_mk56, lo6_mk56])

theorem RoundTrip.rori (d a : Reg) (sh : BitVec 6) : RoundTrip.Statement (.rori d a sh) :=
  of_fields rfl rfl rfl (fun _ => by show dec0A _ _ _ _ = _; simp [dec0A, hi5_mk56, lo6_mk56])

theorem RoundTrip.addil (d a : Reg) (imm : BitVec 27) : RoundTrip.Statement (.addil d a imm) :=
  of_fields rfl rfl rfl (fun _ => by show dec0B _ _ _ _ = _; simp [dec0B])

theorem RoundTrip.adr (d : Reg) (imm : BitVec 27) : RoundTrip.Statement (.adr d imm) :=
  of_fields rfl rfl rfl (fun _ => by show dec0C _ _ _ _ = _; simp [dec0C])

theorem RoundTrip.slti (d a : Reg) (imm : BitVec 11) : RoundTrip.Statement (.slti d a imm) :=
  of_fields rfl rfl rfl (fun _ => by show dec0D _ _ _ _ = _; simp [dec0D])

theorem RoundTrip.sltiZ (d a : Reg) (imm : BitVec 11) : RoundTrip.Statement (.sltiZ d a imm) :=
  of_fields rfl rfl rfl (fun _ => by show dec0D _ _ _ _ = _; simp [dec0D])

theorem RoundTrip.seqi (d a : Reg) (imm : BitVec 11) : RoundTrip.Statement (.seqi d a imm) :=
  of_fields rfl rfl rfl (fun _ => by show dec0D _ _ _ _ = _; simp [dec0D])

theorem RoundTrip.add (d a b : Reg) : RoundTrip.Statement (.add d a b) :=
  of_fields rfl rfl rfl (fun _ => by show dec10 _ _ _ _ _ = _; simp [dec10])

theorem RoundTrip.sub (d a b : Reg) : RoundTrip.Statement (.sub d a b) :=
  of_fields rfl rfl rfl (fun _ => by show dec10 _ _ _ _ _ = _; simp [dec10])

theorem RoundTrip.and (d a b : Reg) : RoundTrip.Statement (.and d a b) :=
  of_fields rfl rfl rfl (fun _ => by show dec10 _ _ _ _ _ = _; simp [dec10])

theorem RoundTrip.or (d a b : Reg) : RoundTrip.Statement (.or d a b) :=
  of_fields rfl rfl rfl (fun _ => by show dec10 _ _ _ _ _ = _; simp [dec10])

theorem RoundTrip.xor (d a b : Reg) : RoundTrip.Statement (.xor d a b) :=
  of_fields rfl rfl rfl (fun _ => by show dec10 _ _ _ _ _ = _; simp [dec10])

theorem RoundTrip.andn (d a b : Reg) : RoundTrip.Statement (.andn d a b) :=
  of_fields rfl rfl rfl (fun _ => by show dec10 _ _ _ _ _ = _; simp [dec10])

theorem RoundTrip.orn (d a b : Reg) : RoundTrip.Statement (.orn d a b) :=
  of_fields rfl rfl rfl (fun _ => by show dec10 _ _ _ _ _ = _; simp [dec10])

theorem RoundTrip.xnor (d a b : Reg) : RoundTrip.Statement (.xnor d a b) :=
  of_fields rfl rfl rfl (fun _ => by show dec10 _ _ _ _ _ = _; simp [dec10])

theorem RoundTrip.sll (d a b : Reg) : RoundTrip.Statement (.sll d a b) :=
  of_fields rfl rfl rfl (fun _ => by show dec10 _ _ _ _ _ = _; simp [dec10])

theorem RoundTrip.srl (d a b : Reg) : RoundTrip.Statement (.srl d a b) :=
  of_fields rfl rfl rfl (fun _ => by show dec10 _ _ _ _ _ = _; simp [dec10])

theorem RoundTrip.sra (d a b : Reg) : RoundTrip.Statement (.sra d a b) :=
  of_fields rfl rfl rfl (fun _ => by show dec10 _ _ _ _ _ = _; simp [dec10])

theorem RoundTrip.rol (d a b : Reg) : RoundTrip.Statement (.rol d a b) :=
  of_fields rfl rfl rfl (fun _ => by show dec10 _ _ _ _ _ = _; simp [dec10])

theorem RoundTrip.ror (d a b : Reg) : RoundTrip.Statement (.ror d a b) :=
  of_fields rfl rfl rfl (fun _ => by show dec10 _ _ _ _ _ = _; simp [dec10])

theorem RoundTrip.slt (d a b : Reg) : RoundTrip.Statement (.slt d a b) :=
  of_fields rfl rfl rfl (fun _ => by show dec10 _ _ _ _ _ = _; simp [dec10])

theorem RoundTrip.sltZ (d a b : Reg) : RoundTrip.Statement (.sltZ d a b) :=
  of_fields rfl rfl rfl (fun _ => by show dec10 _ _ _ _ _ = _; simp [dec10])

theorem RoundTrip.seq (d a b : Reg) : RoundTrip.Statement (.seq d a b) :=
  of_fields rfl rfl rfl (fun _ => by show dec10 _ _ _ _ _ = _; simp [dec10])

theorem RoundTrip.mul (d a b : Reg) : RoundTrip.Statement (.mul d a b) :=
  of_fields rfl rfl rfl (fun _ => by show dec11 _ _ _ _ _ = _; simp [dec11])

theorem RoundTrip.mulh (d a b : Reg) : RoundTrip.Statement (.mulh d a b) :=
  of_fields rfl rfl rfl (fun _ => by show dec11 _ _ _ _ _ = _; simp [dec11])

theorem RoundTrip.mulhZ (d a b : Reg) : RoundTrip.Statement (.mulhZ d a b) :=
  of_fields rfl rfl rfl (fun _ => by show dec11 _ _ _ _ _ = _; simp [dec11])

theorem RoundTrip.div (d a b : Reg) : RoundTrip.Statement (.div d a b) :=
  of_fields rfl rfl rfl (fun _ => by show dec11 _ _ _ _ _ = _; simp [dec11])

theorem RoundTrip.divZ (d a b : Reg) : RoundTrip.Statement (.divZ d a b) :=
  of_fields rfl rfl rfl (fun _ => by show dec11 _ _ _ _ _ = _; simp [dec11])

theorem RoundTrip.rem (d a b : Reg) : RoundTrip.Statement (.rem d a b) :=
  of_fields rfl rfl rfl (fun _ => by show dec11 _ _ _ _ _ = _; simp [dec11])

theorem RoundTrip.remZ (d a b : Reg) : RoundTrip.Statement (.remZ d a b) :=
  of_fields rfl rfl rfl (fun _ => by show dec11 _ _ _ _ _ = _; simp [dec11])

theorem RoundTrip.ext (d a : Reg) (p w : BitVec 6) : RoundTrip.Statement (.ext d a p w) :=
  of_fields rfl rfl rfl (fun _ => by show dec12 _ _ _ _ _ _ _ = _; simp [dec12, hi4_mk416, bit6_mk416, lo6_mk416, mk15_split])

theorem RoundTrip.extZ (d a : Reg) (p w : BitVec 6) : RoundTrip.Statement (.extZ d a p w) :=
  of_fields rfl rfl rfl (fun _ => by show dec12 _ _ _ _ _ _ _ = _; simp [dec12, hi4_mk416, bit6_mk416, lo6_mk416, mk15_split])

theorem RoundTrip.ins (d a b : Reg) (p w : BitVec 6) : RoundTrip.Statement (.ins d a b p w) :=
  of_fields rfl rfl rfl (fun _ => by show dec12 _ _ _ _ _ _ _ = _; simp [dec12, hi4_mk416, bit6_mk416, lo6_mk416, mk15_split])

theorem RoundTrip.clz (d a : Reg) : RoundTrip.Statement (.clz d a) :=
  of_fields rfl rfl rfl (fun _ => by show dec13 _ _ _ _ _ = _; simp [dec13])

theorem RoundTrip.ctz (d a : Reg) : RoundTrip.Statement (.ctz d a) :=
  of_fields rfl rfl rfl (fun _ => by show dec13 _ _ _ _ _ = _; simp [dec13])

theorem RoundTrip.popc (d a : Reg) : RoundTrip.Statement (.popc d a) :=
  of_fields rfl rfl rfl (fun _ => by show dec13 _ _ _ _ _ = _; simp [dec13])

theorem RoundTrip.brev (d a : Reg) : RoundTrip.Statement (.brev d a) :=
  of_fields rfl rfl rfl (fun _ => by show dec13 _ _ _ _ _ = _; simp [dec13])

theorem RoundTrip.bswap (d a : Reg) : RoundTrip.Statement (.bswap d a) :=
  of_fields rfl rfl rfl (fun _ => by show dec13 _ _ _ _ _ = _; simp [dec13])

theorem RoundTrip.sext8 (d a : Reg) : RoundTrip.Statement (.sext8 d a) :=
  of_fields rfl rfl rfl (fun _ => by show dec13 _ _ _ _ _ = _; simp [dec13])

theorem RoundTrip.sext16 (d a : Reg) : RoundTrip.Statement (.sext16 d a) :=
  of_fields rfl rfl rfl (fun _ => by show dec13 _ _ _ _ _ = _; simp [dec13])

theorem RoundTrip.sext32 (d a : Reg) : RoundTrip.Statement (.sext32 d a) :=
  of_fields rfl rfl rfl (fun _ => by show dec13 _ _ _ _ _ = _; simp [dec13])

theorem RoundTrip.zext8 (d a : Reg) : RoundTrip.Statement (.zext8 d a) :=
  of_fields rfl rfl rfl (fun _ => by show dec13 _ _ _ _ _ = _; simp [dec13])

theorem RoundTrip.zext16 (d a : Reg) : RoundTrip.Statement (.zext16 d a) :=
  of_fields rfl rfl rfl (fun _ => by show dec13 _ _ _ _ _ = _; simp [dec13])

theorem RoundTrip.zext32 (d a : Reg) : RoundTrip.Statement (.zext32 d a) :=
  of_fields rfl rfl rfl (fun _ => by show dec13 _ _ _ _ _ = _; simp [dec13])

theorem RoundTrip.selNz (d a b c : Reg) : RoundTrip.Statement (.selNz d a b c) :=
  of_fields rfl rfl rfl (fun _ => by show dec14 _ _ _ _ _ _ _ = _; simp [dec14])

theorem RoundTrip.selZ (d a b c : Reg) : RoundTrip.Statement (.selZ d a b c) :=
  of_fields rfl rfl rfl (fun _ => by show dec14 _ _ _ _ _ _ _ = _; simp [dec14])

theorem RoundTrip.min (d a b : Reg) : RoundTrip.Statement (.min d a b) :=
  of_fields rfl rfl rfl (fun _ => by show dec14 _ _ _ _ _ _ _ = _; simp [dec14])

theorem RoundTrip.max (d a b : Reg) : RoundTrip.Statement (.max d a b) :=
  of_fields rfl rfl rfl (fun _ => by show dec14 _ _ _ _ _ _ _ = _; simp [dec14])

theorem RoundTrip.minZ (d a b : Reg) : RoundTrip.Statement (.minZ d a b) :=
  of_fields rfl rfl rfl (fun _ => by show dec14 _ _ _ _ _ _ _ = _; simp [dec14])

theorem RoundTrip.maxZ (d a b : Reg) : RoundTrip.Statement (.maxZ d a b) :=
  of_fields rfl rfl rfl (fun _ => by show dec14 _ _ _ _ _ _ _ = _; simp [dec14])

theorem RoundTrip.ldS8 (d a : Reg) (imm : BitVec 11) : RoundTrip.Statement (.ldS8 d a imm) :=
  of_fields rfl rfl rfl (fun _ => by show dec18 _ _ _ _ = _; simp [dec18])

theorem RoundTrip.ldS16 (d a : Reg) (imm : BitVec 11) : RoundTrip.Statement (.ldS16 d a imm) :=
  of_fields rfl rfl rfl (fun _ => by show dec18 _ _ _ _ = _; simp [dec18])

theorem RoundTrip.ldS32 (d a : Reg) (imm : BitVec 11) : RoundTrip.Statement (.ldS32 d a imm) :=
  of_fields rfl rfl rfl (fun _ => by show dec18 _ _ _ _ = _; simp [dec18])

theorem RoundTrip.ldS64 (d a : Reg) (imm : BitVec 11) : RoundTrip.Statement (.ldS64 d a imm) :=
  of_fields rfl rfl rfl (fun _ => by show dec18 _ _ _ _ = _; simp [dec18])

theorem RoundTrip.ldZ8 (d a : Reg) (imm : BitVec 11) : RoundTrip.Statement (.ldZ8 d a imm) :=
  of_fields rfl rfl rfl (fun _ => by show dec19 _ _ _ _ = _; simp [dec19])

theorem RoundTrip.ldZ16 (d a : Reg) (imm : BitVec 11) : RoundTrip.Statement (.ldZ16 d a imm) :=
  of_fields rfl rfl rfl (fun _ => by show dec19 _ _ _ _ = _; simp [dec19])

theorem RoundTrip.ldZ32 (d a : Reg) (imm : BitVec 11) : RoundTrip.Statement (.ldZ32 d a imm) :=
  of_fields rfl rfl rfl (fun _ => by show dec19 _ _ _ _ = _; simp [dec19])

theorem RoundTrip.ldZ64 (d a : Reg) (imm : BitVec 11) : RoundTrip.Statement (.ldZ64 d a imm) :=
  of_fields rfl rfl rfl (fun _ => by show dec19 _ _ _ _ = _; simp [dec19])

theorem RoundTrip.stS8 (s a : Reg) (imm : BitVec 11) : RoundTrip.Statement (.stS8 s a imm) :=
  of_fields rfl rfl rfl (fun _ => by show dec1A _ _ _ _ = _; simp [dec1A])

theorem RoundTrip.stS16 (s a : Reg) (imm : BitVec 11) : RoundTrip.Statement (.stS16 s a imm) :=
  of_fields rfl rfl rfl (fun _ => by show dec1A _ _ _ _ = _; simp [dec1A])

theorem RoundTrip.stS32 (s a : Reg) (imm : BitVec 11) : RoundTrip.Statement (.stS32 s a imm) :=
  of_fields rfl rfl rfl (fun _ => by show dec1A _ _ _ _ = _; simp [dec1A])

theorem RoundTrip.stS64 (s a : Reg) (imm : BitVec 11) : RoundTrip.Statement (.stS64 s a imm) :=
  of_fields rfl rfl rfl (fun _ => by show dec1A _ _ _ _ = _; simp [dec1A])

theorem RoundTrip.ldx (d a b : Reg) (k : BitVec 2) (t : MTy) : RoundTrip.Statement (.ldx d a b k t) :=
  of_fields rfl rfl rfl (fun _ => by show dec1B _ _ _ _ _ _ _ = _; simp [dec1B, hi9_mk92, lo2_mk92, (mty t).1, (mty t).2])

theorem RoundTrip.stx (c a b : Reg) (k : BitVec 2) (t : MSize) : RoundTrip.Statement (.stx c a b k t) :=
  of_fields rfl rfl rfl (fun _ => by show dec1B _ _ _ _ _ _ _ = _; simp [dec1B, hi9_mk92, lo2_mk92, (msize t).1, (msize t).2.1, (msize t).2.2])

theorem RoundTrip.ldAcq (d a : Reg) (t : MTy) (sc : Scope) : RoundTrip.Statement (.ldAcq d a t sc) :=
  of_fields rfl rfl rfl (fun _ => by show dec1C _ _ _ _ _ _ _ = _; simp [dec1C, hi8_mk83, lo3m_mk83, (mty t).1, (mty t).2, (scope sc).1, (scope sc).2])

theorem RoundTrip.stRel (b a : Reg) (t : MSize) (sc : Scope) : RoundTrip.Statement (.stRel b a t sc) :=
  of_fields rfl rfl rfl (fun _ => by show dec1C _ _ _ _ _ _ _ = _; simp [dec1C, hi8_mk83, lo3m_mk83, (msize t).1, (msize t).2.1, (msize t).2.2, (scope sc).1, (scope sc).2])

theorem RoundTrip.ldff (d a : Reg) (disp : BitVec 11) : RoundTrip.Statement (.ldff d a disp) :=
  of_fields rfl rfl rfl (fun _ => by show dec1D _ _ _ _ _ _ _ = _; simp [dec1D])

theorem RoundTrip.ldfe (d a : Reg) (disp : BitVec 11) : RoundTrip.Statement (.ldfe d a disp) :=
  of_fields rfl rfl rfl (fun _ => by show dec1D _ _ _ _ _ _ _ = _; simp [dec1D])

theorem RoundTrip.stef (b a : Reg) (disp : BitVec 11) : RoundTrip.Statement (.stef b a disp) :=
  of_fields rfl rfl rfl (fun _ => by show dec1D _ _ _ _ _ _ _ = _; simp [dec1D])

theorem RoundTrip.stsf (b a : Reg) (disp : BitVec 11) : RoundTrip.Statement (.stsf b a disp) :=
  of_fields rfl rfl rfl (fun _ => by show dec1D _ _ _ _ _ _ _ = _; simp [dec1D])

theorem RoundTrip.stse (b a : Reg) (disp : BitVec 11) : RoundTrip.Statement (.stse b a disp) :=
  of_fields rfl rfl rfl (fun _ => by show dec1D _ _ _ _ _ _ _ = _; simp [dec1D])

theorem RoundTrip.ferd (d a : Reg) (disp : BitVec 11) : RoundTrip.Statement (.ferd d a disp) :=
  of_fields rfl rfl rfl (fun _ => by show dec1D _ _ _ _ _ _ _ = _; simp [dec1D])

theorem RoundTrip.pref (a : Reg) (imm : BitVec 11) : RoundTrip.Statement (.pref a imm) :=
  of_fields rfl rfl rfl (fun _ => by show dec1E _ _ _ _ = _; simp [dec1E])

theorem RoundTrip.prefW (a : Reg) (imm : BitVec 11) : RoundTrip.Statement (.prefW a imm) :=
  of_fields rfl rfl rfl (fun _ => by show dec1E _ _ _ _ = _; simp [dec1E])

theorem RoundTrip.wb (a : Reg) (imm : BitVec 11) : RoundTrip.Statement (.wb a imm) :=
  of_fields rfl rfl rfl (fun _ => by show dec1E _ _ _ _ = _; simp [dec1E])

theorem RoundTrip.drop (a : Reg) (imm : BitVec 11) : RoundTrip.Statement (.drop a imm) :=
  of_fields rfl rfl rfl (fun _ => by show dec1E _ _ _ _ = _; simp [dec1E])

theorem RoundTrip.vld (d a : Reg) (imm : BitVec 11) : RoundTrip.Statement (.vld d a imm) :=
  of_fields rfl rfl rfl (fun _ => by show dec20 _ _ _ _ = _; simp [dec20])

theorem RoundTrip.vst (s a : Reg) (imm : BitVec 11) : RoundTrip.Statement (.vst s a imm) :=
  of_fields rfl rfl rfl (fun _ => by show dec20 _ _ _ _ = _; simp [dec20])

theorem RoundTrip.vgath (d a b : Reg) (t : ETy) (m : Mask) : RoundTrip.Statement (.vgath d a b t m) :=
  of_fields rfl rfl rfl (fun _ => by show dec21 _ _ _ _ _ _ _ = _; simp [dec21, withTM_mod])

theorem RoundTrip.vscat (d a b : Reg) (t : ETy) (m : Mask) : RoundTrip.Statement (.vscat d a b t m) :=
  of_fields rfl rfl rfl (fun _ => by show dec21 _ _ _ _ _ _ _ = _; simp [dec21, withTM_mod])

theorem RoundTrip.vadd (d a b : Reg) (t : ETy) (m : Mask) : RoundTrip.Statement (.vadd d a b t m) :=
  of_fields rfl rfl rfl (fun _ => by show dec22 _ _ _ _ _ _ _ = _; simp [dec22, withTM_mod])

theorem RoundTrip.vsub (d a b : Reg) (t : ETy) (m : Mask) : RoundTrip.Statement (.vsub d a b t m) :=
  of_fields rfl rfl rfl (fun _ => by show dec22 _ _ _ _ _ _ _ = _; simp [dec22, withTM_mod])

theorem RoundTrip.vmul (d a b : Reg) (t : ETy) (m : Mask) : RoundTrip.Statement (.vmul d a b t m) :=
  of_fields rfl rfl rfl (fun _ => by show dec22 _ _ _ _ _ _ _ = _; simp [dec22, withTM_mod])

theorem RoundTrip.vmulh (d a b : Reg) (t : ETy) (m : Mask) : RoundTrip.Statement (.vmulh d a b t m) :=
  of_fields rfl rfl rfl (fun _ => by show dec22 _ _ _ _ _ _ _ = _; simp [dec22, withTM_mod])

theorem RoundTrip.vmin (d a b : Reg) (t : ETy) (m : Mask) : RoundTrip.Statement (.vmin d a b t m) :=
  of_fields rfl rfl rfl (fun _ => by show dec22 _ _ _ _ _ _ _ = _; simp [dec22, withTM_mod])

theorem RoundTrip.vmax (d a b : Reg) (t : ETy) (m : Mask) : RoundTrip.Statement (.vmax d a b t m) :=
  of_fields rfl rfl rfl (fun _ => by show dec22 _ _ _ _ _ _ _ = _; simp [dec22, withTM_mod])

theorem RoundTrip.vand (d a b : Reg) (t : ETy) (m : Mask) : RoundTrip.Statement (.vand d a b t m) :=
  of_fields rfl rfl rfl (fun _ => by show dec22 _ _ _ _ _ _ _ = _; simp [dec22, withTM_mod])

theorem RoundTrip.vor (d a b : Reg) (t : ETy) (m : Mask) : RoundTrip.Statement (.vor d a b t m) :=
  of_fields rfl rfl rfl (fun _ => by show dec22 _ _ _ _ _ _ _ = _; simp [dec22, withTM_mod])

theorem RoundTrip.vxor (d a b : Reg) (t : ETy) (m : Mask) : RoundTrip.Statement (.vxor d a b t m) :=
  of_fields rfl rfl rfl (fun _ => by show dec22 _ _ _ _ _ _ _ = _; simp [dec22, withTM_mod])

theorem RoundTrip.vandn (d a b : Reg) (t : ETy) (m : Mask) : RoundTrip.Statement (.vandn d a b t m) :=
  of_fields rfl rfl rfl (fun _ => by show dec22 _ _ _ _ _ _ _ = _; simp [dec22, withTM_mod])

theorem RoundTrip.vsll (d a b : Reg) (t : ETy) (m : Mask) : RoundTrip.Statement (.vsll d a b t m) :=
  of_fields rfl rfl rfl (fun _ => by show dec22 _ _ _ _ _ _ _ = _; simp [dec22, withTM_mod])

theorem RoundTrip.vsrl (d a b : Reg) (t : ETy) (m : Mask) : RoundTrip.Statement (.vsrl d a b t m) :=
  of_fields rfl rfl rfl (fun _ => by show dec22 _ _ _ _ _ _ _ = _; simp [dec22, withTM_mod])

theorem RoundTrip.vsra (d a b : Reg) (t : ETy) (m : Mask) : RoundTrip.Statement (.vsra d a b t m) :=
  of_fields rfl rfl rfl (fun _ => by show dec22 _ _ _ _ _ _ _ = _; simp [dec22, withTM_mod])

theorem RoundTrip.vabs (d a : Reg) (t : ETy) (m : Mask) : RoundTrip.Statement (.vabs d a t m) :=
  of_fields rfl rfl rfl (fun _ => by show dec22 _ _ _ _ _ _ _ = _; simp [dec22, withTM_mod])

theorem RoundTrip.vneg (d a : Reg) (t : ETy) (m : Mask) : RoundTrip.Statement (.vneg d a t m) :=
  of_fields rfl rfl rfl (fun _ => by show dec22 _ _ _ _ _ _ _ = _; simp [dec22, withTM_mod])

theorem RoundTrip.vadds (d a b : Reg) (t : ETy) (m : Mask) : RoundTrip.Statement (.vadds d a b t m) :=
  of_fields rfl rfl rfl (fun _ => by show dec22 _ _ _ _ _ _ _ = _; simp [dec22, withTM_mod])

theorem RoundTrip.vsubs (d a b : Reg) (t : ETy) (m : Mask) : RoundTrip.Statement (.vsubs d a b t m) :=
  of_fields rfl rfl rfl (fun _ => by show dec22 _ _ _ _ _ _ _ = _; simp [dec22, withTM_mod])

theorem RoundTrip.vavg (d a b : Reg) (t : ETy) (m : Mask) : RoundTrip.Statement (.vavg d a b t m) :=
  of_fields rfl rfl rfl (fun _ => by show dec22 _ _ _ _ _ _ _ = _; simp [dec22, withTM_mod])

theorem RoundTrip.vmac (d a b : Reg) (t : ETy) (m : Mask) : RoundTrip.Statement (.vmac d a b t m) :=
  of_fields rfl rfl rfl (fun _ => by show dec22 _ _ _ _ _ _ _ = _; simp [dec22, withTM_mod])

theorem RoundTrip.vfadd (d a b : Reg) (t : ETy) (m : Mask) : RoundTrip.Statement (.vfadd d a b t m) :=
  of_fields rfl rfl rfl (fun _ => by show dec23 _ _ _ _ _ _ _ = _; simp [dec23, withTM_mod])

theorem RoundTrip.vfsub (d a b : Reg) (t : ETy) (m : Mask) : RoundTrip.Statement (.vfsub d a b t m) :=
  of_fields rfl rfl rfl (fun _ => by show dec23 _ _ _ _ _ _ _ = _; simp [dec23, withTM_mod])

theorem RoundTrip.vfmul (d a b : Reg) (t : ETy) (m : Mask) : RoundTrip.Statement (.vfmul d a b t m) :=
  of_fields rfl rfl rfl (fun _ => by show dec23 _ _ _ _ _ _ _ = _; simp [dec23, withTM_mod])

theorem RoundTrip.vfdiv (d a b : Reg) (t : ETy) (m : Mask) : RoundTrip.Statement (.vfdiv d a b t m) :=
  of_fields rfl rfl rfl (fun _ => by show dec23 _ _ _ _ _ _ _ = _; simp [dec23, withTM_mod])

theorem RoundTrip.vfma (d a b c : Reg) (t : ETy) (m : Mask) : RoundTrip.Statement (.vfma d a b c t m) :=
  of_fields rfl rfl rfl (fun _ => by show dec23 _ _ _ _ _ _ _ = _; simp [dec23, withTM_mod])

theorem RoundTrip.vfms (d a b c : Reg) (t : ETy) (m : Mask) : RoundTrip.Statement (.vfms d a b c t m) :=
  of_fields rfl rfl rfl (fun _ => by show dec23 _ _ _ _ _ _ _ = _; simp [dec23, withTM_mod])

theorem RoundTrip.vfnma (d a b c : Reg) (t : ETy) (m : Mask) : RoundTrip.Statement (.vfnma d a b c t m) :=
  of_fields rfl rfl rfl (fun _ => by show dec23 _ _ _ _ _ _ _ = _; simp [dec23, withTM_mod])

theorem RoundTrip.vfmin (d a b : Reg) (t : ETy) (m : Mask) : RoundTrip.Statement (.vfmin d a b t m) :=
  of_fields rfl rfl rfl (fun _ => by show dec23 _ _ _ _ _ _ _ = _; simp [dec23, withTM_mod])

theorem RoundTrip.vfmax (d a b : Reg) (t : ETy) (m : Mask) : RoundTrip.Statement (.vfmax d a b t m) :=
  of_fields rfl rfl rfl (fun _ => by show dec23 _ _ _ _ _ _ _ = _; simp [dec23, withTM_mod])

theorem RoundTrip.vfabs (d a : Reg) (t : ETy) (m : Mask) : RoundTrip.Statement (.vfabs d a t m) :=
  of_fields rfl rfl rfl (fun _ => by show dec23 _ _ _ _ _ _ _ = _; simp [dec23, withTM_mod])

theorem RoundTrip.vfneg (d a : Reg) (t : ETy) (m : Mask) : RoundTrip.Statement (.vfneg d a t m) :=
  of_fields rfl rfl rfl (fun _ => by show dec23 _ _ _ _ _ _ _ = _; simp [dec23, withTM_mod])

theorem RoundTrip.vfsqrt (d a : Reg) (t : ETy) (m : Mask) : RoundTrip.Statement (.vfsqrt d a t m) :=
  of_fields rfl rfl rfl (fun _ => by show dec23 _ _ _ _ _ _ _ = _; simp [dec23, withTM_mod])

theorem RoundTrip.vcmpEq (d : BitVec 3) (a b : Reg) (t : ETy) (m : Mask) : RoundTrip.Statement (.vcmpEq d a b t m) :=
  of_fields rfl rfl rfl (fun _ => by show dec24 _ _ _ _ _ _ _ = _; simp [dec24, m3_mreg, mlo_mreg, withTM_mod])

theorem RoundTrip.vcmpNe (d : BitVec 3) (a b : Reg) (t : ETy) (m : Mask) : RoundTrip.Statement (.vcmpNe d a b t m) :=
  of_fields rfl rfl rfl (fun _ => by show dec24 _ _ _ _ _ _ _ = _; simp [dec24, m3_mreg, mlo_mreg, withTM_mod])

theorem RoundTrip.vcmpLt (d : BitVec 3) (a b : Reg) (t : ETy) (m : Mask) : RoundTrip.Statement (.vcmpLt d a b t m) :=
  of_fields rfl rfl rfl (fun _ => by show dec24 _ _ _ _ _ _ _ = _; simp [dec24, m3_mreg, mlo_mreg, withTM_mod])

theorem RoundTrip.vcmpLe (d : BitVec 3) (a b : Reg) (t : ETy) (m : Mask) : RoundTrip.Statement (.vcmpLe d a b t m) :=
  of_fields rfl rfl rfl (fun _ => by show dec24 _ _ _ _ _ _ _ = _; simp [dec24, m3_mreg, mlo_mreg, withTM_mod])

theorem RoundTrip.vcmpGt (d : BitVec 3) (a b : Reg) (t : ETy) (m : Mask) : RoundTrip.Statement (.vcmpGt d a b t m) :=
  of_fields rfl rfl rfl (fun _ => by show dec24 _ _ _ _ _ _ _ = _; simp [dec24, m3_mreg, mlo_mreg, withTM_mod])

theorem RoundTrip.vcmpGe (d : BitVec 3) (a b : Reg) (t : ETy) (m : Mask) : RoundTrip.Statement (.vcmpGe d a b t m) :=
  of_fields rfl rfl rfl (fun _ => by show dec24 _ _ _ _ _ _ _ = _; simp [dec24, m3_mreg, mlo_mreg, withTM_mod])

theorem RoundTrip.vcmpUnord (d : BitVec 3) (a b : Reg) (t : ETy) (m : Mask) : RoundTrip.Statement (.vcmpUnord d a b t m) :=
  of_fields rfl rfl rfl (fun _ => by show dec24 _ _ _ _ _ _ _ = _; simp [dec24, m3_mreg, mlo_mreg, withTM_mod])

theorem RoundTrip.vcvt (d a : Reg) (src dst : ETy) (m : Mask) : RoundTrip.Statement (.vcvt d a src dst m) :=
  of_fields rfl rfl rfl (fun _ => by show dec25 _ _ _ _ _ _ _ = _; simp [dec25, withSTM_mod])

theorem RoundTrip.vcvtSat (d a : Reg) (src dst : ETy) (m : Mask) : RoundTrip.Statement (.vcvtSat d a src dst m) :=
  of_fields rfl rfl rfl (fun _ => by show dec25 _ _ _ _ _ _ _ = _; simp [dec25, withSTM_mod])

theorem RoundTrip.vmxpack (d a : Reg) (src dst : ETy) : RoundTrip.Statement (.vmxpack d a src dst) :=
  of_fields rfl rfl rfl (fun _ => by show dec25 _ _ _ _ _ _ _ = _; simp [dec25, withSTMo_mod])

theorem RoundTrip.vmxunpk (d a : Reg) (src dst : ETy) : RoundTrip.Statement (.vmxunpk d a src dst) :=
  of_fields rfl rfl rfl (fun _ => by show dec25 _ _ _ _ _ _ _ = _; simp [dec25, withSTMo_mod])

theorem RoundTrip.vcvtsr (d a b : Reg) (src dst : ETy) (m : Mask) : RoundTrip.Statement (.vcvtsr d a b src dst m) :=
  of_fields rfl rfl rfl (fun _ => by show dec26 _ _ _ _ _ _ _ = _; simp [dec26, withSTM_mod])

theorem RoundTrip.vcvtsrSat (d a b : Reg) (src dst : ETy) (m : Mask) : RoundTrip.Statement (.vcvtsrSat d a b src dst m) :=
  of_fields rfl rfl rfl (fun _ => by show dec26 _ _ _ _ _ _ _ = _; simp [dec26, withSTM_mod])

theorem RoundTrip.vdot (d a b : Reg) (t : ETy) (m : Mask) : RoundTrip.Statement (.vdot d a b t m) :=
  of_fields rfl rfl rfl (fun _ => by show dec27 _ _ _ _ _ _ _ = _; simp [dec27, withTM_mod])

theorem RoundTrip.vdotf (d a b : Reg) (t : ETy) (m : Mask) : RoundTrip.Statement (.vdotf d a b t m) :=
  of_fields rfl rfl rfl (fun _ => by show dec27 _ _ _ _ _ _ _ = _; simp [dec27, withTM_mod])

theorem RoundTrip.vdotf8 (d a b : Reg) (t : ETy) (m : Mask) : RoundTrip.Statement (.vdotf8 d a b t m) :=
  of_fields rfl rfl rfl (fun _ => by show dec27 _ _ _ _ _ _ _ = _; simp [dec27, withTM_mod])

theorem RoundTrip.vrsum (d a : Reg) (t : ETy) (m : Option (BitVec 3)) : RoundTrip.Statement (.vrsum d a t m) :=
  of_fields rfl rfl rfl (fun _ => by show dec28 _ _ _ _ _ _ _ = _; simp [dec28, withTM_mod, modTM_z, mask_fst])

theorem RoundTrip.vrmin (d a : Reg) (t : ETy) (m : Option (BitVec 3)) : RoundTrip.Statement (.vrmin d a t m) :=
  of_fields rfl rfl rfl (fun _ => by show dec28 _ _ _ _ _ _ _ = _; simp [dec28, withTM_mod, modTM_z, mask_fst])

theorem RoundTrip.vrmax (d a : Reg) (t : ETy) (m : Option (BitVec 3)) : RoundTrip.Statement (.vrmax d a t m) :=
  of_fields rfl rfl rfl (fun _ => by show dec28 _ _ _ _ _ _ _ = _; simp [dec28, withTM_mod, modTM_z, mask_fst])

theorem RoundTrip.vrfsum (d a : Reg) (t : ETy) (m : Option (BitVec 3)) : RoundTrip.Statement (.vrfsum d a t m) :=
  of_fields rfl rfl rfl (fun _ => by show dec28 _ _ _ _ _ _ _ = _; simp [dec28, withTM_mod, modTM_z, mask_fst])

theorem RoundTrip.vrfmin (d a : Reg) (t : ETy) (m : Option (BitVec 3)) : RoundTrip.Statement (.vrfmin d a t m) :=
  of_fields rfl rfl rfl (fun _ => by show dec28 _ _ _ _ _ _ _ = _; simp [dec28, withTM_mod, modTM_z, mask_fst])

theorem RoundTrip.vrfmax (d a : Reg) (t : ETy) (m : Option (BitVec 3)) : RoundTrip.Statement (.vrfmax d a t m) :=
  of_fields rfl rfl rfl (fun _ => by show dec28 _ _ _ _ _ _ _ = _; simp [dec28, withTM_mod, modTM_z, mask_fst])

theorem RoundTrip.vmov (d a b : Reg) (t : ETy) (m : Mask) : RoundTrip.Statement (.vmov d a b t m) :=
  of_fields rfl rfl rfl (fun _ => by show dec29 _ _ _ _ _ _ _ = _; simp [dec29, withTM_mod])

theorem RoundTrip.vperm (d a b : Reg) (t : ETy) (m : Mask) : RoundTrip.Statement (.vperm d a b t m) :=
  of_fields rfl rfl rfl (fun _ => by show dec29 _ _ _ _ _ _ _ = _; simp [dec29, withTM_mod])

theorem RoundTrip.vbcast (d a : Reg) (t : ETy) (m : Mask) : RoundTrip.Statement (.vbcast d a t m) :=
  of_fields rfl rfl rfl (fun _ => by show dec29 _ _ _ _ _ _ _ = _; simp [dec29, withTM_mod])

theorem RoundTrip.vins (d a b : Reg) (t : ETy) : RoundTrip.Statement (.vins d a b t) :=
  of_fields rfl rfl rfl (fun _ => by show dec29 _ _ _ _ _ _ _ = _; simp [dec29, withTMo_mod])

theorem RoundTrip.vext (d a b : Reg) (t : ETy) : RoundTrip.Statement (.vext d a b t) :=
  of_fields rfl rfl rfl (fun _ => by show dec29 _ _ _ _ _ _ _ = _; simp [dec29, withTMo_mod])

theorem RoundTrip.vslide (d a b : Reg) (t : ETy) (m : Mask) : RoundTrip.Statement (.vslide d a b t m) :=
  of_fields rfl rfl rfl (fun _ => by show dec29 _ _ _ _ _ _ _ = _; simp [dec29, withTM_mod])

theorem RoundTrip.vzip (d a b : Reg) (t : ETy) (m : Mask) : RoundTrip.Statement (.vzip d a b t m) :=
  of_fields rfl rfl rfl (fun _ => by show dec29 _ _ _ _ _ _ _ = _; simp [dec29, withTM_mod])

theorem RoundTrip.vunzip (d a b : Reg) (t : ETy) (m : Mask) : RoundTrip.Statement (.vunzip d a b t m) :=
  of_fields rfl rfl rfl (fun _ => by show dec29 _ _ _ _ _ _ _ = _; simp [dec29, withTM_mod])

theorem RoundTrip.vexp2 (d a : Reg) (t : ETy) (m : Mask) : RoundTrip.Statement (.vexp2 d a t m) :=
  of_fields rfl rfl rfl (fun _ => by show dec2A _ _ _ _ _ _ _ = _; simp [dec2A, withTM_mod])

theorem RoundTrip.vlog2 (d a : Reg) (t : ETy) (m : Mask) : RoundTrip.Statement (.vlog2 d a t m) :=
  of_fields rfl rfl rfl (fun _ => by show dec2A _ _ _ _ _ _ _ = _; simp [dec2A, withTM_mod])

theorem RoundTrip.vrcp (d a : Reg) (t : ETy) (m : Mask) : RoundTrip.Statement (.vrcp d a t m) :=
  of_fields rfl rfl rfl (fun _ => by show dec2A _ _ _ _ _ _ _ = _; simp [dec2A, withTM_mod])

theorem RoundTrip.vrsqrt (d a : Reg) (t : ETy) (m : Mask) : RoundTrip.Statement (.vrsqrt d a t m) :=
  of_fields rfl rfl rfl (fun _ => by show dec2A _ _ _ _ _ _ _ = _; simp [dec2A, withTM_mod])

theorem RoundTrip.vsin (d a : Reg) (t : ETy) (m : Mask) : RoundTrip.Statement (.vsin d a t m) :=
  of_fields rfl rfl rfl (fun _ => by show dec2A _ _ _ _ _ _ _ = _; simp [dec2A, withTM_mod])

theorem RoundTrip.vcos (d a : Reg) (t : ETy) (m : Mask) : RoundTrip.Statement (.vcos d a t m) :=
  of_fields rfl rfl rfl (fun _ => by show dec2A _ _ _ _ _ _ _ = _; simp [dec2A, withTM_mod])

theorem RoundTrip.vtanh (d a : Reg) (t : ETy) (m : Mask) : RoundTrip.Statement (.vtanh d a t m) :=
  of_fields rfl rfl rfl (fun _ => by show dec2A _ _ _ _ _ _ _ = _; simp [dec2A, withTM_mod])

theorem RoundTrip.vsigm (d a : Reg) (t : ETy) (m : Mask) : RoundTrip.Statement (.vsigm d a t m) :=
  of_fields rfl rfl rfl (fun _ => by show dec2A _ _ _ _ _ _ _ = _; simp [dec2A, withTM_mod])

theorem RoundTrip.vard (d a b : Reg) (acc : Bool) : RoundTrip.Statement (.vard d a b acc) :=
  of_fields rfl rfl rfl (fun _ => by show dec2B _ _ _ _ _ _ _ = _; simp [dec2B, hi10_mk101, bit0_mk101])

theorem RoundTrip.vawr (d a b : Reg) (acc : Bool) : RoundTrip.Statement (.vawr d a b acc) :=
  of_fields rfl rfl rfl (fun _ => by show dec2B _ _ _ _ _ _ _ = _; simp [dec2B, hi10_mk101, bit0_mk101])

theorem RoundTrip.mand (d a b : BitVec 3) : RoundTrip.Statement (.mand d a b) :=
  of_fields rfl rfl rfl (fun _ => by show dec2C _ _ _ _ _ = _; simp [dec2C, m3_mreg, mlo_mreg])

theorem RoundTrip.mor (d a b : BitVec 3) : RoundTrip.Statement (.mor d a b) :=
  of_fields rfl rfl rfl (fun _ => by show dec2C _ _ _ _ _ = _; simp [dec2C, m3_mreg, mlo_mreg])

theorem RoundTrip.mxor (d a b : BitVec 3) : RoundTrip.Statement (.mxor d a b) :=
  of_fields rfl rfl rfl (fun _ => by show dec2C _ _ _ _ _ = _; simp [dec2C, m3_mreg, mlo_mreg])

theorem RoundTrip.mnot (d a : BitVec 3) : RoundTrip.Statement (.mnot d a) :=
  of_fields rfl rfl rfl (fun _ => by show dec2C _ _ _ _ _ = _; simp [dec2C, m3_mreg, mlo_mreg])

theorem RoundTrip.mandn (d a b : BitVec 3) : RoundTrip.Statement (.mandn d a b) :=
  of_fields rfl rfl rfl (fun _ => by show dec2C _ _ _ _ _ = _; simp [dec2C, m3_mreg, mlo_mreg])

theorem RoundTrip.mpopc (d : Reg) (a : BitVec 3) : RoundTrip.Statement (.mpopc d a) :=
  of_fields rfl rfl rfl (fun _ => by show dec2C _ _ _ _ _ = _; simp [dec2C, m3_mreg, mlo_mreg])

theorem RoundTrip.mfirst (d : Reg) (a : BitVec 3) : RoundTrip.Statement (.mfirst d a) :=
  of_fields rfl rfl rfl (fun _ => by show dec2C _ _ _ _ _ = _; simp [dec2C, m3_mreg, mlo_mreg])

theorem RoundTrip.mset (d : BitVec 3) (a : Reg) : RoundTrip.Statement (.mset d a) :=
  of_fields rfl rfl rfl (fun _ => by show dec2C _ _ _ _ _ = _; simp [dec2C, m3_mreg, mlo_mreg])

theorem RoundTrip.mget (d : Reg) (a : BitVec 3) : RoundTrip.Statement (.mget d a) :=
  of_fields rfl rfl rfl (fun _ => by show dec2C _ _ _ _ _ = _; simp [dec2C, m3_mreg, mlo_mreg])

theorem RoundTrip.sbind (v : BitVec 2) (a : Reg) : RoundTrip.Statement (.sbind v a) :=
  of_fields rfl rfl rfl (fun _ => by show dec2D _ _ _ _ _ = _; simp [dec2D, vhi_vreg, vlo_vreg])

theorem RoundTrip.sunbind (v : BitVec 2) (a : Reg) : RoundTrip.Statement (.sunbind v a) :=
  of_fields rfl rfl rfl (fun _ => by show dec2D _ _ _ _ _ = _; simp [dec2D, vhi_vreg, vlo_vreg])

theorem RoundTrip.mma (acc w : Bool) (d a : Reg) (wt : EWait) (sg : ESignal) : RoundTrip.Statement (.mma acc w d a wt sg) :=
  of_fields rfl rfl rfl (fun w => by show dec40 _ _ _ _ _ _ _ _ _ _ = _; simp [dec40, lsb_mk11, msb_mk11, (wait wt).1, (wait wt).2, (signal sg w).1, (signal sg w).2])

theorem RoundTrip.amzero (acc : Bool) (a : Reg) (wt : EWait) (sg : ESignal) : RoundTrip.Statement (.amzero acc a wt sg) :=
  of_fields rfl rfl rfl (fun w => by show dec41 _ _ _ _ _ _ _ _ _ _ = _; simp [dec41, lsb_mk11, msb_mk11, (wait wt).1, (wait wt).2, (signal sg w).1, (signal sg w).2])

theorem RoundTrip.amin (acc : Bool) (d a : Reg) (wt : EWait) (sg : ESignal) : RoundTrip.Statement (.amin acc d a wt sg) :=
  of_fields rfl rfl rfl (fun w => by show dec42 _ _ _ _ _ _ _ _ _ _ = _; simp [dec42, lsb_mk11, msb_mk11, (wait wt).1, (wait wt).2, (signal sg w).1, (signal sg w).2])

theorem RoundTrip.amout (acc : Bool) (d a : Reg) (wt : EWait) (sg : ESignal) : RoundTrip.Statement (.amout acc d a wt sg) :=
  of_fields rfl rfl rfl (fun w => by show dec43 _ _ _ _ _ _ _ _ _ _ = _; simp [dec43, lsb_mk11, msb_mk11, (wait wt).1, (wait wt).2, (signal sg w).1, (signal sg w).2])

theorem RoundTrip.amoutClr (acc : Bool) (d a : Reg) (wt : EWait) (sg : ESignal) : RoundTrip.Statement (.amoutClr acc d a wt sg) :=
  of_fields rfl rfl rfl (fun w => by show dec43 _ _ _ _ _ _ _ _ _ _ = _; simp [dec43, lsb_mk11, msb_mk11, (wait wt).1, (wait wt).2, (signal sg w).1, (signal sg w).2])

theorem RoundTrip.tcopy (d a b : Reg) (wt : EWait) (sg : ESignal) : RoundTrip.Statement (.tcopy d a b wt sg) :=
  of_fields rfl rfl rfl (fun w => by show dec44 _ _ _ _ _ _ _ _ _ _ = _; simp [dec44, (wait wt).1, (wait wt).2, (signal sg w).1, (signal sg w).2])

theorem RoundTrip.tcopyw (w : Bool) (d a b : Reg) (wt : EWait) (sg : ESignal) : RoundTrip.Statement (.tcopyw w d a b wt sg) :=
  of_fields rfl rfl rfl (fun w => by show dec45 _ _ _ _ _ _ _ _ _ _ = _; simp [dec45, lsb_mk11, msb_mk11, (wait wt).1, (wait wt).2, (signal sg w).1, (signal sg w).2])

theorem RoundTrip.tgath (d a b : Reg) (wt : EWait) (sg : ESignal) : RoundTrip.Statement (.tgath d a b wt sg) :=
  of_fields rfl rfl rfl (fun w => by show dec46 _ _ _ _ _ _ _ _ _ _ = _; simp [dec46, (wait wt).1, (wait wt).2, (signal sg w).1, (signal sg w).2])

theorem RoundTrip.tfill (d a b : Reg) (wt : EWait) (sg : ESignal) : RoundTrip.Statement (.tfill d a b wt sg) :=
  of_fields rfl rfl rfl (fun w => by show dec47 _ _ _ _ _ _ _ _ _ _ = _; simp [dec47, (wait wt).1, (wait wt).2, (signal sg w).1, (signal sg w).2])

theorem RoundTrip.cred (d a b : Reg) (wt : EWait) (sg : ESignal) : RoundTrip.Statement (.cred d a b wt sg) :=
  of_fields rfl rfl rfl (fun w => by show dec48 _ _ _ _ _ _ _ _ _ _ = _; simp [dec48, (wait wt).1, (wait wt).2, (signal sg w).1, (signal sg w).2])

theorem RoundTrip.cmcast (d a b : Reg) (wt : EWait) (sg : ESignal) : RoundTrip.Statement (.cmcast d a b wt sg) :=
  of_fields rfl rfl rfl (fun w => by show dec49 _ _ _ _ _ _ _ _ _ _ = _; simp [dec49, (wait wt).1, (wait wt).2, (signal sg w).1, (signal sg w).2])

theorem RoundTrip.estat (d a b : Reg) : RoundTrip.Statement (.estat d a b) :=
  of_fields rfl rfl rfl (fun _ => by show dec4A _ _ _ _ _ = _; simp [dec4A])

theorem RoundTrip.ecancel (a b : Reg) : RoundTrip.Statement (.ecancel a b) :=
  of_fields rfl rfl rfl (fun _ => by show dec4B _ _ _ _ _ = _; simp [dec4B])

theorem RoundTrip.eresume (n : BitVec 3) : RoundTrip.Statement (.eresume n) :=
  of_fields rfl rfl rfl (fun _ => by show dec4C _ _ _ _ = _; simp [dec4C, hi8_mk83, lo3m_mk83])

theorem RoundTrip.spawn (d a b : Reg) : RoundTrip.Statement (.spawn d a b) :=
  of_fields rfl rfl rfl (fun _ => by show dec50 _ _ _ _ _ = _; simp [dec50])

theorem RoundTrip.spawna (d a b : Reg) : RoundTrip.Statement (.spawna d a b) :=
  of_fields rfl rfl rfl (fun _ => by show dec50 _ _ _ _ _ = _; simp [dec50])

theorem RoundTrip.send (d a b : Reg) : RoundTrip.Statement (.send d a b) :=
  of_fields rfl rfl rfl (fun _ => by show dec50 _ _ _ _ _ = _; simp [dec50])

theorem RoundTrip.recv (d a : Reg) : RoundTrip.Statement (.recv d a) :=
  of_fields rfl rfl rfl (fun _ => by show dec51 _ _ _ _ = _; simp [dec51])

theorem RoundTrip.recvTry (d a : Reg) : RoundTrip.Statement (.recvTry d a) :=
  of_fields rfl rfl rfl (fun _ => by show dec51 _ _ _ _ = _; simp [dec51])

theorem RoundTrip.lqpush (d a b : Reg) : RoundTrip.Statement (.lqpush d a b) :=
  of_fields rfl rfl rfl (fun _ => by show dec52 _ _ _ _ _ = _; simp [dec52])

theorem RoundTrip.jdec (d a b : Reg) : RoundTrip.Statement (.jdec d a b) :=
  of_fields rfl rfl rfl (fun _ => by show dec53 _ _ _ _ _ = _; simp [dec53])

theorem RoundTrip.semadd (cube : Bool) (d a b : Reg) : RoundTrip.Statement (.semadd cube d a b) :=
  of_fields rfl rfl rfl (fun _ => by show dec55 _ _ _ _ _ = _; simp [dec55, lsb_mk11, msb_mk11])

theorem RoundTrip.semwait (cube : Bool) (d a b : Reg) : RoundTrip.Statement (.semwait cube d a b) :=
  of_fields rfl rfl rfl (fun _ => by show dec55 _ _ _ _ _ = _; simp [dec55, lsb_mk11, msb_mk11])

theorem RoundTrip.semtry (cube : Bool) (d a b : Reg) : RoundTrip.Statement (.semtry cube d a b) :=
  of_fields rfl rfl rfl (fun _ => by show dec55 _ _ _ _ _ = _; simp [dec55, lsb_mk11, msb_mk11])

theorem RoundTrip.semrd (cube : Bool) (d a b : Reg) : RoundTrip.Statement (.semrd cube d a b) :=
  of_fields rfl rfl rfl (fun _ => by show dec55 _ _ _ _ _ = _; simp [dec55, lsb_mk11, msb_mk11])

theorem RoundTrip.arrive (d : Reg) (g : BitVec 4) : RoundTrip.Statement (.arrive d g) :=
  of_fields rfl rfl rfl (fun _ => by show dec56 _ _ _ _ = _; simp [dec56, hi7_mk74, lo4_mk74])

theorem RoundTrip.waitb (d : Reg) (g : BitVec 4) : RoundTrip.Statement (.waitb d g) :=
  of_fields rfl rfl rfl (fun _ => by show dec56 _ _ _ _ = _; simp [dec56, hi7_mk74, lo4_mk74])

theorem RoundTrip.bmiss (d a : Reg) (g : BitVec 4) : RoundTrip.Statement (.bmiss d a g) :=
  of_fields rfl rfl rfl (fun _ => by show dec56 _ _ _ _ = _; simp [dec56, hi7_mk74, lo4_mk74])

theorem RoundTrip.bmemb (d a : Reg) (g : BitVec 4) : RoundTrip.Statement (.bmemb d a g) :=
  of_fields rfl rfl rfl (fun _ => by show dec56 _ _ _ _ = _; simp [dec56, hi7_mk74, lo4_mk74])

theorem RoundTrip.amoAdd (d a b : Reg) (w64 acq rel : Bool) (sc : Scope) : RoundTrip.Statement (.amoAdd d a b w64 acq rel sc) :=
  of_fields rfl rfl rfl (fun _ => by show dec57 _ _ _ _ _ _ _ = _; simp [dec57, (amo_fields _ _ _ _).1, (amo_fields _ _ _ _).2.1, (amo_fields _ _ _ _).2.2.1, (amo_fields _ _ _ _).2.2.2.1, (amo_fields _ _ _ _).2.2.2.2, (scope sc).1, (scope sc).2])

theorem RoundTrip.amoAnd (d a b : Reg) (w64 acq rel : Bool) (sc : Scope) : RoundTrip.Statement (.amoAnd d a b w64 acq rel sc) :=
  of_fields rfl rfl rfl (fun _ => by show dec57 _ _ _ _ _ _ _ = _; simp [dec57, (amo_fields _ _ _ _).1, (amo_fields _ _ _ _).2.1, (amo_fields _ _ _ _).2.2.1, (amo_fields _ _ _ _).2.2.2.1, (amo_fields _ _ _ _).2.2.2.2, (scope sc).1, (scope sc).2])

theorem RoundTrip.amoOr (d a b : Reg) (w64 acq rel : Bool) (sc : Scope) : RoundTrip.Statement (.amoOr d a b w64 acq rel sc) :=
  of_fields rfl rfl rfl (fun _ => by show dec57 _ _ _ _ _ _ _ = _; simp [dec57, (amo_fields _ _ _ _).1, (amo_fields _ _ _ _).2.1, (amo_fields _ _ _ _).2.2.1, (amo_fields _ _ _ _).2.2.2.1, (amo_fields _ _ _ _).2.2.2.2, (scope sc).1, (scope sc).2])

theorem RoundTrip.amoXor (d a b : Reg) (w64 acq rel : Bool) (sc : Scope) : RoundTrip.Statement (.amoXor d a b w64 acq rel sc) :=
  of_fields rfl rfl rfl (fun _ => by show dec57 _ _ _ _ _ _ _ = _; simp [dec57, (amo_fields _ _ _ _).1, (amo_fields _ _ _ _).2.1, (amo_fields _ _ _ _).2.2.1, (amo_fields _ _ _ _).2.2.2.1, (amo_fields _ _ _ _).2.2.2.2, (scope sc).1, (scope sc).2])

theorem RoundTrip.amoMin (d a b : Reg) (w64 acq rel : Bool) (sc : Scope) : RoundTrip.Statement (.amoMin d a b w64 acq rel sc) :=
  of_fields rfl rfl rfl (fun _ => by show dec57 _ _ _ _ _ _ _ = _; simp [dec57, (amo_fields _ _ _ _).1, (amo_fields _ _ _ _).2.1, (amo_fields _ _ _ _).2.2.1, (amo_fields _ _ _ _).2.2.2.1, (amo_fields _ _ _ _).2.2.2.2, (scope sc).1, (scope sc).2])

theorem RoundTrip.amoMax (d a b : Reg) (w64 acq rel : Bool) (sc : Scope) : RoundTrip.Statement (.amoMax d a b w64 acq rel sc) :=
  of_fields rfl rfl rfl (fun _ => by show dec57 _ _ _ _ _ _ _ = _; simp [dec57, (amo_fields _ _ _ _).1, (amo_fields _ _ _ _).2.1, (amo_fields _ _ _ _).2.2.1, (amo_fields _ _ _ _).2.2.2.1, (amo_fields _ _ _ _).2.2.2.2, (scope sc).1, (scope sc).2])

theorem RoundTrip.amoMinZ (d a b : Reg) (w64 acq rel : Bool) (sc : Scope) : RoundTrip.Statement (.amoMinZ d a b w64 acq rel sc) :=
  of_fields rfl rfl rfl (fun _ => by show dec57 _ _ _ _ _ _ _ = _; simp [dec57, (amo_fields _ _ _ _).1, (amo_fields _ _ _ _).2.1, (amo_fields _ _ _ _).2.2.1, (amo_fields _ _ _ _).2.2.2.1, (amo_fields _ _ _ _).2.2.2.2, (scope sc).1, (scope sc).2])

theorem RoundTrip.amoMaxZ (d a b : Reg) (w64 acq rel : Bool) (sc : Scope) : RoundTrip.Statement (.amoMaxZ d a b w64 acq rel sc) :=
  of_fields rfl rfl rfl (fun _ => by show dec57 _ _ _ _ _ _ _ = _; simp [dec57, (amo_fields _ _ _ _).1, (amo_fields _ _ _ _).2.1, (amo_fields _ _ _ _).2.2.1, (amo_fields _ _ _ _).2.2.2.1, (amo_fields _ _ _ _).2.2.2.2, (scope sc).1, (scope sc).2])

theorem RoundTrip.amoSwap (d a b : Reg) (w64 acq rel : Bool) (sc : Scope) : RoundTrip.Statement (.amoSwap d a b w64 acq rel sc) :=
  of_fields rfl rfl rfl (fun _ => by show dec57 _ _ _ _ _ _ _ = _; simp [dec57, (amo_fields _ _ _ _).1, (amo_fields _ _ _ _).2.1, (amo_fields _ _ _ _).2.2.1, (amo_fields _ _ _ _).2.2.2.1, (amo_fields _ _ _ _).2.2.2.2, (scope sc).1, (scope sc).2])

theorem RoundTrip.cas (d a b : Reg) (w64 acq rel : Bool) (sc : Scope) : RoundTrip.Statement (.cas d a b w64 acq rel sc) :=
  of_fields rfl rfl rfl (fun _ => by show dec58 _ _ _ _ _ _ _ = _; simp [dec58, (amo_fields _ _ _ _).1, (amo_fields _ _ _ _).2.1, (amo_fields _ _ _ _).2.2.1, (amo_fields _ _ _ _).2.2.2.1, (amo_fields _ _ _ _).2.2.2.2, (scope sc).1, (scope sc).2])

theorem RoundTrip.cas16 (d a b : Reg) (acq rel : Bool) (sc : Scope) : RoundTrip.Statement (.cas16 d a b acq rel sc) :=
  of_fields rfl rfl rfl (fun _ => by show dec58 _ _ _ _ _ _ _ = _; simp [dec58, (amo_fields _ _ _ _).1, (amo_fields _ _ _ _).2.1, (amo_fields _ _ _ _).2.2.1, (amo_fields _ _ _ _).2.2.2.1, (amo_fields _ _ _ _).2.2.2.2, (scope sc).1, (scope sc).2])

theorem RoundTrip.redAdd (a b : Reg) (w64 rel : Bool) (sc : Scope) : RoundTrip.Statement (.redAdd a b w64 rel sc) :=
  of_fields rfl rfl rfl (fun _ => by show dec59 _ _ _ _ _ _ _ = _; simp [dec59, (amo_fields _ _ _ _).1, (amo_fields _ _ _ _).2.1, (amo_fields _ _ _ _).2.2.1, (amo_fields _ _ _ _).2.2.2.1, (amo_fields _ _ _ _).2.2.2.2, (scope sc).1, (scope sc).2])

theorem RoundTrip.redAnd (a b : Reg) (w64 rel : Bool) (sc : Scope) : RoundTrip.Statement (.redAnd a b w64 rel sc) :=
  of_fields rfl rfl rfl (fun _ => by show dec59 _ _ _ _ _ _ _ = _; simp [dec59, (amo_fields _ _ _ _).1, (amo_fields _ _ _ _).2.1, (amo_fields _ _ _ _).2.2.1, (amo_fields _ _ _ _).2.2.2.1, (amo_fields _ _ _ _).2.2.2.2, (scope sc).1, (scope sc).2])

theorem RoundTrip.redOr (a b : Reg) (w64 rel : Bool) (sc : Scope) : RoundTrip.Statement (.redOr a b w64 rel sc) :=
  of_fields rfl rfl rfl (fun _ => by show dec59 _ _ _ _ _ _ _ = _; simp [dec59, (amo_fields _ _ _ _).1, (amo_fields _ _ _ _).2.1, (amo_fields _ _ _ _).2.2.1, (amo_fields _ _ _ _).2.2.2.1, (amo_fields _ _ _ _).2.2.2.2, (scope sc).1, (scope sc).2])

theorem RoundTrip.redXor (a b : Reg) (w64 rel : Bool) (sc : Scope) : RoundTrip.Statement (.redXor a b w64 rel sc) :=
  of_fields rfl rfl rfl (fun _ => by show dec59 _ _ _ _ _ _ _ = _; simp [dec59, (amo_fields _ _ _ _).1, (amo_fields _ _ _ _).2.1, (amo_fields _ _ _ _).2.2.1, (amo_fields _ _ _ _).2.2.2.1, (amo_fields _ _ _ _).2.2.2.2, (scope sc).1, (scope sc).2])

theorem RoundTrip.redMin (a b : Reg) (w64 rel : Bool) (sc : Scope) : RoundTrip.Statement (.redMin a b w64 rel sc) :=
  of_fields rfl rfl rfl (fun _ => by show dec59 _ _ _ _ _ _ _ = _; simp [dec59, (amo_fields _ _ _ _).1, (amo_fields _ _ _ _).2.1, (amo_fields _ _ _ _).2.2.1, (amo_fields _ _ _ _).2.2.2.1, (amo_fields _ _ _ _).2.2.2.2, (scope sc).1, (scope sc).2])

theorem RoundTrip.redMax (a b : Reg) (w64 rel : Bool) (sc : Scope) : RoundTrip.Statement (.redMax a b w64 rel sc) :=
  of_fields rfl rfl rfl (fun _ => by show dec59 _ _ _ _ _ _ _ = _; simp [dec59, (amo_fields _ _ _ _).1, (amo_fields _ _ _ _).2.1, (amo_fields _ _ _ _).2.2.1, (amo_fields _ _ _ _).2.2.2.1, (amo_fields _ _ _ _).2.2.2.2, (scope sc).1, (scope sc).2])

theorem RoundTrip.redMinZ (a b : Reg) (w64 rel : Bool) (sc : Scope) : RoundTrip.Statement (.redMinZ a b w64 rel sc) :=
  of_fields rfl rfl rfl (fun _ => by show dec59 _ _ _ _ _ _ _ = _; simp [dec59, (amo_fields _ _ _ _).1, (amo_fields _ _ _ _).2.1, (amo_fields _ _ _ _).2.2.1, (amo_fields _ _ _ _).2.2.2.1, (amo_fields _ _ _ _).2.2.2.2, (scope sc).1, (scope sc).2])

theorem RoundTrip.redMaxZ (a b : Reg) (w64 rel : Bool) (sc : Scope) : RoundTrip.Statement (.redMaxZ a b w64 rel sc) :=
  of_fields rfl rfl rfl (fun _ => by show dec59 _ _ _ _ _ _ _ = _; simp [dec59, (amo_fields _ _ _ _).1, (amo_fields _ _ _ _).2.1, (amo_fields _ _ _ _).2.2.1, (amo_fields _ _ _ _).2.2.2.1, (amo_fields _ _ _ _).2.2.2.2, (scope sc).1, (scope sc).2])

theorem RoundTrip.fence (sc : Scope) (ld st eng : Bool) : RoundTrip.Statement (.fence sc ld st eng) :=
  of_fields rfl rfl rfl (fun _ => by show dec5A _ _ _ _ = _; simp [dec5A, (fence_fields _ _ _ _).1, (fence_fields _ _ _ _).2.1, (fence_fields _ _ _ _).2.2.1, (fence_fields _ _ _ _).2.2.2.1, (fence_fields _ _ _ _).2.2.2.2, (scope sc).1, (scope sc).2])

theorem RoundTrip.trap (imm : BitVec 11) : RoundTrip.Statement (.trap imm) :=
  of_fields rfl rfl rfl (fun _ => by show dec60 _ _ _ _ = _; simp [dec60])

theorem RoundTrip.crrd (d : Reg) (n : BitVec 12) : RoundTrip.Statement (.crrd d n) :=
  of_fields rfl rfl rfl (fun _ => by show dec62 _ _ _ _ = _; simp [dec62, hi15_mk1512, lo12_mk1512])

theorem RoundTrip.crwr (a : Reg) (n : BitVec 12) : RoundTrip.Statement (.crwr a n) :=
  of_fields rfl rfl rfl (fun _ => by show dec62 _ _ _ _ = _; simp [dec62, hi15_mk1512, lo12_mk1512])

theorem RoundTrip.tlbinv (a b : Reg) : RoundTrip.Statement (.tlbinv a b) :=
  of_fields rfl rfl rfl (fun _ => by show dec63 _ _ _ _ _ = _; simp [dec63])

theorem RoundTrip.icinv (a b : Reg) : RoundTrip.Statement (.icinv a b) :=
  of_fields rfl rfl rfl (fun _ => by show dec64 _ _ _ _ _ = _; simp [dec64])

theorem RoundTrip.ctxsw (a : Reg) : RoundTrip.Statement (.ctxsw a) :=
  of_fields rfl rfl rfl (fun _ => by show dec65 _ _ _ _ _ = _; simp [dec65])

theorem RoundTrip.ctxflush (a : Reg) : RoundTrip.Statement (.ctxflush a) :=
  of_fields rfl rfl rfl (fun _ => by show dec65 _ _ _ _ _ = _; simp [dec65])

theorem RoundTrip.prset (a b : Reg) : RoundTrip.Statement (.prset a b) :=
  of_fields rfl rfl rfl (fun _ => by show dec66 _ _ _ _ _ = _; simp [dec66])

theorem RoundTrip.ptload (a b : Reg) : RoundTrip.Statement (.ptload a b) :=
  of_fields rfl rfl rfl (fun _ => by show dec67 _ _ _ _ _ = _; simp [dec67])

theorem RoundTrip.pdrain (a b : Reg) : RoundTrip.Statement (.pdrain a b) :=
  of_fields rfl rfl rfl (fun _ => by show dec68 _ _ _ _ _ = _; simp [dec68])

theorem RoundTrip.nop : RoundTrip.Statement (.nop) :=
  of_fields rfl rfl rfl (fun _ => by show dec01 _ _ = _; simp [dec01])

theorem RoundTrip.tend : RoundTrip.Statement (.tend) :=
  of_fields rfl rfl rfl (fun _ => by show dec54 _ _ = _; simp [dec54])

theorem RoundTrip.yield : RoundTrip.Statement (.yield) :=
  of_fields rfl rfl rfl (fun _ => by show dec54 _ _ = _; simp [dec54])

theorem RoundTrip.kret : RoundTrip.Statement (.kret) :=
  of_fields rfl rfl rfl (fun _ => by show dec61 _ _ = _; simp [dec61])

theorem RoundTrip.fret : RoundTrip.Statement (.fret) :=
  of_fields rfl rfl rfl (fun _ => by show dec61 _ _ = _; simp [dec61])

theorem RoundTrip.wfi : RoundTrip.Statement (.wfi) :=
  of_fields rfl rfl rfl (fun _ => by show dec61 _ _ = _; simp [dec61])

theorem RoundTrip.gets : RoundTrip.Statement .gets := of_none rfl

theorem RoundTrip.getx : RoundTrip.Statement .getx := of_none rfl

theorem RoundTrip.putr : RoundTrip.Statement .putr := of_none rfl

theorem RoundTrip.wbr : RoundTrip.Statement .wbr := of_none rfl

theorem RoundTrip.uread : RoundTrip.Statement .uread := of_none rfl

theorem RoundTrip.uwrite : RoundTrip.Statement .uwrite := of_none rfl

theorem RoundTrip.amor : RoundTrip.Statement .amor := of_none rfl

theorem RoundTrip.dropr : RoundTrip.Statement .dropr := of_none rfl

theorem RoundTrip.recall : RoundTrip.Statement .recall := of_none rfl

theorem RoundTrip.inv : RoundTrip.Statement .inv := of_none rfl

theorem RoundTrip.rcls : RoundTrip.Statement .rcls := of_none rfl

theorem RoundTrip.rcli : RoundTrip.Statement .rcli := of_none rfl

theorem RoundTrip.upd : RoundTrip.Statement .upd := of_none rfl

theorem RoundTrip.putg : RoundTrip.Statement .putg := of_none rfl

theorem RoundTrip.disc : RoundTrip.Statement .disc := of_none rfl

theorem RoundTrip.dats : RoundTrip.Statement .dats := of_none rfl

theorem RoundTrip.datx : RoundTrip.Statement .datx := of_none rfl

theorem RoundTrip.datu : RoundTrip.Statement .datu := of_none rfl

theorem RoundTrip.ack : RoundTrip.Statement .ack := of_none rfl

theorem RoundTrip.dath : RoundTrip.Statement .dath := of_none rfl

theorem RoundTrip.ackh : RoundTrip.Statement .ackh := of_none rfl

theorem RoundTrip.putn : RoundTrip.Statement .putn := of_none rfl

theorem RoundTrip.nack : RoundTrip.Statement .nack := of_none rfl

theorem RoundTrip.flt : RoundTrip.Statement .flt := of_none rfl

theorem RoundTrip.backoffExpire : RoundTrip.Statement .backoffExpire := of_none rfl

theorem RoundTrip.feWithdraw : RoundTrip.Statement .feWithdraw := of_none rfl

theorem RoundTrip.waitlimExpire : RoundTrip.Statement .waitlimExpire := of_none rfl

theorem RoundTrip.prsetSwitch : RoundTrip.Statement .prsetSwitch := of_none rfl

theorem RoundTrip.vectorOpComplete : RoundTrip.Statement .vectorOpComplete := of_none rfl

theorem RoundTrip.engineCommandStart : RoundTrip.Statement .engineCommandStart := of_none rfl

theorem RoundTrip.engineCommandComplete : RoundTrip.Statement .engineCommandComplete := of_none rfl

theorem RoundTrip.engineFault : RoundTrip.Statement .engineFault := of_none rfl

theorem RoundTrip.engineRecordWrite : RoundTrip.Statement .engineRecordWrite := of_none rfl

theorem RoundTrip.pendingMessageDeliver : RoundTrip.Statement .pendingMessageDeliver := of_none rfl

theorem RoundTrip.barrierPhaseComplete : RoundTrip.Statement .barrierPhaseComplete := of_none rfl

theorem RoundTrip.packetArrive : RoundTrip.Statement .packetArrive := of_none rfl

theorem RoundTrip.bounceReturn : RoundTrip.Statement .bounceReturn := of_none rfl

theorem RoundTrip.sendMessageArrive : RoundTrip.Statement .sendMessageArrive := of_none rfl

theorem RoundTrip.sendAnswer : RoundTrip.Statement .sendAnswer := of_none rfl

theorem RoundTrip.continuationReturned : RoundTrip.Statement .continuationReturned := of_none rfl

theorem RoundTrip.continuationResend : RoundTrip.Statement .continuationResend := of_none rfl

theorem RoundTrip.dispatch : RoundTrip.Statement .dispatch := of_none rfl

theorem RoundTrip.park : RoundTrip.Statement .park := of_none rfl

theorem RoundTrip.inboxAging : RoundTrip.Statement .inboxAging := of_none rfl

theorem RoundTrip.launchStart : RoundTrip.Statement .launchStart := of_none rfl

theorem RoundTrip.startBufferReoffer : RoundTrip.Statement .startBufferReoffer := of_none rfl

theorem RoundTrip.launchComplete : RoundTrip.Statement .launchComplete := of_none rfl

theorem RoundTrip.watchdogExpire : RoundTrip.Statement .watchdogExpire := of_none rfl

theorem RoundTrip.lqReset : RoundTrip.Statement .lqReset := of_none rfl

theorem RoundTrip.ktimerExpire : RoundTrip.Statement .ktimerExpire := of_none rfl

theorem RoundTrip.interruptTake : RoundTrip.Statement .interruptTake := of_none rfl

theorem RoundTrip.eventReoffer : RoundTrip.Statement .eventReoffer := of_none rfl

theorem RoundTrip.packetRoute : RoundTrip.Statement .packetRoute := of_none rfl

theorem RoundTrip.decombine : RoundTrip.Statement .decombine := of_none rfl

theorem RoundTrip.journalSplit : RoundTrip.Statement .journalSplit := of_none rfl

theorem RoundTrip.holdExpire : RoundTrip.Statement .holdExpire := of_none rfl

theorem RoundTrip.recordExpire : RoundTrip.Statement .recordExpire := of_none rfl

theorem RoundTrip.escapeTimeout : RoundTrip.Statement .escapeTimeout := of_none rfl

theorem RoundTrip.ageExpire : RoundTrip.Statement .ageExpire := of_none rfl

theorem RoundTrip.retryTimeout : RoundTrip.Statement .retryTimeout := of_none rfl

theorem RoundTrip.journalEntryExpire : RoundTrip.Statement .journalEntryExpire := of_none rfl

theorem RoundTrip.requestFilterExpire : RoundTrip.Statement .requestFilterExpire := of_none rfl

theorem RoundTrip.dispatcherHoldExpire : RoundTrip.Statement .dispatcherHoldExpire := of_none rfl

theorem RoundTrip.groupReceive : RoundTrip.Statement .groupReceive := of_none rfl

theorem RoundTrip.heartbeatSend : RoundTrip.Statement .heartbeatSend := of_none rfl

theorem RoundTrip.heartbeatMiss : RoundTrip.Statement .heartbeatMiss := of_none rfl

theorem RoundTrip.portEnable : RoundTrip.Statement .portEnable := of_none rfl

theorem RoundTrip.trainingComplete : RoundTrip.Statement .trainingComplete := of_none rfl

theorem RoundTrip.portDownNotice : RoundTrip.Statement .portDownNotice := of_none rfl

theorem RoundTrip.probe : RoundTrip.Statement .probe := of_none rfl

theorem RoundTrip.probeTimeout : RoundTrip.Statement .probeTimeout := of_none rfl

theorem RoundTrip.collectivePacketArrive : RoundTrip.Statement .collectivePacketArrive := of_none rfl

theorem RoundTrip.collectiveResultDeliver : RoundTrip.Statement .collectiveResultDeliver := of_none rfl

theorem RoundTrip.cmcastPacketArrive : RoundTrip.Statement .cmcastPacketArrive := of_none rfl

theorem RoundTrip.collectiveBufferFree : RoundTrip.Statement .collectiveBufferFree := of_none rfl

theorem RoundTrip.errorDetected : RoundTrip.Statement .errorDetected := of_none rfl

theorem RoundTrip.selfTestComplete : RoundTrip.Statement .selfTestComplete := of_none rfl

theorem RoundTrip.logicError : RoundTrip.Statement .logicError := of_none rfl

theorem RoundTrip.patrolScrub : RoundTrip.Statement .patrolScrub := of_none rfl

theorem RoundTrip.coreProbe : RoundTrip.Statement .coreProbe := of_none rfl

theorem RoundTrip.sparemapWrite : RoundTrip.Statement .sparemapWrite := of_none rfl

theorem RoundTrip.lminjWrite : RoundTrip.Statement .lminjWrite := of_none rfl

theorem RoundTrip.cmbinjWrite : RoundTrip.Statement .cmbinjWrite := of_none rfl

theorem RoundTrip.cmbstatClear : RoundTrip.Statement .cmbstatClear := of_none rfl

theorem RoundTrip.vbPause : RoundTrip.Statement .vbPause := of_none rfl

theorem RoundTrip.vbResume : RoundTrip.Statement .vbResume := of_none rfl

theorem RoundTrip.vbtestGo : RoundTrip.Statement .vbtestGo := of_none rfl

theorem RoundTrip.vbtestStepComplete : RoundTrip.Statement .vbtestStepComplete := of_none rfl

theorem RoundTrip.vbmuxWrite : RoundTrip.Statement .vbmuxWrite := of_none rfl

theorem RoundTrip.busRetire : RoundTrip.Statement .busRetire := of_none rfl

theorem RoundTrip.measExtend : RoundTrip.Statement .measExtend := of_none rfl

theorem RoundTrip.flashLogWrite : RoundTrip.Statement .flashLogWrite := of_none rfl

theorem RoundTrip.cubeReset : RoundTrip.Statement .cubeReset := of_none rfl

theorem RoundTrip.recoveryImageReceive : RoundTrip.Statement .recoveryImageReceive := of_none rfl

theorem RoundTrip.requestUpdate : RoundTrip.Statement .requestUpdate := of_none rfl

theorem RoundTrip.updateImageComplete : RoundTrip.Statement .updateImageComplete := of_none rfl

theorem RoundTrip.powerLoss : RoundTrip.Statement .powerLoss := of_none rfl

theorem RoundTrip.firmwareWriteRequest : RoundTrip.Statement .firmwareWriteRequest := of_none rfl

theorem RoundTrip.getVersion : RoundTrip.Statement .getVersion := of_none rfl

theorem RoundTrip.getCapabilities : RoundTrip.Statement .getCapabilities := of_none rfl

theorem RoundTrip.negotiateAlgorithms : RoundTrip.Statement .negotiateAlgorithms := of_none rfl

theorem RoundTrip.getDigests : RoundTrip.Statement .getDigests := of_none rfl

theorem RoundTrip.getCertificate : RoundTrip.Statement .getCertificate := of_none rfl

theorem RoundTrip.challenge : RoundTrip.Statement .challenge := of_none rfl

theorem RoundTrip.getMeasurements : RoundTrip.Statement .getMeasurements := of_none rfl

theorem RoundTrip.entdaa : RoundTrip.Statement .entdaa := of_none rfl

theorem RoundTrip.setdasa : RoundTrip.Statement .setdasa := of_none rfl

theorem RoundTrip.hostWindowRead : RoundTrip.Statement .hostWindowRead := of_none rfl

theorem RoundTrip.hostWindowWrite : RoundTrip.Statement .hostWindowWrite := of_none rfl

theorem RoundTrip.hostMailboxWrite : RoundTrip.Statement .hostMailboxWrite := of_none rfl

theorem RoundTrip.hostDoorbell : RoundTrip.Statement .hostDoorbell := of_none rfl

theorem RoundTrip.hostAtomicop : RoundTrip.Statement .hostAtomicop := of_none rfl

theorem RoundTrip.hdbRing : RoundTrip.Statement .hdbRing := of_none rfl

theorem RoundTrip.overtempFailure : RoundTrip.Statement .overtempFailure := of_none rfl

theorem RoundTrip.registerWrite : RoundTrip.Statement .registerWrite := of_none rfl

theorem RoundTrip.sequenceNumberReuse : RoundTrip.Statement .sequenceNumberReuse := of_none rfl

theorem RoundTrip.singleFault : RoundTrip.Statement .singleFault := of_none rfl

theorem RoundTrip.throttle : RoundTrip.Statement .throttle := of_none rfl

end Laws

end Sys2Proof
end

