-- ==== Sys2Proof/Safety.lean ====
section
/-! DEFINITION. What counts as a safe run: no step of it ends in a refusal, and it stops only where the
cube stays in reset (R374). -/

namespace Sys2Proof

open Sys2Proof.Machine

/-- A step of the state ends in a next state. -/
def Steps (s t : State) : Prop := step s = .next t

/-- `t` is reached from `s` by `n` steps. -/
def Reaches : Nat → State → State → Prop
  | 0, s, t => s = t
  | n + 1, s, t => ∃ u, Steps s u ∧ Reaches n u t

/-- A run of `n` steps from `s` never ends in a refusal, and stops only in reset. -/
def SafeFor (n : Nat) (s : State) : Prop :=
  ∀ k t, k ≤ n → Reaches k s t →
    (∃ u, step t = .next u) ∨ (step t = .fault .heldInReset ∧ t.mode = .inReset)

end Sys2Proof
end

