-- ==== Sys2Proof/Tests/Slice0.lean ====
section
/-! SUPPORT. The model's own tests: words decoded by hand from the tables of encodings, ill-formed instructions, single
steps on small states, and for every statement with hypotheses a state and operands that meet them. -/

set_option Elab.async false

namespace Sys2Proof.Tests

open Sys2Proof Sys2Proof.Machine Sys2Proof.Spec

/-! ## Decoding -/

/-- R11, R12, R23: control transfers, from the sub-map of OP 0x01 to 0x06. -/
theorem test_decode_control :
    decode 0x0080 0x000000000000 = .ok .nop ∧
    decode 0x8106 0x000000028C00 = .ok (.br ⟨5, 3⟩) ∧
    decode 0x8104 0x0000FFFFFD28 = .ok (.bltZ 8 9 ⟨-1, 31⟩) ∧
    decode 0x8181 0x0000FFFF1C00 = .ok (.jal 1 ⟨-2, 7⟩) ∧
    decode 0x4200 0x00000000FF81 = .ok (.jalr 0 1 (-4)) ∧
    decode 0x8301 0x00000000081D = .ok (.bsmore 1 ⟨0, 2⟩) := by decide +kernel

/-- R23: constants, immediates, arithmetic, fields and selects. -/
theorem test_decode_scalar :
    decode 0xC409 0xDEADBEEF0040 = .ok (.lihi 9 0xDEADBEEF) ∧
    decode 0x44E4 0x00000000FFE5 = .ok (.xori 4 5 (-1)) ∧
    decode 0x4547 0x0000000007E6 = .ok (.srai 7 6 63) ∧
    decode 0x8583 0x0000FFFFF382 = .ok (.addil 3 2 (-100)) ∧
    decode 0x860A 0x000000000800 = .ok (.adr 10 0x40) ∧
    decode 0x46A5 0x000000000126 = .ok (.sltiZ 5 6 9) ∧
    decode 0x480C 0x0000000029CD = .ok (.sra 12 13 14) ∧
    decode 0x4881 0x000000001462 = .ok (.rem 1 2 3) ∧
    decode 0x8904 0x00000A812CC5 = .ok (.ins 4 5 6 20 43) ∧
    decode 0x4988 0x000000001009 = .ok (.bswap 8 9) ∧
    decode 0x8A01 0x000000009062 = .ok (.selZ 1 2 3 4) ∧
    decode 0x8A01 0x000000028062 = .ok (.maxZ 1 2 3) := by decide +kernel

/-- R24: loads, stores, full-empty forms and prefetches. -/
theorem test_decode_memory :
    decode 0x4C23 0x00000000FFC4 = .ok (.ldS16 3 4 (-2)) ∧
    decode 0x4CC5 0x000000000186 = .ok (.ldZ32 5 6 12) ∧
    decode 0x4D07 0x000000000028 = .ok (.stS8 7 8 1) ∧
    decode 0x8D89 0x00000063016A = .ok (.ldx 9 10 11 3 .z32) ∧
    decode 0x8D80 0x0000004531CD = .ok (.stx 12 13 14 2 .b32) ∧
    decode 0x8E04 0x000000439805 = .ok (.ldAcq 4 5 .z64 (.rect 6)) ∧
    decode 0x8E00 0x0000008580E5 = .ok (.stRel 7 5 .b64 .system) ∧
    decode 0x8E80 0x0000FFE10062 = .ok (.stef 3 2 (-1)) ∧
    decode 0x8E86 0x000000228002 = .ok (.ferd 6 2 1) ∧
    decode 0x4F60 0x000000000014 = .ok (.drop 20 0) := by decide +kernel

/-- R25, R26: vector, mask and stream majors. -/
theorem test_decode_vector :
    decode 0x503C 0x00000000004A = .ok (.vst 28 10 2) ∧
    decode 0x9081 0x000036400062 = .ok (.vgath 1 2 3 .s32 (some (3, true))) ∧
    decode 0x9104 0x00001A8780C5 = .ok (.vadds 4 5 6 .z8 (some (5, false))) ∧
    decode 0x9181 0x000001421062 = .ok (.vfma 1 2 3 4 .f none) ∧
    decode 0x9207 0x000001630128 = .ok (.vcmpUnord 7 8 9 .d none) ∧
    decode 0x9283 0x00000180A804 = .ok (.vcvtSat 3 4 .f .e4 none) ∧
    decode 0x9282 0x000001C12404 = .ok (.vmxpack 2 4 .bf .e2) ∧
    decode 0x9303 0x0000010028A4 = .ok (.vcvtsr 3 4 5 .f .h none) ∧
    decode 0x9383 0x000001A100A4 = .ok (.vdotf8 3 4 5 .e5 none) ∧
    decode 0x9403 0x000012210004 = .ok (.vrmax 3 4 .s16 (some 1)) ∧
    decode 0x9483 0x000000C180A4 = .ok (.vins 3 4 5 .z32) ∧
    decode 0x9481 0x000000000062 = .ok (.vmov 1 2 3 .s8 none) ∧
    decode 0x9503 0x000001238004 = .ok (.vsigm 3 4 .bf none) ∧
    decode 0x9583 0x0000002080A4 = .ok (.vawr 3 4 5 true) ∧
    decode 0x5603 0x000000001807 = .ok (.mfirst 3 7) ∧
    decode 0x5602 0x0000000010A1 = .ok (.mandn 2 1 5) ∧
    decode 0x569E 0x00000000000C = .ok (.sbind 2 12) := by decide +kernel

/-- R13, R27: engine commands. -/
theorem test_decode_engine :
    decode 0xE069 0x21100AE4000A = .ok (.mma true true 9 10 (.atLeast 200 5) (some (2, 17))) ∧
    decode 0xE0A0 0x00000000000A = .ok (.amzero true 10 .none none) ∧
    decode 0xE203 0x1FF0130398A4 = .ok (.tcopy 3 4 5 (.atLeastReg 7 6 9) (some (1, 255))) ∧
    decode 0xE483 0xF010000000A4 = .ok (.cmcast 3 4 5 .none (some (15, 1))) ∧
    decode 0x6503 0x0000000000A4 = .ok (.estat 3 4 5) ∧
    decode 0x6600 0x0000000000C0 = .ok (.eresume 6) := by decide +kernel

/-- R28: tasks, semaphores, barriers and atomics. -/
theorem test_decode_tasks :
    decode 0x6803 0x0000000008A4 = .ok (.send 3 4 5) ∧
    decode 0x6903 0x0000000000A4 = .ok (.lqpush 3 4 5) ∧
    decode 0x6983 0x0000000000A4 = .ok (.jdec 3 4 5) ∧
    decode 0x2A01 0x000000000000 = .ok .yield ∧
    decode 0x6AA3 0x0000000004A4 = .ok (.semwait true 3 4 5) ∧
    decode 0x6B63 0x000000000164 = .ok (.bmemb 3 4 11) ∧
    decode 0xAB83 0x0000016400A4 = .ok (.amoSwap 3 4 5 true true false .core) ∧
    decode 0xAC04 0x000003A08106 = .ok (.cas16 4 6 8 false true .cube) ∧
    decode 0xAC80 0x00000283A4A4 = .ok (.redMaxZ 4 5 false true (.rect 9)) := by decide +kernel

/-- R28, R31: traps, control registers and the kernel's instructions. -/
theorem test_decode_system :
    decode 0x7000 0x00000000FFE0 = .ok (.trap 0x7FF) ∧
    decode 0x3080 0x000000000000 = .ok .kret ∧
    decode 0x3082 0x000000000000 = .ok .wfi ∧
    decode 0xB120 0x000000010167 = .ok (.crwr 7 0x80B) ∧
    decode 0xB106 0x000000008FE0 = .ok (.crrd 6 0x47F) ∧
    decode 0x7180 0x0000000000A4 = .ok (.tlbinv 4 5) ∧
    decode 0x7200 0x000000000004 = .ok (.icinv 4 0) ∧
    decode 0x7280 0x000000000404 = .ok (.ctxflush 4) ∧
    decode 0x7300 0x0000000000A4 = .ok (.prset 4 5) ∧
    decode 0x7380 0x0000000000A4 = .ok (.ptload 4 5) ∧
    decode 0x7400 0x0000000000A4 = .ok (.pdrain 4 5) := by decide +kernel

/-- R22, R29 step 3: an opcode that is not listed. -/
theorem test_decode_refuses_opcodes :
    decode 0x0000 0x000000000000 = .undefinedOp ∧
    decode 0x0380 0x000000000000 = .undefinedOp ∧
    decode 0x3F80 0x000000000000 = .undefinedOp ∧
    decode 0x4F80 0x000000000000 = .undefinedOp := by decide +kernel

/-- R29 step 4: the wrong TL, a head index 0, a reserved field, an undefined selector, a reserved type, a read-only register, and CAS16 with an odd register. -/
theorem test_decode_refuses_encodings :
    decode 0x4080 0x000000000000 = .badEncoding ∧
    decode 0x8106 0x000000028000 = .badEncoding ∧
    decode 0x8106 0x000000028C01 = .badEncoding ∧
    decode 0x8280 0x000000000400 = .badEncoding ∧
    decode 0x4803 0x000000004021 = .badEncoding ∧
    decode 0x9104 0x000001E000C5 = .badEncoding ∧
    decode 0x9104 0x0000020000C5 = .badEncoding ∧
    decode 0xB120 0x000000000047 = .badEncoding ∧
    decode 0xB106 0x0000000081C0 = .badEncoding ∧
    decode 0xAC05 0x000000208106 = .badEncoding ∧
    decode 0xE203 0x0010000000A4 = .badEncoding ∧
    decode 0xE203 0x0000018000A4 = .badEncoding ∧
    decode 0x8903 0x000007801005 = .badEncoding ∧
    decode 0x569B 0x000000000004 = .badEncoding ∧
    decode 0x8E04 0x000000A38005 = .badEncoding := by decide +kernel
/-! ## Well-formed instructions -/

/-- One ill-formed term for each check of WellFormed: it is refused, and a neighbour that keeps the rule is not. -/
theorem test_wellFormed_control :
    (Instr.br ⟨4, 0⟩).wellFormed = false ∧ (Instr.br ⟨4, 1⟩).wellFormed = true ∧
    (Instr.beq 1 2 ⟨0, 0⟩).wellFormed = false ∧ (Instr.jal 1 ⟨0, 0⟩).wellFormed = false ∧
    (Instr.loop 0 ⟨0, 1⟩).wellFormed = false ∧ (Instr.loop 3 ⟨0, 0⟩).wellFormed = false ∧
    (Instr.loop 3 ⟨0, 1⟩).wellFormed = true ∧ (Instr.bsdone 1 ⟨0, 0⟩).wellFormed = false ∧
    (Instr.ext 1 2 40 24).wellFormed = false ∧ (Instr.ext 1 2 40 23).wellFormed = true ∧
    (Instr.extZ 1 2 63 1).wellFormed = false ∧ (Instr.ins 1 2 3 1 63).wellFormed = false := by decide

theorem test_wellFormed_vector_types :
    (Instr.vgath 1 2 3 .e2 none).wellFormed = false ∧ (Instr.vadd 1 2 3 .h none).wellFormed = false ∧
    (Instr.vabs 1 2 .f none).wellFormed = false ∧ (Instr.vfadd 1 2 3 .s8 none).wellFormed = false ∧
    (Instr.vfma 1 2 3 4 .e4 none).wellFormed = false ∧ (Instr.vfsqrt 1 2 .z8 none).wellFormed = false ∧
    (Instr.vcmpLt 1 2 3 .e4 none).wellFormed = false ∧ (Instr.vcmpUnord 1 2 3 .s8 none).wellFormed = false ∧
    (Instr.vdot 1 2 3 .s16 none).wellFormed = false ∧ (Instr.vdotf 1 2 3 .f none).wellFormed = false ∧
    (Instr.vdotf8 1 2 3 .h none).wellFormed = false ∧ (Instr.vrsum 1 2 .f none).wellFormed = false ∧
    (Instr.vrfsum 1 2 .s8 none).wellFormed = false ∧ (Instr.vmov 1 2 0 .e2 none).wellFormed = false ∧
    (Instr.vperm 1 2 3 .e2 none).wellFormed = false ∧ (Instr.vins 1 2 3 .e2).wellFormed = false ∧
    (Instr.vexp2 1 2 .d none).wellFormed = false ∧ (Instr.vexp2 1 2 .f none).wellFormed = true := by decide

theorem test_wellFormed_conversions :
    (Instr.vcvt 1 2 .f .f none).wellFormed = false ∧ (Instr.vcvt 1 2 .f .e2 (some (1, true))).wellFormed = false ∧
    (Instr.vcvtSat 1 2 .f .e2 none).wellFormed = true ∧ (Instr.vcvtsr 1 2 3 .d .h none).wellFormed = false ∧
    (Instr.vcvtsrSat 1 2 3 .f .d none).wellFormed = false ∧ (Instr.vmxpack 1 4 .f .e4).wellFormed = false ∧
    (Instr.vmxpack 2 5 .f .e4).wellFormed = false ∧ (Instr.vmxpack 2 4 .f .e4).wellFormed = true ∧
    (Instr.vmxpack 2 4 .f .s16).wellFormed = false ∧ (Instr.vmxunpk 4 3 .e4 .f).wellFormed = false ∧
    (Instr.vmxunpk 2 2 .s8 .f).wellFormed = false ∧ (Instr.vmxunpk 4 2 .s8 .f).wellFormed = true := by decide

theorem test_wellFormed_engine_and_system :
    (Instr.mma false false 1 2 .none (some (0, 3))).wellFormed = false ∧
    (Instr.amzero false 1 .none (some (0, 0))).wellFormed = false ∧
    (Instr.amin false 1 2 .none (some (0, 0))).wellFormed = false ∧
    (Instr.tcopy 1 2 3 .none (some (0, 0))).wellFormed = false ∧
    (Instr.tcopyw false 1 2 3 .none (some (0, 0))).wellFormed = false ∧
    (Instr.tcopy 1 2 3 .none (some (15, 255))).wellFormed = true ∧
    (Instr.cas16 1 2 4 false false .core).wellFormed = false ∧ (Instr.cas16 2 3 5 false false .core).wellFormed = false ∧
    (Instr.cas16 2 3 4 false false (.rect 7)).wellFormed = false ∧
    (Instr.cas16 2 3 4 false false (.rect 6)).wellFormed = true ∧
    (Instr.crrd 1 6).wellFormed = false ∧ (Instr.crrd 1 0xC00).wellFormed = false ∧ (Instr.crrd 1 0x47F).wellFormed = true ∧
    (Instr.crwr 1 3).wellFormed = false ∧ (Instr.crwr 1 0x440).wellFormed = false ∧
    (Instr.crwr 1 0x80B).wellFormed = true := by decide

/-! ## Small states -/

/-- Context 0 in slot 0 of core 127 at firmware level, whose line holds one NOP; all its vector banks are resident. -/
def fw : State :=
  { State.reset.placeHead 0x0080 0 with cur := ⟨127, 0, 0⟩, agenda := [], i3cStatic := 0 }.updC (fun c =>
    { c with vbank := [.resident, .resident, .resident, .resident] })

/-- The same at level `l` (0 user, 1 kernel), with the firmware column moved to column 0, so that the window of the core's
cluster is open to it. -/
def low (l : Nat) : State := (fw.updSl (fun t => { t with level := l })).setCsr 0x40B0000 0

/-- Some registers have values. -/
def regs (s : State) (l : List (Reg × Word)) : State := l.foldl (fun t e => t.setX e.1 e.2) s

/-- Results that the accesses of the head being executed find. -/
def finds (s : State) (l : List AccRes) : State :=
  { s with memos := [{ owner := headOwner s.cur.core s.cur.ctx, results := l, resume := none }] }

/-- The head being executed has had the result of its first access. -/
def keeps (s : State) (r : AccRes) : State := { finds s [r] with accs := 1 }

/-- Region 0 is valid and lies on this cube (R219). -/
def mapped (s : State) : State := s.setCsr 0x3000 0x8008000000000040

/-- Partition 0 is valid and holds every ASID, every core and every cube semaphore; its kernel core is core 127 (R210). -/
def owned (s : State) : State :=
  ((s.setCsr 0x1000 0xA000007FFFFF0000).setCsr 0x1008 0x8000000400000000).setCsr 0x1038 0x10000

/-- The first address of the window, and the address of its last doubleword. -/
def lo : Word := 0x7F0000000000
def hi : Word := 0x7F000007FFF8

def okIs {α : Type} [DecidableEq α] (m : MRes α) (a : α) (s : State) : Bool :=
  match m with
  | .ok b t => decide (b = a) && decide (t = s)
  | .stop _ => false

/-- Equality of results is decided on their parts. -/
theorem okIs_eq {α : Type} [DecidableEq α] {m : MRes α} {a : α} {s : State} (h : okIs m a s = true) : m = .ok a s := by
  cases m <;> simp_all [okIs]

def okAt {α : Type} [DecidableEq α] (m : MRes α) (a : α) : Bool :=
  match m with
  | .ok b _ => decide (b = a)
  | .stop _ => false

/-- An operation gives a value, whatever state it leaves. -/
theorem okAt_ex {α : Type} [DecidableEq α] {m : MRes α} {a : α} (h : okAt m a = true) : ∃ t, m = .ok a t := by
  cases m <;> simp_all [okAt]

theorem ready_of {s : State} (h : s.c.hung = []) (b : s.c.bad = []) (src dst : List RRef) : Ready s src dst := by
  refine ⟨by simp [Ctx.hungOn, h], ?_⟩
  simp [Ctx.badAmong, b]

theorem two {α : Type} {p : α → Prop} {a b : α} (ha : p a) (hb : p b) : ∀ x ∈ [a, b], p x := by
  intro x h
  simp only [List.mem_cons, List.not_mem_nil, or_false] at h
  rcases h with rfl | rfl
  · exact ha
  · exact hb

/-! ## Witnesses of the scalar statements -/

theorem witness_Registers : (31 : Reg) ≠ 0 ∧ (1 : Reg) ≠ 0 := by decide

theorem witness_ProgramCounter :
    (∃ l b r, fw.c.line = some l ∧ l.bytes = b :: r) ∧ (1 : Reg) ≠ 0 ∧ Ready fw [.x 31] [.x 1] ∧
      (fw.getX 31).getLsbD 0 = false :=
  ⟨⟨_, _, _, rfl, rfl⟩, by decide +kernel⟩

theorem witness_ImmediateResults :
    Ready fw [] [.x 31] ∧ Ready fw [.x 31] [.x 31] ∧ Ready fw [.x 0] [.x 1] := by decide +kernel

theorem witness_RegisterArithmetic : Ready fw [.x 1, .x 31] [.x 31] := by decide +kernel

theorem witness_MultiplyAndDivide :
    let s := regs fw [(5, 0x8000000000000000), (6, 0xFFFFFFFFFFFFFFFF), (7, 1)]
    Ready s [.x 5, .x 6] [.x 5] ∧ s.getX 0 = 0 ∧ s.getX 6 ≠ 0 ∧
      (s.getX 5 = 0x8000000000000000 ∧ s.getX 6 = 0xFFFFFFFFFFFFFFFF) ∧
      ¬(s.getX 7 = 0x8000000000000000 ∧ s.getX 6 = 0xFFFFFFFFFFFFFFFF) := by decide +kernel

theorem witness_BitAndSelectFunctions :
    let s := regs fw [(5, 1)]
    (0 : BitVec 6).toNat + (63 : BitVec 6).toNat + 1 ≤ 64 ∧ (63 : BitVec 6).toNat + (0 : BitVec 6).toNat + 1 ≤ 64 ∧
      Ready s [.x 5] [.x 5] ∧ Ready s [.x 5, .x 0] [.x 5] ∧ s.getX 0 = 0 ∧ s.getX 5 ≠ 0 ∧
      Ready s [.x 5, .x 0, .x 5] [.x 31] := by decide +kernel

theorem witness_ScalarFrame :
    Instr.add 1 2 3 ∈ [Instr.add 1 2 3] ∧ (∃ t, exec (.add 1 2 3) fw = .next t) ∧
      Ready fw [.x 2, .x 3, .x 0, .x 1] [.x 1] :=
  ⟨.head _, ⟨_, rfl⟩, by decide +kernel⟩

theorem witness_ControlTransfers :
    let s := regs fw [(5, 0x1001), (6, 0x1000), (7, 1), (8, 2), (9, 0xFFFFFFFFFFFFFFFF)]
    Ready s [.x 5, .x 6] [] ∧ (⟨1, 0⟩ : BTarget).idx = 0 ∧ Ready s [] [.x 1] ∧
      (Ready s [.x 6] [.x 1] ∧ (s.getX 6).getLsbD 0 = false) ∧ (Ready s [.x 5] [.x 1] ∧ (s.getX 5).getLsbD 0 = true) ∧
      (Ready s [.x 10] [.x 10] ∧ s.getX 10 = 0) ∧ (Ready s [.x 7] [.x 7] ∧ s.getX 7 = 1) ∧
      (Ready s [.x 8] [.x 8] ∧ 1 < (s.getX 8).toNat) ∧ (Ready s [.x 9] [.x 9] ∧ 1 < (s.getX 9).toNat) := by
  decide +kernel

/-- The window's first and last addresses, at firmware level on core 127 and at user level. -/
def win : State := regs fw [(10, lo), (11, hi), (12, 3)]
def winUser : State := regs (low 0) [(10, lo), (11, hi), (12, 3)]

theorem witness_WindowAccesses :
    Ready win [.x 11, .x 12] [.x 1] ∧ win.c.storeFail = none ∧ Settled win ∧ Settled winUser ∧
    (∀ s ∈ [win, winUser], ∀ e ∈ [(0, 1), (0, 2), (0, 4), (0, 8), (0, 16), (0, 32)],
      WindowAccess s (s.getX 10 + e.1) e.2 ∧ GoodWords s (s.getX 10 + e.1) e.2) ∧
    (∀ s ∈ [win, winUser], ∀ e ∈ [((7 : Word), 1), (6, 2), (4, 4), (0, 8)],
      WindowAccess s (s.getX 11 + e.1) e.2 ∧ GoodWords s (s.getX 11 + e.1) e.2) ∧
    (WindowAccess win (win.getX 10 + (win.getX 12 <<< 3)) 8 ∧ GoodWords win (win.getX 10 + (win.getX 12 <<< 3)) 8) ∧
    (∃ t, exec (.stS64 12 11 0) win = .next t) ∧ ∀ c, Scope.core = .rect c → rectLegal (win.getX c) = true :=
  ⟨by decide +kernel, by decide +kernel, by decide +kernel, by decide +kernel, by decide +kernel, by decide +kernel,
    by decide +kernel, ⟨_, rfl⟩, by intro c h; cases h⟩

/-- A store of an earlier head of the context has not been answered. -/
def owing (s : State) : State := s.updC (fun c => { c with hung := [{ kind := .response, rk := .plain, tag := 7, d := 0 }] })

theorem witness_EarlierAccessesFirst :
    (let s := owing (owned (regs fw [(10, lo), (11, 127)]))
     s.c.ownPending = true ∧ (∀ l ∈ [[RRef.x 1, .x 10], [.x 1, .x 10, .x 11], [.x 10, .x 11], [.x 10], []], Ready s l [.x 1, .x 2]) ∧
       s.farWaits = false ∧ 1 ≤ s.level ∧ rectLegal (s.getX 11) = true ∧ (s.partOfSem (wbits (s.getX 10) 7 0)).isSome = true ∧
       s.partOfSem (wbits (s.getX 10) 7 0) = s.partOfAsid s.c.asid) ∧
    (∀ s : State, ∀ c, Scope.core = .rect c → rectLegal (s.getX c) = true) ∧
    (let s := owing (regs (low 0) [(10, 127), (11, lo)])
     let u := keeps s (.data 0)
     s.image64 s.headWho (s.getX 11) = .ok (.data 0, List.replicate 8 0) u ∧ u.c.ownPending = true ∧ Ready s [.x 10, .x 11] [.x 1] ∧
       u.peerAllows (gcidCube (wbits (u.getX 10) 27 0)) (u.partOfAsid u.c.asid) u.level = true ∧
       (u.core u.cur.core).bounce.length < 4) :=
  ⟨by decide +kernel, (by intro s c h; cases h), okIs_eq (by decide +kernel), by decide +kernel⟩

/-- A line of cube 0. -/
def home (la : Nat) : Home := { cube := 0, mirror := none, la := la }

/-- The result of a translation that gives an address of cube 0's DRAM. -/
def placed (gpa : Nat) : AccRes := .place gpa 0 (some (home gpa)) ⟨0, gpa / 16384, 0, 0⟩

/-- A register holds an address of DRAM in region 0, at which the accesses of the head find the results given. -/
def asked (l : List AccRes) : State := finds (mapped (regs fw [(10, 0x1000)])) (placed 0x1000 :: l)

theorem witness_AccessOutcomes :
    -- LoadOutcomes: data, and the causes of steps 1 and 2
    (Ready win [.x 10] [.x 1] ∧ win.loadAt win.headWho { kind := .load, control := true } (win.getX 10 + 0) 8 8
      (.load .s64) 1 = .ok (.data 0) win) ∧
    (fw.loadAt fw.headWho { kind := .load, control := true } (fw.getX 5 + 1) 8 8 (.load .s64) 1 = .ok (.fail 0x04) fw) ∧
    (let s := regs fw [(5, 0x8000000000000000)]
     s.loadAt s.headWho { kind := .load, control := false } (s.getX 5 + 0) 1 1 (.load .s8) 1 = .ok (.fail 0x05) s) ∧
    -- MisalignedAccesses
    ((fw.getX 5 + 1).toNat % 2 ≠ 0 ∧ (fw.getX 5 + 2).toNat % 4 ≠ 0 ∧ (fw.getX 5 + 4).toNat % 8 ≠ 0 ∧
      (let s := regs fw [(5, 1)]; (s.getX 5 + 8 * (0 : BitVec 11).signExtend 64).toNat % 8 ≠ 0 ∧ s.c.storeFail = none ∧
        Ready s [.x 5] [.x 1] ∧ Ready s [.x 6, .x 5] []) ∧
      (let s := regs fw [(5, 1)]
       (∀ n ∈ [2, 4, 8, 16], (s.getX 5).toNat % n ≠ 0 ∧ (s.getX 5 + (s.getX 0 <<< 3)).toNat % n ≠ 0) ∧ Settled s ∧
         Ready s [.x 5, .x 0] [.x 1] ∧ Ready s (.x 5 :: scopeReads .core) [.x 1] ∧
         Ready s (.x 2 :: .x 3 :: .x 5 :: .x 6 :: .x 7 :: scopeReads .core) [.x 2, .x 3])) ∧
    -- WindowRefusesTheseForms
    (∀ s ∈ [win, winUser], inWindow (s.getX 10 + 8 * (0 : BitVec 11).signExtend 64) = true ∧
      (s.getX 10 + 8 * (0 : BitVec 11).signExtend 64).toNat % 8 = 0 ∧ Ready s [.x 10] [.x 1] ∧ Ready s [.x 1, .x 10] [] ∧
      Settled s ∧ s.c.storeFail = none ∧ WindowAccess s (s.getX 11 + (7 : BitVec 11).signExtend 64) 1) :=
  ⟨⟨by decide +kernel, okIs_eq (by decide +kernel)⟩, okIs_eq (by decide +kernel), okIs_eq (by decide +kernel),
    by decide +kernel, by decide +kernel⟩

/-- StoreOutcomes: a store or an atomic that is performed, one whose checks fail, and one whose line is refused after them. -/
theorem witness_StoreOutcomes :
    (∀ s ∈ [win, asked [.fail 0x12], regs fw [(10, 0x8000000000000000)]],
      Settled s ∧ s.c.storeFail = none ∧ Ready s (.x 2 :: .x 3 :: .x 10 :: .x 4 :: .x 5 :: scopeReads .core) [.x 2, .x 3]) ∧
    (∀ rk ∈ [RKind.store, .plain],
      let form : Form := { kind := .store, control := true }
      (∃ u, win.storeAt win.headWho form (win.getX 10) 8 (leBytes 8 3) rk = .ok (.window 31 0, .data 0) u) ∧
      (∃ u, (asked [.fail 0x12]).storeAt (asked [.fail 0x12]).headWho form 0x1000 8 (leBytes 8 0) rk =
        .ok (.line (home 0x1000) 0x1000 0, .fail 0x12) u) ∧
      ∃ u, fw.storeAt fw.headWho form 0x8000000000000000 8 (leBytes 8 0) rk = .ok (.fail 0x06, .fail 0x06) u) ∧
    (let form : Form := { kind := .atomic, device := false }
     (∀ n ∈ [8, 16], win.resolve win.headWho form (win.getX 10) n n = .ok (.window 31 0) win) ∧
     (∀ op ∈ [(AtomOp.amo .add true 3, RKind.atomic true), (.amo .swap true 3, .atomic true), (.amo .add true 3, .store),
         (.cas true 0 3, .atomic true), (.cas16 0 3, .cas16)],
       ∃ w, win.atomTarget win.headWho (.window 31 0) op.1 op.2 1 (win.getX 10) = .ok (.data 0) w) ∧
     fw.resolve fw.headWho form 0x8000000000000000 8 8 = .ok (.fail 0x06) fw ∧
     (∀ n ∈ [8, 16], (asked [.fail 0x12]).resolve (asked [.fail 0x12]).headWho form 0x1000 n n =
       .ok (.line (home 0x1000) 0x1000 0) { asked [.fail 0x12] with accs := 1 }) ∧
     ∀ op rk d, ({ asked [.fail 0x12] with accs := 1 } : State).atomTarget (asked [.fail 0x12]).headWho
       (.line (home 0x1000) 0x1000 0) op rk d 0x1000 = .ok (.fail 0x12) { asked [.fail 0x12] with accs := 2 }) ∧
    (∀ y, Target.line (home 0x1000) 0x1000 0 ≠ .fail y) ∧ (∀ y, Target.window 31 0 ≠ .fail y) ∧
    ∀ s : State, ∀ c, Scope.core = .rect c → rectLegal (s.getX c) = true := by
  refine ⟨by decide +kernel, two ⟨okAt_ex (by decide +kernel), okAt_ex (by decide +kernel), okAt_ex (by decide +kernel)⟩
    ⟨okAt_ex (by decide +kernel), okAt_ex (by decide +kernel), okAt_ex (by decide +kernel)⟩,
    ⟨two (okIs_eq (by decide +kernel)) (okIs_eq (by decide +kernel)), ?_, okIs_eq (by decide +kernel),
      two (okIs_eq (by decide +kernel)) (okIs_eq (by decide +kernel)), fun _ _ _ => rfl⟩,
    (by intro y h; cases h), (by intro y h; cases h), (by intro s c h; cases h)⟩
  intro op h
  simp only [List.mem_cons, List.not_mem_nil, or_false] at h
  rcases h with rfl | rfl | rfl | rfl | rfl <;> exact okAt_ex (by decide +kernel)

/-- RecordedStoreFailures: a store whose line is refused after the checks, with and without an earlier failure. -/
theorem witness_RecordedStoreFailures :
    (∀ old ∈ [none, some ((1 : Word), 2)],
      let s := (asked [.fail 0x12]).updC (fun c => { c with storeFail := old })
      Ready s [.x 1, .x 10, .x 0] [] ∧ Settled s ∧ ∃ u, s.storeAt s.headWho { kind := .store, control := true } (s.getX 10 + 0) 8
        (leBytes 8 (s.getX 1).toNat) .store = .ok (.line (home 0x1000) 0x1000 0, .fail 0x12) u ∧ u.c.storeFail = old) ∧
    (∀ x, Target.line (home 0x1000) 0x1000 0 ≠ .fail x) ∧
    (let s := fw.updC (fun c => { c with storeFail := some (0, 0x12) })
     s.c.storeFail = some (s.getX 10 + 0, 0x12) ∧ Settled s ∧ Ready s [.x 1, .x 10] [] ∧ Ready s [] []) := by
  refine ⟨two ⟨ready_of (by decide +kernel) (by decide +kernel) _ _, by decide +kernel, ?_⟩
      ⟨ready_of (by decide +kernel) (by decide +kernel) _ _, by decide +kernel, ?_⟩,
    (by intro x h; cases h), by decide +kernel⟩
  · exact ⟨{ ((asked [.fail 0x12]).updC (fun c => { c with storeFail := none })) with accs := 2 },
      okIs_eq (by decide +kernel), by decide +kernel⟩
  · exact ⟨{ ((asked [.fail 0x12]).updC (fun c => { c with storeFail := some (1, 2) })) with accs := 2 },
      okIs_eq (by decide +kernel), by decide +kernel⟩

/-- DropOutcomes. -/
theorem witness_DropOutcomes :
    ∀ r ∈ [AccRes.data 0, .fail 0x12],
      let s := asked [r]
      let u := { s with accs := 1 }
      Ready s [.x 10] [] ∧
      s.resolve s.headWho { kind := .store, device := false, window := false } (s.getX 10 + 0) 1 1 =
        .ok (.line (home 0x1000) 0x1000 0) u ∧
      ∀ nums go, u.request u.headWho .plain 0 (s.getX 10 + 0) nums go = .ok r { u with accs := 2 } := by
  exact two
    ⟨ready_of (by decide +kernel) (by decide +kernel) _ _, okIs_eq (by decide +kernel), fun _ _ => rfl⟩
    ⟨ready_of (by decide +kernel) (by decide +kernel) _ _, okIs_eq (by decide +kernel), fun _ _ => rfl⟩

/-- FullEmptyCompletion and FullEmptyAtHome: each form where it goes on, and where it waits. -/
theorem witness_FullEmptyAccesses :
    (let s := asked [.data 7]
     let u := { s with accs := 1 }
     Ready s [.x 10] [.x 1] ∧ Ready s [.x 1, .x 10] [] ∧ Settled s ∧ s.c.storeFail = none ∧
      (∀ k ∈ [AKind.load, .store], s.resolve s.headWho { kind := k, device := false, window := false, fe := true }
        (s.getX 10 + 8 * (0 : BitVec 11).signExtend 64) 8 8 = .ok (.line (home 0x1000) 0x1000 0) u) ∧
      ∀ op rk d, u.atomTarget u.headWho (.line (home 0x1000) 0x1000 0) op rk d 0x1000 = .ok (.data 7) { u with accs := 2 }) ∧
    (let m : Msg := { la := 8 }
     let e : State := { State.reset with fe := [(1, false)] }
     let w : State := State.reset.updTile (homeTile 8) (fun t => { t with fe := [⟨8, { m with src := ⟨1, 0, 0⟩ }, false⟩, ⟨8, m, false⟩] })
     (0 : Nat) < 2 ^ 64 ∧ (2 ^ 64 - 1 : Nat) < 2 ^ 64 ∧ e.feBit m.la = false ∧ State.reset.feBit m.la = true ∧
      (w.tile (homeTile m.la)).fe.any (fun x => x.msg.src = m.src) = true ∧
      (e.tile (homeTile m.la)).fe.any (fun x => x.msg.src = m.src) = false ∧
      ((w.tile (homeTile m.la)).fe.takeWhile (fun x => x.msg.src != m.src)).any (fun x => x.la / 8 = m.la / 8) = true ∧
      ((e.tile (homeTile m.la)).fe.takeWhile (fun x => x.msg.src != m.src)).any (fun x => x.la / 8 = m.la / 8) = false ∧
      (e.tile (homeTile m.la)).fe.length < 1024 ∧
      (w.tile (homeTile m.la)).fe.length < 1024) := by
  exact ⟨⟨by decide +kernel, by decide +kernel, by decide +kernel, by decide +kernel,
    two (okIs_eq (by decide +kernel)) (okIs_eq (by decide +kernel)), fun _ _ _ => rfl⟩, by decide +kernel⟩

/-! ## Witnesses of the statements about atomics, semaphores, tasks and the system -/

theorem witness_Atomics :
    (∀ s ∈ [win, winUser], (Ready s (.x 10 :: .x 12 :: scopeReads .core) [.x 1] ∧ WindowAccess s (s.getX 10) 8 ∧
      GoodWords s (s.getX 10) 8) ∧ (WindowAccess s (s.getX 11 + 4) 4 ∧ GoodWords s (s.getX 11 + 4) 4) ∧
      (Ready s (.x 2 :: .x 3 :: .x 10 :: .x 4 :: .x 5 :: scopeReads .core) [.x 2, .x 3] ∧ WindowAccess s (s.getX 10) 16 ∧
        GoodWords s (s.getX 10) 16)) ∧
    (∀ c, Scope.core = .rect c → rectLegal (win.getX c) = true) ∧
    Settled win ∧ Settled winUser ∧ ({ op := some (.amo .add true 5) } : Msg).op = some (.amo .add true 5) ∧
    ({ op := some (.cas true 0 5) } : Msg).op = some (.cas true 0 5) ∧ ({ op := some (.cas16 0 5) } : Msg).op = some (.cas16 0 5) ∧
    ({ op := some (.amo .minZ false 5) } : Msg).op = some (.amo .minZ false 5) :=
  ⟨by decide +kernel, (by intro c h; cases h), by decide +kernel, by decide +kernel, rfl, rfl, rfl, rfl⟩

/-- Semaphore 7 of the cluster and cube semaphore 7 stand at 5. -/
def sems (s : State) : State :=
  (((s.setSem (.cluster s.clu) 7 5).setSem .cube 7 5).setX 10 7).setX 11 6

theorem witness_Semaphores :
    -- ClusterSemaphores: the threshold is reached, or not; the sum stays in range, and falls below 0
    (let s := sems fw
     let S := s.sem (.cluster s.clu) ((s.getX 10).extractLsb' 0 8).toNat
     Ready s [.x 10, .x 11] [.x 1] ∧ (s.getX 0).toNat ≤ S.toNat ∧ (s.getX 10 - 2).toNat ≤ S.toNat ∧
       S.toNat < (s.getX 11).toNat ∧ 0 ≤ (s.getX 11).toInt ∧ S.toNat + (s.getX 11).toNat < 2 ^ 64) ∧
    (let s := regs (sems (owned fw)) [(12, 0xFFFFFFFFFFFFFFFB), (13, 0xFFFFFFFFFFFFFFFA), (14, 0x7FFFFFFFFFFFFFFF)]
     let n := ((s.getX 10).extractLsb' 0 8).toNat
     Settled s ∧ (∀ sp ∈ [Space.cluster s.clu, .cube], Ready s [.x 10, .x 13] [.x 1] ∧ (s.getX 12).toInt < 0 ∧
       0 ≤ (s.sem sp n).toNat + (s.getX 12).toInt ∧ (s.sem sp n).toNat + (s.getX 13).toInt < 0 ∧
       (s.sem sp n).toNat < (s.getX 14).toNat ∧ 0 ≤ (s.getX 14).toInt ∧
       2 ^ 64 ≤ ((s.setSem sp n (BitVec.allOnes 64)).sem sp n).toNat + (s.getX 14).toNat)) ∧
    -- CubeSemaphores: a semaphore of no partition, one of another partition, and one of the context's own
    (let s := sems fw
     s.partOfSem ((s.getX 10).extractLsb' 0 8).toNat = none) ∧
    (let s := owned (sems fw)
     let n := ((s.getX 10).extractLsb' 0 8).toNat
     Ready s [.x 10, .x 11] [.x 1] ∧ s.partOfSem n = s.partOfAsid s.c.asid ∧ (s.partOfSem n).isSome = true ∧
       (s.getX 0).toNat ≤ (s.sem .cube n).toNat ∧ 0 ≤ (s.getX 11).toInt ∧
       (s.sem .cube n).toNat + (s.getX 11).toNat < 2 ^ 64) ∧
    (let s := (owned (sems fw)).setCsr 0x1000 0xA000007F00020001
     s.partOfSem ((s.getX 10).extractLsb' 0 8).toNat ≠ s.partOfAsid s.c.asid) ∧
    (3 : Nat) ≠ 7 := by decide +kernel

/-- A command of context 0 in the cluster of core 127. -/
def cmd (op : Nat) (st : CmdSt) : Cmd :=
  { num := 1, op := op, head := 0, tail := 0, vd := 0, va := 0, vb := 0, vc := 0, sel0 := false, sel1 := false,
    wait := none, sig := none, core := 127, slot := 0, ctx := 0, uid := 0, asid := 0, level := 2, st := st }

/-- The barrier group 2 of core 127. -/
def grouped (s : State) (m : Word) (ar j : Bool) : State := s.setBarrier 127 2 { m := m, ar := ar, ph := true, j := j }

theorem witness_FencesAndBarriers :
    (let s := fw
     let e := fw.updCluster fw.clu (fun k => { k with cmds := [cmd 0x44 .queued] })
     Ready s (scopeReads (.rect 5)) [] ∧ Settled s ∧ Settled e ∧ s.c.storeFail = none ∧ rectLegal (s.getX 5) = true ∧ s.c.hung = [] ∧
       s.engBusy s.cur.core s.cur.ctx = false ∧ e.c.hung = [] ∧ e.engBusy e.cur.core e.cur.ctx = true) ∧
    (Ready fw [] [.x 1] ∧ (fw.barrier fw.cur.core 2).ar = false ∧ (fw.barrier fw.cur.core 2).j = false) ∧
    (let s := grouped fw 127 true true
     (s.barrier s.cur.core 2).ar = true ∧ (s.barrier s.cur.core 2).j = true ∧ s.phaseDone 127 2 = true ∧
       (rectCores (s.barrier 127 2).m).Nodup ∧ ∀ e ∈ s.ctxs, e.2.wait = none) ∧
    (let s := grouped fw 127 false true
     (s.barrier s.cur.core 2).ar = false ∧ (s.barrier s.cur.core 2).j = true ∧ s.phaseDone 127 2 = false) ∧
    (let s := regs fw [(5, 127), (6, 0x800000000), (7, 126), (8, 0xC00000000), (9, 0x400000000)]
     Ready s [.x 5] [.x 1] ∧ rectLegal (s.getX 8) = false ∧ (rectLegal (s.getX 6) = true ∧ rectKind (s.getX 6) = 2) ∧
       (rectLegal (s.getX 7) = true ∧ rectHas (s.getX 7) s.cur.core = false) ∧
       (rectLegal (s.getX 5) = true ∧ (s.barrier s.cur.core 2).ar = false ∧ rectKind (s.getX 5) ≠ 2 ∧
         rectHas (s.getX 5) s.cur.core = true) ∧
       (rectLegal (s.getX 9) = true ∧ rectKind (s.getX 9) ≠ 2 ∧ rectHas (s.getX 9) s.cur.core = true)) := by
  decide +kernel

/-- A message for ASID 0. -/
def note (completion : Bool) : Message :=
  { words := [1, 2, 3, 4, 5, 6, 7, 8], asid := 0, sender := 130, completion := completion }

/-- Eight words of zeros, read as an image from the window. -/
def blank : List Word := List.replicate 8 0

theorem witness_SpawnsAndMessages :
    -- SpawnLeaves and SendLeaves: the image lies in the window
    (let s := regs (low 0) [(10, 127), (11, lo)]
     let u := keeps s (.data 0)
     Ready s [.x 10, .x 11] [.x 1] ∧ s.image64 s.headWho (s.getX 11) = .ok (.data 0, blank) u ∧ u.level < 2 ∧ Settled u ∧
       (u.peerAllows (gcidCube (wbits (u.getX 10) 27 0)) (u.partOfAsid u.c.asid) u.level = true ∧
         (u.core u.cur.core).bounce.length < 4 ∧
         (u.core u.cur.core).seqLog.all (fun e => e.1 != (u.core u.cur.core).spawnSeq || decide (e.2 + 2400000 ≤ u.now)) = true ∧
         gcidCube (wbits (u.getX 10) 27 0) = u.self)) ∧
    -- SpawnaFollowsTheData
    (let s := finds (mapped (regs fw [(10, 0x1000), (11, lo)])) [.data 0, placed 0x1000]
     let u := { s with accs := 1 }
     let w := { s with accs := 2 }
     s.image64 s.headWho (s.getX 11) = .ok (.data 0, blank) u ∧
       u.resolve u.headWho { kind := .load, device := false, window := false } (s.getX 10) 1 1 =
         .ok (.line (home 0x1000) 0x1000 0) w ∧ w.peerAllows 0 (w.partOfAsid w.c.asid) w.level = true) ∧
    -- SendAnswered
    (let w : Wait := { kind := .send, d := 5, thr := 9, next := 0x1004 }
     let s : State := { fw.updC (fun c => { c with wait := some w }) with arg := { x := 127, y := 0, z := 1, val := 9 } }
     (s.ctx s.arg.x s.arg.y).wait = some w ∧ w.kind = .send ∧ w.got = none ∧ w.thr = s.arg.val.toNat ∧
       ((fw.ctx 127 0).wait = none ∧ (fw.ctx 127 0).hung = [])) ∧
    -- Receiving
    (let s := fw.updCore 127 (fun c => { c with messages := [note false] })
     (∀ u ∈ [regs fw [(10, lo)], regs s [(10, hi - 56)]], Ready u [.x 10] [.x 1] ∧ (u.getX 10).toNat % 64 = 0 ∧
       WindowAccess u (u.getX 10) 64) ∧
     (regs fw [(10, 1)]).getX 10 % 64 ≠ 0 ∧
     (fw.core fw.cur.core).messages.find? (fun x => decide (x.asid = fw.c.asid)) = none ∧
     (s.core s.cur.core).messages.find? (fun x => decide (x.asid = s.c.asid)) = some (note false)) :=
  ⟨⟨by decide +kernel, okIs_eq (by decide +kernel), by decide +kernel⟩,
    ⟨okIs_eq (by decide +kernel), okIs_eq (by decide +kernel), by decide +kernel⟩, by decide +kernel, by decide +kernel⟩

/-- Queue 0 is enabled and belongs to partition 0. -/
def queued (s : State) : State := (owned s).setCsr 0x2000 0x80203F0000000000

theorem witness_LaunchesAndJoins :
    (let s := queued (regs (low 0) [(10, 0), (11, lo)])
     let w := wd blank 1
     Ready s [.x 10, .x 11] [.x 1] ∧ s.image64 s.headWho (s.getX 11) = .ok (.data 0, blank) (keeps s (.data 0)) ∧
       (Settled (keeps s (.data 0)) ∧ s.lqEnabled 0 = true ∧ s.partOfAsid s.c.asid = some (s.lqPart 0) ∧ rectLegal w = true ∧ rectKind w ≤ 1 ∧
         rectCube w = s.self ∧ s.rectInPart w (s.lqPart 0) = true ∧ (s.lq 0).descs.length < s.lqDepth 0 + 1)) ∧
    (let s := asked [.data 3]
     let u := { s with accs := 1 }
     Ready s [.x 10, .x 11] [.x 1] ∧
       s.resolve s.headWho { kind := .atomic, device := false, window := false } (s.getX 10) 64 64 =
         .ok (.line (home 0x1000) 0x1000 0) u ∧
       u.atomTarget u.headWho (.line (home 0x1000) 0x1000 0) (.jdec 1 0) .flag 1 (s.getX 10) = .ok (.data 3) { u with accs := 2 }) ∧
    (let s := State.reset.updTile 0 (fun t => { t with ranges := [(0, ⟨5, 0, 13⟩)] })
     let m : Msg := {}
     s.rangeSlot (homeTile m.la) m.gpa = 5 ∧ leNat ((s.homeLine m.la).take 8) < 1 ∧ 0 ≤ leNat ((s.homeLine m.la).take 8)) :=
  ⟨⟨by decide +kernel, okIs_eq (by decide +kernel), by decide +kernel⟩,
    ⟨by decide +kernel, okIs_eq (by decide +kernel), rfl⟩, by decide +kernel⟩

/-- A launch that has started two tasks. -/
def desc : LDesc := { words := blank, id := 0, asid := 0, ptbase := 0, level := 0, core := 127, uid := 9 }
def run (total : Nat) : LRun := { desc := desc, total := total, done := 0, failed := false, completing := false, left := [] }

/-- A task packet for ASID 0. -/
def packet (kind : PKind) : Packet := { words := [0x2000, 0, 0, 0, 0, 0, 0, 0], dest := 127, sender := 127, kind := kind, ctx := 0 }
def entry (prio : Nat) : Entry := { p := packet .spawn, prio := prio, at_ := 0, ord := 0 }

theorem witness_TasksEndAndYield :
    fw.c.storeFail = none ∧ Settled fw ∧
    (∀ n ∈ [1, 2], let s := fw.updLq 3 (fun q => { q with runs := [run n] })
      (s.lq 3).runs = [run n] ∧ (run n).failed = false ∧ (run n).completing = false) ∧
    ((run 2).done + 1 < (run 2).total ∧ (run 1).done + 1 = (run 1).total) ∧
    (let s := fw.updCore 127 (fun c => { c with inbox := [entry 0] })
     fw.workWaits fw.cur.core fw.c.prio = false ∧ s.workWaits s.cur.core s.c.prio = true) ∧
    -- WaitForInterrupt
    (1 ≤ fw.level ∧ ¬(∃ k, k < 5 ∧ fw.pendingSource fw.cur.core k = true ∧ fw.sl.k.status.getLsbD (8 + k) = false) ∧
      ¬(∃ e ∈ (fw.core fw.cur.core).inbox, e.prio = 0) ∧ fw.c.wait = none) ∧
    (let w : Wait := { kind := .wfi, got := some (.data 0) }
     (fw.updC (fun c => { c with wait := some w })).c.wait = some w ∧ w.kind = .wfi ∧ w.got.isSome = true) ∧
    (let s := fw.updCore 127 (fun c => { c with inbox := [entry 0], events := [event23 1 0] })
     (4 < 5 ∧ s.pendingSource s.cur.core 4 = true ∧ s.sl.k.status.getLsbD (8 + 4) = false) ∧
       (entry 0 ∈ (s.core s.cur.core).inbox ∧ (entry 0).prio = 0)) := by decide +kernel

/-- The slot's status registers have their IE bits set. -/
def enabled (s : State) : State := s.updSl (fun t => { t with k := { t.k with status := 1 }, f := { t.f with status := 1 } })

theorem witness_TrapsAndReturns :
    (255 < 256) ∧
    (∀ s ∈ [low 0, enabled (low 1), low 1, enabled fw, fw], s.sl.ctx = some s.cur.ctx ∧ s.c.hung = [] ∧ s.sl.doomed = false ∧
      s.sl.csw = none) ∧
    (low 0).level = 0 ∧ ((enabled (low 1)).level = 1 ∧ (enabled (low 1)).sl.k.status.getLsbD 0 = true) ∧
    ((low 1).level = 1 ∧ (low 1).sl.k.status.getLsbD 0 = false) ∧
    ((enabled fw).level = 2 ∧ (enabled fw).sl.f.status.getLsbD 0 = true) ∧ (fw.level = 2 ∧ fw.sl.f.status.getLsbD 0 = false) ∧
    1 ≤ (low 1).level ∧ 2 ≤ fw.level := by decide +kernel

theorem witness_PrivilegedInstructions :
    (low 0).level < Instr.kret.level ∧ (low 0).level < (Instr.crrd 1 0x400).level ∧ (low 1).level < Instr.fret.level ∧
      (low 1).level < (Instr.crwr 1 0x80B).level := by decide +kernel

theorem witness_ControlRegisters :
    (∀ s ∈ [low 0, low 1, fw], Ready s [] [.x 1] ∧ Ready s [.x 5] [] ∧ s.c.inflight = none ∧ s.c.pob = false ∧ s.c.rest = [] ∧ s.getX 5 = 0) ∧
      (Ready win [.x 12] [] ∧ win.getX 12 ≠ 0) ∧
      1 ≤ (low 1).level ∧ 2 ≤ fw.level ∧ (fw.sl.f.status.extractLsb' 2 2).toNat ≠ 3 := by decide +kernel

/-- Another context of core 127, with id 3. -/
def other (st : CState) (s : State) : State :=
  s.setCtx 127 3 { st := st, sbank := .resident, vbank := [.unclaimed, .unclaimed, .unclaimed, .unclaimed] }

theorem witness_CachesAndContexts :
    -- CacheInvalidation
    (let s := finds (mapped (regs fw [(10, 0x1000), (11, 0xC00000000), (12, 127), (13, 0x800000000)])) [placed 0x1000]
     let leaf : TlbEntry := ⟨s.c.asid, 0, 0, 0x8F⟩
     let o := (other .running s).updCore 127 (fun c => { c with tlb := [leaf] })
     let t := { o with memos := { owner := headOwner 127 3, results := [placed 0x1000], resume := none } :: o.memos }
     let own := some (ctxKey 127 0)
     let two := (s.setCsr 0x4050300 0x4000080000000000).setCsr 0x4100008 1
     let w : Wait := { kind := .far, thr := 4 }
     let run : FarRun := { id := 4, core := 127, ctx := 0, uid := s.c.uid, asid := 0, level := 2, op := .tlb 0 0,
                           cubes := [1], left := [] }
     let f := fun (r : FarRun) => ({ s.updC (fun c => { c with wait := some w }) with farRuns := [r] } : State)
     Ready s [.x 10, .x 11] [] ∧ Settled s ∧ Settled o ∧ Settled t ∧ Settled two ∧ 1 ≤ s.level ∧ rectLegal (s.getX 11) = false ∧ rectLegal (s.getX 12) = true ∧
       (11 : Reg) ≠ 0 ∧ s.farWaits = false ∧ s.tlbInUse (s.getX 10) (s.getX 12) own = false ∧
       s.farScope (s.getX 12 &&& 0xFFFFFFFFF) = [] ∧ o.tlbInUse (o.getX 10) (o.getX 12) own = false ∧
       Ready t [.x 10, .x 11] [] ∧ t.farWaits = false ∧ t.tlbInUse (t.getX 10) (t.getX 12) own = true ∧
       t.fetchUnderWay 0x1000 (t.icinvHas 0 (t.getX 12)) own = true ∧
       s.fetchUnderWay 0x1000 (s.icinvHas 0 (s.getX 12)) own = false ∧
       o.fetchUnderWay 0x1000 (o.icinvHas 12 (o.getX 12)) own = false ∧
       Ready two [.x 10, .x 13] [] ∧ rectLegal (two.getX 13) = true ∧ two.farScope (two.getX 13 &&& 0xFFFFFFFFF) = [1] ∧ two.numberFree (.core two.cur.core) = true ∧
       two.tlbInUse (two.getX 10) (two.getX 13) own = false ∧
       (∀ r ∈ [run, { run with dead := some 1 }, { run with left := [1] }],
         Ready (f r) [.x 10, .x 12] [] ∧ (f r).farWaits = true ∧ 1 ≤ (f r).level ∧ (f r).farOf 127 0 = some r)) ∧
    (let s := finds (mapped (regs fw [(10, 0x1000)])) [placed 0x1000]
     s.resolve s.headWho { kind := .fetch, window := false } (s.getX 10) 1 1 =
       .ok (.line (home 0x1000) 0x1000 0) { s with accs := 1 }) ∧
    -- ContextNamed and ContextFlushed
    (let s := regs fw [(10, 3), (11, 256)]
     Ready s [.x 10] [] ∧ wbits (s.getX 10) 23 0 < 256 ∧ 256 ≤ wbits (s.getX 11) 23 0 ∧
       (s.ctx 127 3).st = .free ∧ ((other .parked s).ctx 127 3).st = .parked ∧ ((other .readyParked s).ctx 127 3).st = .readyParked ∧
       ((other .running s).ctx 127 3).st = .running ∧ ((other .blocked s).ctx 127 3).st = .blocked ∧
       ((other .stopped s).ctx 127 3).st = .stopped ∧ (∀ k, k < 4 → ((other .parked s).slot 127 k).csw = none)) ∧
    (let s0 := owned (mapped (other .parked (regs fw [(10, 3)])))
     let s := { s0 with memos := [{ owner := s0.areaWho.owner, results := List.replicate 41 (.data 0), resume := none }] }
     let area := 4096 * (256 * 127 + 3)
     let u := { s with accs := 40 }
     let w := { s with accs := 41 }
     s.areaOf (s.ctx 127 3).asid 127 3 = some area ∧ (s.stripeFor area (s.ctx 127 3).asid 1).isSome = true ∧
       s.memo (headOwner s.cur.core s.cur.ctx) ≠ [] ∧ s.inFlight ⟨127, 7, 3⟩ = false ∧
       s.writeParts area (s.ctx 127 3).flushParts = .ok true u ∧
       u.writeLines area (leBytes 8 (imageTag false (s.ctx 127 3).asid 3).toNat ++ List.replicate 56 0) 1 = .ok true w ∧
       w.cur = s.cur ∧ (3 : Nat) ≠ s.cur.ctx) :=
  ⟨by decide +kernel, okIs_eq (by decide +kernel), by decide +kernel,
    by decide +kernel, by decide +kernel, by decide +kernel, by decide +kernel, okIs_eq (by decide +kernel),
    okIs_eq (by decide +kernel), by decide +kernel⟩

/-- The smallest image that the rules of R250 admit: no entry is defined, and state 0 of both tables is. -/
def undef4 : List Byte := [0x00, 0x00, 0x00, 0xC0]
def imageHead : List Byte :=
  [0x01, 0x00, 0x56, 0x4C, 0x00, 0x01, 0x00, 0x00] ++ List.replicate 56 0 ++ [0x0B] ++ List.replicate 31 0 ++ [0x03] ++
    List.replicate 31 0
def smallImage : List Byte := imageHead ++ (List.replicate 1024 undef4).flatten

theorem undef_at (n j : Nat) (h : j < n) : leNat ((((List.replicate n undef4).flatten).drop (4 * j)).take 4) = undefMarker := by
  induction j generalizing n with
  | zero =>
    cases n with
    | zero => omega
    | succ n => simp [List.replicate_succ, undef4, leNat, undefMarker]
  | succ j ih =>
    cases n with
    | zero => omega
    | succ n =>
      have := ih n (by omega)
      simpa [List.replicate_succ, undef4, Nat.mul_add] using this

theorem entry_undef (agent : Bool) (st ev : Nat) (hs : st < 16) (he : ev < 32) :
    imgEntry smallImage agent st ev = undefMarker := by
  have hl : imageHead.length = 128 := by decide +kernel
  have hd : ∀ j, smallImage.drop (128 + 4 * j) = ((List.replicate 1024 undef4).flatten).drop (4 * j) := by
    intro j
    have := List.drop_length_add_append (i := 4 * j) (l₁ := imageHead) (l₂ := (List.replicate 1024 undef4).flatten)
    rwa [hl] at this
  cases agent
  · have := undef_at 1024 (32 * st + ev) (by omega)
    rw [← hd] at this
    rw [← this]; unfold imgEntry le32; congr 3; simp; omega
  · have := undef_at 1024 (512 + 32 * st + ev) (by omega)
    rw [← hd] at this
    rw [← this]; unfold imgEntry le32; congr 3; simp; omega

theorem attr_small : ∀ agent : Bool, ∀ st, st < 16 →
    imgAttr smallImage agent st = if st = 0 then (if agent then 3 else 0x0B) else 0 := by decide +kernel

theorem rules_small (agent : Bool) (st ev : Nat) (hs : st < 16) (he : ev < 32) : brokenRules smallImage agent st ev = [] := by
  have e := entry_undef agent st ev hs he
  have a := attr_small agent st hs
  have m : imgMask smallImage agent = 0 := by cases agent <;> decide +kernel
  unfold brokenRules
  by_cases h : st = 0
  · subst h
    cases agent <;> simp [e, a, m, attrDef, attrStable, attrExcl, attrOwnv, attrShv, attrData, attrWr, bitsOf]
  · cases agent <;> simp [e, a, m, h, attrDef, attrStable, attrExcl, attrShv, attrWr, bitsOf]

theorem smallImage_is_legal : checkImage smallImage 5 = none := by
  have h : headerBad smallImage 5 = false := by decide +kernel
  unfold checkImage
  simp only [h, Bool.false_eq_true, if_false, List.findSome?_eq_none_iff]
  intro agent _ st hs ev he
  simp [rules_small agent st ev (List.mem_range.mp hs) (List.mem_range.mp he)]

/-- 66 lines of 64 bytes, as the results of a head that reads them at GPA 0x1000. -/
def lines (vs : List Nat) : List AccRes := vs.flatMap (fun v => [placed 0x1000, .data v])

/-- The lines of the image as numbers: its header, its attributes, and lines of undefined entries. -/
def imageLines : List Nat :=
  [leNat (imageHead.take 64), leNat (imageHead.drop 64)] ++ List.replicate 64 (leNat (List.replicate 16 undef4).flatten)

def readIs (m : MRes (Got × List Byte × Word)) (bs : List Byte) (va : Word) (s : State) : Bool :=
  match m with
  | .ok (g, img, a) t => decide (g = .data 0) && (img == bs) && decide (a = va) && decide (t = s)
  | .stop _ => false

theorem readIs_eq {m : MRes (Got × List Byte × Word)} {bs : List Byte} {va : Word} {s : State}
    (h : readIs m bs va s = true) : m = .ok (.data 0, bs, va) s := by
  cases m with
  | ok a t =>
    obtain ⟨g, i, v⟩ := a
    simp_all [readIs]
  | stop t => simp [readIs] at h

theorem witness_RangesAndPartitions :
    -- ProtocolLoaded: a slot of the firmware; one in use; an image that is refused
    (let k := regs (low 1) [(10, lo), (11, 5)]
     let i := { regs fw [(10, lo), (11, 0)] with images := [(0, smallImage)] }
     Ready k [.x 10, .x 11] [] ∧ 1 ≤ k.level ∧ (k.level = 1 ∧ wbits (k.getX 11) 2 0 < 6) ∧
       ((i.image (wbits (i.getX 11) 2 0)).isSome = true ∧
         (i.boundBits.testBit (wbits (i.getX 11) 2 0) = true ∨ ∃ p ∈ i.prsets, p.slot = wbits (i.getX 11) 2 0)) ∧
       i.loading (wbits (i.getX 11) 2 0) = false) ∧
    (let s := { regs fw [(10, lo), (11, 5)] with ptloads := [(5, 126, 0, (fw.ctx 126 0).uid)] }
     Ready s [.x 10, .x 11] [] ∧ ¬(s.level = 1 ∧ wbits (s.getX 11) 2 0 < 6) ∧ s.loading (wbits (s.getX 11) 2 0) = true) ∧
    (∀ e ∈ [(imageLines, none), (List.replicate 66 0, some (0x4000000000010000 : Word))],
      let s := finds (mapped (regs fw [(10, 0x1000), (11, 5)])) (lines e.1)
      ¬((s.level = 1 ∧ wbits (s.getX 11) 2 0 < 6) ∨
        ((s.image (wbits (s.getX 11) 2 0)).isSome = true ∧
          (s.boundBits.testBit (wbits (s.getX 11) 2 0) = true ∨ ∃ p ∈ s.prsets, p.slot = wbits (s.getX 11) 2 0))) ∧
      s.loading (wbits (s.getX 11) 2 0) = false ∧ ∃ img, (s.loadBegin 5).readImage (s.getX 10) [] 66 =
          .ok (.data 0, img, s.getX 10 + 4224) { s.loadBegin 5 with accs := 132 } ∧ checkImage img 5 = e.2) ∧
    -- RangeBinding
    (let s0 := mapped (regs fw [(10, 0x2000), (11, 0x6B), (12, 0x63), (13, 0x1000)])
     let s := { s0 with images := [(3, smallImage)] }
     let w : Wait := { kind := .prset, thr := 4 }
     let p : PrsetRun := { id := s.serial, core := 127, ctx := 0, base := 0x2000, k := 13, slot := 3, going := true }
     let two := ((s.setCsr 0x3000 0x8003000100000040).setCsr 0x8000 0x10000).setCsr 0x4050300 0x4000080000000000
     let run : FarRun := { id := 4, core := 127, ctx := 0, uid := s.c.uid, asid := 0, level := 2, op := .reserve 0x2000 13 3,
                           cubes := [1], left := [] }
     let busy := { s with ptloads := [(3, 126, 0, (s.ctx 126 0).uid)] }
     let f := fun (r : List FarRun) => ({ s.updC (fun c => { c with wait := some w }) with farRuns := r } : State)
     Ready s [.x 10, .x 11] [] ∧ s.c.wait.any (fun w => decide (w.kind = .prset)) = false ∧
       (13 ≤ wbits (s.getX 11) 8 3 ∧ wbits (s.getX 11) 8 3 ≤ 48 ∧ (s.getX 10).toNat % 2 ^ 13 = 0 ∧ (s.getX 10).toNat < 2 ^ 56 ∧
         s.regionOk (bitsOf (s.getX 10).toNat 55 48) = true ∧ 2 ≤ s.level ∧ (s.image (wbits (s.getX 11) 2 0)).isSome = true ∧
         s.farHomes 0x2000 13 = [] ∧ ∀ h ∈ s.prsetHomes p, (s.reserved h (s.prsets ++ [p])).length ≤ 32) ∧
       (Ready two [.x 10, .x 11] [] ∧ two.farHomes 0x2000 13 = [1] ∧ two.regionOk 0 = true ∧
         two.numbersFree two.cur.core 1 = true ∧ s.numbersFree s.cur.core 0 = true ∧ two.loading 3 = false ∧ ∀ h ∈ two.prsetHomes { p with going := false }, (two.reserved h (two.prsets ++ [{ p with going := false }])).length ≤ 32) ∧
       wbits (s.getX 12) 8 3 < 13 ∧ (Ready busy [.x 10, .x 11] [] ∧ busy.loading 3 = true) ∧ s0.loading 3 = false ∧ s.loading 3 = false ∧ (s.getX 13).toNat % 2 ^ 13 ≠ 0 ∧ s0.image (wbits (s.getX 11) 2 0) = none ∧
       (f []).c.wait.any (fun w => decide (w.kind = .prset)) = true ∧ (f []).farOf 127 0 = none ∧
       (∀ r ∈ [run, { run with lacks := true }], Ready (f [r]) [.x 10, .x 11] [] ∧ (f [r]).farOf 127 0 = some r)) ∧
    -- PartitionDrained
    (let s := regs fw [(10, 0), (11, 127), (12, 0x800000000), (13, 0xC00000000)]
     let k := regs (low 1) [(10, 0), (11, 127)]
     let o := s.updC (fun c => { c with wait := some { kind := .drain, thr := 256 } })
     Ready s [.x 10, .x 11] [] ∧ Ready o [.x 10, .x 11] [] ∧
       (rectLegal (s.getX 11) = true ∧ rectKind (s.getX 11) ≠ 2 ∧ rectCube (s.getX 11) = s.self) ∧ (rectCores (o.getX 11)).length = 1 ∧
       (o.drainPart 0 (o.getX 11)).1 = 256 ∧
       rectKind (s.getX 12) = 2 ∧ rectLegal (s.getX 13) = false ∧ s.level ≠ 1 ∧
       (k.level = 1 ∧ k.partOfAsid k.c.asid ≠ some 0) ∧ ((o.drainPart 0 (o.getX 11)).2.drainWaits 0 (o.getX 11) = false) ∧
       rectHas (s.getX 11) 127 = true) ∧
    (let m : Memo := { owner := engineOwner 31 1, results := [], resume := none }
     let s := { owned ((regs fw [(10, 0), (11, 127)]).updCluster 31 (fun k => { k with cmds := [{ cmd 0x44 .running with ctx := 5 }] })) with memos := [m] }
     let o := s.updC (fun c => { c with wait := some { kind := .drain, thr := 256 } })
     (o.drainPart 0 (o.getX 11)).2.drainWaits 0 (o.getX 11) = true) ∧
    -- RangeSwitched
    (let p : PrsetRun := { id := 4, core := 127, ctx := 0, base := 0x2000, k := 13, slot := 3, going := true }
     let s : State := { fw with prsets := [p], arg := { x := 4 }, dirs := [(0x90, { gpa := 0x2400, st := 1 })] }
     s.prsets.find? (fun q => q.id = s.arg.x) = some p ∧ s.prsetReady p = true ∧
       (∀ e ∈ s.busyLines p.base p.k, s.lineRecorded e.2 (s.lineSlot e.1 e.2.gpa) = false) ∧ (s.prsetHomes p).Nodup) :=
  ⟨by decide +kernel, by decide +kernel, two ⟨by decide +kernel, by decide +kernel, smallImage, readIs_eq (by decide +kernel), smallImage_is_legal⟩
    ⟨by decide +kernel, by decide +kernel, (List.replicate 66 (List.replicate 64 0)).flatten, readIs_eq (by decide +kernel), by decide +kernel⟩, by decide +kernel,
    by decide +kernel, by decide +kernel, by decide +kernel⟩

/-! ## Witnesses of the vector statements -/

theorem witness_VectorIntegers :
    ETy.s8.isInt = true ∧ ETy.z64.isInt = true ∧
      ∀ m ∈ [none, some ((7 : BitVec 3), true), some (0, false)], VReady fw m [] [] [1, 31, 1] [31] := by decide +kernel

theorem witness_VectorFloats :
    ∀ m ∈ [none, some ((7 : BitVec 3), true), some (0, false)], VReady fw m [] [] [1, 31, 0] [31] := by decide +kernel

theorem witness_RoundingIsExactOnItsFormat :
    (fmtE2 ∈ [fmtD, fmtF, fmtH, fmtBF, fmtE4, fmtE5, fmtE2] ∧ 15 < 2 * fmtE2.sign ∧ (∀ q, fmtE2.decode 15 ≠ .nan q) ∧
      ∀ q, fmtE2.decode 15 ≠ .inf q) ∧
    (fmtD ∈ [fmtD, fmtF, fmtH, fmtBF, fmtE4, fmtE5, fmtE2] ∧ 0x8000000000000001 < 2 * fmtD.sign ∧ ({ rm := 0, ftz := false } : FpCtl).ftz = false ∧
      (0x8000000000000000 < 2 * fmtD.sign ∧ 0x8000000000000000 % 2 ^ fmtD.mw = 0 ∧ ∀ q, fmtD.decode 0x8000000000000000 ≠ .nan q) ∧
      ∀ q, fmtD.decode 0x8000000000000001 ≠ .nan q) ∧
    (ETy.s8.isInt = true ∧ ilo .s8 8 ≤ -128 ∧ -128 ≤ ihi .s8 8) ∧
    (ETy.z64.isInt = true ∧ ilo .z64 64 ≤ 18446744073709551615 ∧ (18446744073709551615 : Int) ≤ ihi .z64 64) :=
  ⟨⟨by decide, by decide, (by intro q h; cases h), (by intro q h; cases h)⟩,
    ⟨by decide, by decide, rfl, ⟨by decide, by decide, (by intro q h; cases h)⟩, (by intro q h; cases h)⟩, by decide, by decide⟩

theorem witness_VectorMoves :
    ETy.d ≠ .e2 ∧ (∀ m ∈ [none, some ((7 : BitVec 3), true), some (0, false)], VReady fw m [.x 5] [] [] [31]) ∧
      VReady fw none [] [] [1, 31] [31] ∧ VReady fw none [.x 5, .x 6] [] [31] [31] ∧ VReady fw none [.x 6] [.x 31] [31] [] := by
  refine ⟨?_, ?_, ?_, ?_, ?_⟩ <;> decide +kernel

/-- A state whose mask register 3 is not zero. -/
def masked : State := fw.setM 3 0x80000000

theorem witness_MasksAndReductions :
    (∀ t ∈ [ETy.s8, .d], 8 ≤ t.width) ∧ VReady masked none [] [.m 7] [1, 2] [] ∧
      VReady masked (some (3, false)) [.m 7] [.m 7] [1, 2] [] ∧ Ready masked [.m 0, .m 7] [.m 7] ∧ Ready masked [.x 5] [.m 7] ∧
      Ready masked [.m 3] [.x 5] ∧ masked.getM 0 = 0 ∧ masked.getM 3 ≠ 0 ∧
      (∀ k ∈ [none, some (3 : BitVec 3)], VReady masked (k.map (fun r => (r, true))) [] [] [1] [31]) ∧
      ETy.s64.isInt = true ∧ ETy.h.isFp = true ∧ 8 ≤ ETy.e5.width ∧
      (List.range 4).filter (on masked (some (0, true)) 4) = [] ∧ (List.range 4).filter (on masked none 4) ≠ [] := by
  refine ⟨?_, ?_, ?_, ?_, ?_, ?_, ?_, ?_, ?_, ?_, ?_, ?_, ?_, ?_⟩ <;> decide +kernel

theorem witness_BlocksAndAccumulators :
    ((Instr.vmxpack 2 4 .f .e4).wellFormed = true ∧ VReady fw none [] [] [3, 4, 5, 6, 7] [2, 3]) ∧
    ((Instr.vmxunpk 4 2 .s8 .f).wellFormed = true ∧ VReady fw none [] [] [2, 3] [4, 5, 6, 7]) ∧
    Ready fw [.x 1, .x 2] [] ∧ ((fw.cluster fw.clu).acc true).isBad 127 120 8 = false ∧ VReady fw none [] [] [] [31] ∧
    VReady fw none [.x 1, .x 2] [] [31] [] ∧
    (let s := fw.updCluster fw.clu (fun k => { k with acc1 := { k.acc1 with bad := [0] } })
     Ready s [.x 1, .x 2] [] ∧ ((s.cluster s.clu).acc true).isBad ((s.getX 1).toNat % 128) (8 * ((s.getX 2).toNat % 16)) 8 = true) := by
  decide +kernel

/-- A stream of eight bytes from the start of the window, read at position `p`, bound to v28. -/
def stream (write : Bool) (p : Nat) : StreamB :=
  { base := lo, write := write, esz := 0, stride := [1, 0, 0], count := [8, 1, 1], pos := p }
def bound (b : StreamB) : State := win.updC (fun c => { c with streams := [(28, b)] })

/-- VectorMemory and Streams. -/
theorem witness_VectorMemoryAndStreams :
    (ETy.s32 ≠ .e2 ∧ ∀ s ∈ [win, regs fw [(10, hi - 24)]], VReady s none [.x 10] [] [] [31] ∧ VReady s none [.x 10] [] [31] [] ∧
      WindowAccess s (s.getX 10 + 32 * (0 : BitVec 11).signExtend 64) 32 ∧
      GoodWords s (s.getX 10 + 32 * (0 : BitVec 11).signExtend 64) 32) ∧
    (∀ m ∈ [none, some ((0 : BitVec 3), true), some (0, false)],
      VReady win m [.x 10] [] [2] [1] ∧ VReady win m [.x 10] [] [1, 2] [] ∧
      ∀ k ∈ (List.range 8).filter (on win m 8),
        WindowAccess win (win.getX 10 + BitVec.ofInt 64 ((lane 32 (win.c.getV 2) k).toInt * 4)) 4 ∧
        GoodWords win (win.getX 10 + BitVec.ofInt 64 ((lane 32 (win.c.getV 2) k).toInt * 4)) 4) ∧
    -- SBIND: a legal descriptor, and one with a reserved word set
    (Ready (finds win [.data 0]) [.x 10] [] ∧
      (finds win [.data 0]).image64 (finds win [.data 0]).headWho (win.getX 10) = .ok (.data 0, blank) (keeps win (.data 0))) ∧
    (∀ s ∈ [win, regs fw [(10, hi - 24)], bound (stream false 0)], Fresh s) ∧
    (let s := finds win [.data (2 ^ 320)]
     s.image64 s.headWho (s.getX 10) = .ok (.data (2 ^ 320), [0, 0, 0, 0, 0, 1, 0, 0]) (keeps win (.data (2 ^ 320))) ∧ wd [0, 0, 0, 0, 0, 1, 0, 0] 5 ≠ 0) ∧
    -- a register without a stream, and streams that are read, written and at their ends
    win.c.stream (vreg 0) = none ∧
    (∀ b ∈ [stream false 0, stream false 8, stream true 0], (bound b).c.stream (vreg 0) = some b ∧
      Ready (bound b) [.x 10] [] ∧ WindowAccess (bound b) ((bound b).getX 10 + 48) 8 ∧ Ready (bound b) [] [.v 1] ∧ (1 : Reg) ≠ vreg 0 ∧
      (bound b).c.stream 1 = none ∧ (bound b).c.vbank.getD 0 .unclaimed = .resident) ∧
    (let s := bound (stream false 0)
     Nat.min (32 / 1) (8 - 0) ≠ 0 ∧ ∀ k, k < 8 → WindowAccess s (lo + BitVec.ofNat 64 k) 1 ∧ GoodWords s (lo + BitVec.ofNat 64 k) 1) ∧
    (let s := bound (stream true 0)
     VReady s none [] [] [1] [] ∧ ∀ k, k < 8 → WindowAccess s (lo + BitVec.ofNat 64 k) 1) ∧
    Nat.min (32 / 1) (8 - 8) = 0 ∧ (10 : Reg) ≠ 0 :=
  ⟨by decide +kernel, by decide +kernel, ⟨by decide +kernel, okIs_eq (by decide +kernel)⟩, by decide +kernel,
    ⟨okIs_eq (by decide +kernel), by decide +kernel⟩, by decide +kernel, by decide +kernel, by decide +kernel,
    by decide +kernel, by decide +kernel, by decide +kernel⟩

/-- VectorFrame: plain registers, a group with a bound register, and the window's bytes. -/
theorem witness_VectorFrame :
    (let s := regs win [(5, 0)]
     (∀ l ∈ [[4, 10, 12, 3], [(4 : Reg), 5, 6, 7, 2, 3], [2, 3, 4, 5, 6, 7]], Plain s l) ∧
       (∀ m ∈ [none, some ((7 : BitVec 3), true), some (0, false)], Settled s ∧
         Ready s ([RRef.x 10, .x 12] ++ maskReads m ++ [.v 4, .v 10, .v 12]) [.x 4, .v 4, .m 7]) ∧
       Ready s [.m 0, .m 7] [.m 7, .x 4] ∧
       ((s.cluster s.clu).acc true).isBad ((s.getX 10).toNat % 128) (8 * ((s.getX 12).toNat % 16)) 8 = false ∧
       WindowAccess s (s.getX 10 + 32 * (0 : BitVec 11).signExtend 64) 32 ∧
       (∀ k ∈ (List.range 8).filter (on s none 8), WindowAccess s (s.getX 10 + BitVec.ofInt 64 ((lane 32 (s.c.getV 12) k).toInt * 4)) 4)) ∧
    (Instr.vmxpack 2 4 .f .e4).wellFormed = true ∧ (Instr.vmxunpk 4 2 .s8 .f).wellFormed = true ∧
    [(27 : Reg), 28, 29, 30, 2, 3].find? (fun r => ((bound (stream false 0)).c.stream r).isSome) = some 28 := by decide +kernel

/-! ## Witnesses of the statements about events -/

/-- Tables in which every entry is defined and leads to state 1 with no action, and state 0 of the home records an owner. -/
def openImage : List Byte :=
  List.replicate 64 0 ++ [0x40] ++ List.replicate 63 0 ++ (List.replicate 1024 [(1 : Byte), 0, 0, 0]).flatten

/-- A cube whose slot 0 holds these tables, and whose line 0 has agent 5 as its owner. -/
def tabled (m : Msg) : State :=
  { fw with images := [(0, openImage)], dirs := [(0, { owner := some 5, count := 1 })], arg := { body := .msg m } }

def homeEvents : List (Instr × Ev) :=
  [(Instr.gets, Ev.gets), (.getx, .getx), (.putr, .putr), (.wbr, .wbr), (.uread, .uread), (.uwrite, .uwrite),
    (.amor, .amor), (.dropr, .dropr), (.recall, .recall), (.putn, .putn), (.dath, .dath), (.ackh, .ackh)]

theorem witness_HomeTransitions :
    let m : Msg := { agent := 5, level := 2 }
    let s := tabled m
    let d := s.dir 0
    s.image (s.rangeSlot (homeTile m.la) m.gpa) = some openImage ∧ s.arg.body = .msg m ∧ d.owner = some m.agent ∧
      attrOwnv (imgAttr openImage false d.st) = true ∧ m.bytes = [] ∧ d.count = 1 ∧ m.toAgent = false ∧
      ∀ e ∈ homeEvents, PlainHome s e.2 m ∧ entDisp (imgEntry openImage false d.st e.2.code) = 0 :=
  ⟨rfl, by decide +kernel⟩

/-- A request that the source 0 of this cube has sent and keeps. -/
def kept (ev : Ev) (m : Msg) : Outst := ⟨1, ⟨0, m.src, 0, false, 0, 0, 0, .coh ev m⟩, 127, 0, 0, 0, false, false, 0, false⟩

theorem witness_AgentTransitions :
    let m : Msg := { dst := 3 }
    let s : State := { tabled m with outst := [kept .gets m] }
    let a := s.agent (m.dst % 64) (m.gpa / 64)
    let q := seen s m
    -- the fill of an access in progress that installs its line
    let r : LocReq := { loc := .ld, req := .gets, m := q }
    let f := s.setAgent 3 0 { a with cur := [r] }
    s.image m.slot = some openImage ∧ s.arg.body = .msg m ∧ (s.asked m).isSome = true ∧ q.tag ≠ 2 ∧ q.tag ≠ 3 ∧ q.tag ≠ 4 ∧
      q.tag ≠ 6 ∧ s.protid m.slot = m.protid ∧ a.missq = [] ∧ a.held = [] ∧ m.gpa / 64 < 2 ^ 50 ∧ a.access q = none ∧ a.pends .gets = false ∧
      a.pends .getx = false ∧ s.passThrough 3 = false ∧ (s.roomFor 3 0 (s.remoteLine 3 m.home m.la)).1 = true ∧
      (f.agent 3 0).access q = some r ∧ r.noInstall = false ∧ m.val ≤ r.acksGot ∧ (f.asked m).isSome = true ∧
      (f.roomFor 3 0 (f.remoteLine 3 m.home m.la)).1 = true ∧ (f.agent 3 0).missq = [] ∧ (f.agent 3 0).held = [] ∧
      ∀ ev ∈ [Ev.inv, .rcls, .rcli, .upd, .putg, .disc, .dats, .datx, .datu, .ack],
        entDisp (imgEntry openImage true a.st ev.code) = 0 :=
  ⟨rfl, by decide +kernel⟩

/-- Context 0 of core 127 waits with access 7. -/
def waits (k : WKind) (r : RKind) : Wait := { kind := k, d := 5, rk := r, tag := 7, next := 0x1004 }
def waiting (k : WKind) (r : RKind) : State := fw.updC (fun c => { c with wait := some (waits k r) })

/-- A full-empty load of context 0 of core 127 at its home. -/
def feLoad : Msg := { own := ⟨127, 0, 7 * 256⟩, op := some (.fe .ldff 0), len := 8, level := 2 }

theorem witness_WaitingAccessesEnd :
    (∀ r ∈ [RKind.load .s32, .flag],
      let m : Msg := {}
      let o := kept .uread { own := ⟨127, 0, 7 * 256⟩, tag := 2 }
      let s : State := { waiting .response r with outst := [o], arg := { body := .msg m } }
      s.arg.body = .msg m ∧ s.asked m = some o ∧ (o.own m).tag = 2 ∧ Waits s (o.own m).own (waits .response r) ∧
        (o.own m).op = none ∧ r ≠ .memo ∧ r ≠ .store ∧ o.pkt.body = .coh .uread { own := ⟨127, 0, 7 * 256⟩, tag := 2 }) ∧
    (let o := kept .uread {}
     let s : State := { fw with outst := [o], arg := { x := 1, flag := true } }
     s.arg.flag = true ∧ s.outst.find? (fun o => o.id = s.arg.x && o.stamp = s.arg.y) = some o) ∧
    (let s := { waiting .backoff .plain with arg := { x := 127, z := 7 } }
     (s.ctx s.arg.x s.arg.y).wait = some (waits .backoff .plain) ∧ (waits .backoff .plain).tag = s.arg.z ∧
       s.arg.flag = false) ∧
    (∀ k ∈ [WKind.fullEmpty, .response, .backoff, .own, .recv], let s := { waiting k .plain with arg := { x := 127 } }
      (s.ctx s.arg.x s.arg.y).wait = some (waits k .plain) ∧ (waits k .plain).since = s.arg.z ∧ (waits k .plain).got = none) ∧
    (let o := kept .amor feLoad
     let s : State := { fw with outst := [o], arg := { x := 127, z := 7 } }
     s.outst.findSome? (fun o => (o.feMsg.filter (fun m => m.own = ⟨s.arg.x, 0, 256 * s.arg.z + s.arg.y⟩)).map (fun m => (o, m))) =
       some (o, feLoad) ∧ s.backingOff o = false) ∧
    (let f : FeWait := ⟨8, feLoad, false⟩
     let m := { feLoad with tag := 7 }
     let s : State := { fw.updTile 0 (fun t => { t with fe := [f] }) with arg := { body := .msg m } }
     s.arg.body = .msg m ∧ (s.tile (homeTile m.la)).fe.find? (fun w => w.msg.own = m.own && w.msg.agent / 64 = m.agent / 64) =
       some f) ∧
    ((fw.ctx 127 0).pob = false ∧ (fw.ctx 127 0).rest = [] ∧ fw.holds 127 0 = true) := by decide +kernel

/-- A packet on its way to core 127, which is a core of partition 0. -/
def carries (p : Packet) : State := { owned (low 0) with arg := { body := .packet p } }

theorem witness_PacketsArrive :
    (let p := packet .spawn
     let s := carries p
     s.arg.body = .packet p ∧ s.knownPacket p = false ∧ s.drainedPacket p = false ∧ s.arrivalCore p = some 127 ∧
       s.inboxFull 127 p.prio = false) ∧
    (let p := { packet .spawn with dest := 0 }
     let s := carries p
     s.knownPacket p = false ∧ s.drainedPacket p = false ∧ s.arrivalCore p = none ∧ p.kind = .spawn ∧ gcidCube p.sender = s.self) ∧
    (let p := packet .spawn
     ∀ dead ∈ [false, true],
     let b : Bounce := ⟨p, false, 0, 0, 0, dead⟩
     let s := (carries p).updCore 127 (fun c => { c with bounce := [b] })
     (s.core 127).bounce.find? (fun b => wd b.p.words 1 = wd p.words 1 && !b.back) = some b ∧ b.dead = dead) ∧
    (let p := packet (.send 0 0)
     let s := carries p
     let f := s.updCore 127 (fun c => { c with inbox := List.replicate 248 (entry 0) })
     s.knownPacket p = false ∧ s.drainedPacket p = false ∧ gcidCube p.sender = s.self ∧ s.fenced 127 = false ∧
       s.inColumn 127 = false ∧ s.partOfAsid p.asid = some 0 ∧ s.partMember 0 127 = true ∧ s.inboxFull 127 4 = false ∧
       f.inboxFull 127 4 = true ∧ f.drainedPacket p = false ∧ f.partMember 0 127 = true) ∧
    (let p := packet (.cont 0 0 0)
     let s := carries p
     (s.homeCore (p.ctx / 4) p.asid).map s.gcid = some 0 ∧ 0 ≠ p.dest) ∧
    (let p := packet (.cont 0 2 1)
     (carries p).partOfAsid p.asid = some 0) := by decide +kernel

/-- Core 5 has nothing to do but one entry of its inbox; its tile binds ASID 0. -/
def resting : State :=
  { ((owned (low 0)).updCore 5 (fun c => { c with inbox := [entry 2] })).updTile 0 (fun t => { t with asids := [(0, some 0x5000)] }) with
    arg := { x := 5 } }

/-- All four slots of core 127 are held at user level; the context of slot 0 has waited for a semaphore for 2,000 cycles. -/
def crowded : State :=
  let c : Ctx := { st := .blocked, wait := some { kind := .clusterSem }, sbank := .resident }
  let t := (List.range 4).foldl (fun t k => t.setSlot 127 k { ctx := some k }) (fw.setCtx 127 0 c)
  { t.updCore 127 (fun c => { c with inbox := [entry 1] }) with now := 2000, arg := { x := 127 } }

theorem witness_DispatchAndInterrupts :
    -- Scheduling: a packet, a ready context, parking
    (let s := resting
     s.arg.y = 0 ∧ s.drainedFront 5 = none ∧ s.freeSlot 5 = some 0 ∧ s.candidate 5 none = some (.packet (entry 2)) ∧ (s.freeId 5).isSome = true ∧
       s.drainedPacket (entry 2).p = false ∧ s.scalarRoom 5 = (true, s) ∧ s.freeId 5 = some 0 ∧
       wbits (wd (entry 2).p.words 0) 59 57 = 0) ∧
    resting.bindAsid (dispatchWho 5 0 none) 0 = .ok (some 0x5000) resting ∧ (∀ q l, PKind.spawn ≠ .launch q l) ∧
    (let s := { fw.setCtx 5 3 { st := .readyParked, sbank := .resident } with arg := { x := 5 } }
     s.arg.y = 0 ∧ s.drainedFront 5 = none ∧ s.freeSlot 5 = some 0 ∧ s.candidate 5 none = some (.ready 3) ∧ (s.ctx 5 3).sbank = .resident) ∧
    (crowded.demand 127 = true ∧ crowded.parkChoice 127 = some (0, 0)) ∧
    -- Interrupts
    (∀ src ∈ [0, 2, 3, 4],
      let e : CoreEvent := { source := src, sub := 5, tval := 9, slot := 0 }
      let s := { (enabled (low 0)).updCore 127 (fun c => { c with events := [e] }) with arg := { x := 127 } }
      s.takeable 127 0 = some (src, some e) ∧ (s.slot 127 0).ctx = some 0 ∧ (s.ctx 127 0).wait = none) ∧
    (let s := { fw.updCore 127 (fun c => { c with eventsHeld := [event23 1 0] }) with arg := { x := 127 } }
     (s.core 127).eventsHeld = [event23 1 0] ∧ (s.core 127).events.length < 32) :=
  ⟨by decide +kernel, okIs_eq (by decide +kernel), (by intro q l h; cases h), by decide +kernel, by decide +kernel,
    by decide +kernel, by decide +kernel⟩

/-- Queue 0 of partition 0 holds one descriptor; a launch of queue 0 runs. -/
def ready1 : State := (queued fw).updLq 0 (fun q => { q with descs := [desc] })
def runs1 (d : LDesc) (s : State) : State :=
  { s.updLq 0 (fun q => { q with runs := [{ run 1 with desc := d }] }) with arg := { x := 0, y := 9 } }

/-- A descriptor that adds 3 to cube semaphore 7, and one with a completion record at the start of the window. -/
def descSem : LDesc := { desc with words := [0, 0, 0, 0, 0, 0x30007, 0, 0] }
def descRec : LDesc := { desc with words := [0, 0, 0, 0, 0, 0, 0, lo] }

theorem witness_LaunchEvents :
    (let s := ready1
     s.busyQueues.find? s.mustFail = none ∧ s.starting = none ∧ s.nextQueue = some 0 ∧ s.frontLaunch 0 = some desc ∧
       (∀ x ∈ (s.lq 0).runs, x.desc.uid ≠ desc.uid) ∧ s.startBuf = [] ∧ ∀ n ∈ rectCores desc.rect, gcidCube (s.gcid n) = s.self) ∧
    (let s := fw.updLq 0 (fun q => { q with descs := [desc] })
     s.busyQueues.find? s.mustFail = some 0) ∧
    (let b := (5, 0, 9, packet (.launch 0 9))
     let s := { fw with startBuf := [b], arg := { x := 5 } }
     s.startBuf.find? (fun b => b.1 = s.arg.x) = some b ∧ s.reofferable s.arg.x = true) ∧
    (∀ d ∈ [desc, descSem], let s := runs1 d fw
      (s.lq 0).runs.find? (fun x => x.desc.uid = s.arg.y) = some { run 1 with desc := d } ∧ d.crec = 0) ∧
    (descSem.sinc ≠ 0 ∧ (fw.sem .cube descSem.ssem).toNat + descSem.sinc < 2 ^ 64) ∧
    (let s := runs1 descRec (low 0)
     let bs := leBytes 8 descRec.id ++ leBytes 8 1
     descRec.crec ≠ 0 ∧ s.storeAt (descRec.who s.arg) { kind := .store } descRec.crec 16 bs .memo =
       .ok (.window 31 0, .data 0)
         { (s.lmemWrite 31 0 bs).remember (descRec.who s.arg).owner (.data 0) with accs := s.accs + 1 }) ∧
    (∀ c, Target.window 31 0 ≠ .fail c) ∧
    (let s := { (runs1 desc (queued fw)).setCsr 0x2008 0x100000000 with now := 4000 }
     s.lqLimit 0 ≠ 0 ∧ s.lqLimit 0 ≤ s.lqElapsed 0 ∧ (s.lq 0).runs ≠ [] ∧ (s.lq 0).stopped = false ∧ s.arg.z = (s.lq 0).stamp ∧
       s.kcoreOf (s.queuePart 0) = some 127 ∧ (s.core 127).events.length < 32) :=
  ⟨by decide +kernel, by decide +kernel, by decide +kernel, by decide +kernel, by decide +kernel,
    ⟨by decide +kernel, okIs_eq (by decide +kernel)⟩, (by intro c h; cases h), by decide +kernel⟩

theorem witness_EngineCommandsAccepted :
    (let s := regs fw [(10, lo), (11, 0x20), (12, 1), (13, 0x1000F)]
     let full := s.updCluster s.clu (fun k => { k with cmds := List.replicate 16 (cmd 0x44 .queued) })
     Ready s [.x 10, .x 11, .x 0, .x EWait.none.reg] [] ∧ Ready full [.x 10, .x 11, .x 0, .x EWait.none.reg] [] ∧
       acceptReason 0x44 (s.getX 12) (s.getX 10) (s.getX 0) ≠ 0 ∧ acceptReason 0x44 (s.getX 10) (s.getX 11) (s.getX 0) = 0 ∧
       s.queueFull s.clu (queueOf 0x44) = false ∧ full.queueFull full.clu (queueOf 0x44) = true ∧
       acceptReason 0x41 (s.getX 0) (s.getX 0) (s.getX 0) = 0 ∧ s.queueFull s.clu (queueOf 0x41) = false ∧
       acceptReason 0x40 (s.getX 10) (s.getX 0) (s.getX 0) = 0 ∧ acceptReason 0x40 (s.getX 12) (s.getX 0) (s.getX 0) ≠ 0) := by
  decide +kernel

def fault1 : EFault := { cause := 0x12, addr := 0x40, cursor := 0, rcube := 0, resumable := true }
def held1 (c : Cmd) : State := { fw.updCluster 31 (fun k => { k with cmds := [c] }) with arg := { x := 31, y := 1 } }

theorem witness_EngineControl :
    (let s := regs (held1 (cmd 0x44 .queued)) [(10, 3), (11, 2), (12, 0), (13, 7)]
     Ready s [.x 10] [.x 1] ∧ Ready s [.x 13] [] ∧ s.getX 10 % 4 = 3 ∧ (s.getX 11).toNat % 4 = 2 ∧
       ((s.cluster s.clu).cmds.filter (fun c => queueOf c.op = 2 && !c.final)).length < 256 ∧
       (∀ c ∈ (s.cluster s.clu).cmds, c.core = s.cur.core → c.asid = s.c.asid → (s.getX 12).getLsbD (queueOf c.op) = false) ∧
       ((s.cluster s.clu).cmds = [cmd 0x44 .queued] ∧ (s.cluster s.clu).efrec = [] ∧
         (s.getX 13).getLsbD (queueOf (cmd 0x44 .queued).op) = true ∧ (cmd 0x44 .queued).core = s.cur.core ∧
         (cmd 0x44 .queued).asid = s.c.asid ∧ (cmd 0x44 .queued).st = .queued ∧ (cmd 0x44 .queued).sig = none)) ∧
    (1 ≤ fw.level ∧ (fw.cluster fw.clu).efrec.find? (fun e => e.1 = 5) = none) ∧
    (let c := cmd 0x44 .faulted
     let s := (held1 c).updCluster 31 (fun k => { k with efrec := [(5, c.record 127 fault1, c)] })
     (s.cluster s.clu).efrec.find? (fun e => e.1 = 5) = some (5, c.record 127 fault1, c) ∧ s.cmd s.clu c.num = some c ∧
       (wd (c.record 127 fault1) 0).getLsbD 62 = true) ∧
    (let s := { held1 (cmd 0x44 .queued) with arg := { x := 31, y := queueOf 0x44 } }
     s.engineReady 31 s.arg.y = true ∧ s.frontCmd 31 s.arg.y = some (cmd 0x44 .queued) ∧ (s.cluster 31).matrixOff = false) ∧
    (let s := { (held1 (cmd 0x41 .queued)).updCluster 31 (fun k => { k with matrixOff := true }) with arg := { x := 31, y := queueOf 0x41 } }
     s.engineReady 31 s.arg.y = true ∧ s.frontCmd 31 s.arg.y = some (cmd 0x41 .queued) ∧ (s.cluster 31).matrixOff = true ∧
       (cmd 0x41 .queued).op ≤ 0x43) ∧
    (let s := { held1 (cmd 0x44 .running) with arg := { x := 31, y := 1, body := .fault fault1 } }
     s.cmd 31 s.arg.y = some (cmd 0x44 .running) ∧ s.arg.body = .fault fault1 ∧ (cmd 0x44 .running).st = .running ∧ (cmd 0x44 .running).fault = none ∧
       (cmd 0x44 .running).stopping = false ∧ s.recordSlot 31 = some 0 ∧
       (s.core 127).events.length < 32) ∧
    (let c := { cmd 0x44 .running with fault := some fault1 }
     let s := held1 c
     s.recordWaiter 31 = some (c, fault1) ∧ c.stopping = false ∧ s.recordSlot 31 = some 0) ∧
    (let s := { fw.updCluster 31 (fun k => { k with pending := [(127, note true)] }) with arg := { x := 31 } }
     s.pendingNext 31 = some (127, note true) ∧ s.fenced 127 = false ∧ (s.cluster 31).cmds = []) := by decide +kernel

/-- A running command of cluster 31 with the values given. -/
def work (op : Nat) (vd va vb : Word) (cursor : Nat) : Cmd :=
  { cmd op .running with vd := vd, va := va, vb := vb, cursor := cursor }

def okThen {α : Type} (m : MRes α) (p : α → State → Bool) : Bool :=
  match m with
  | .ok a t => p a t
  | .stop _ => false

theorem okThen_ex {α : Type} {m : MRes α} {p : α → State → Bool} (h : okThen m p = true) :
    ∃ a t, m = .ok a t ∧ p a t = true := by
  cases m with
  | ok a t => exact ⟨a, t, rfl, h⟩
  | stop t => cases h

set_option maxRecDepth 1000000 in
theorem witness_EngineWork :
    (∀ c ∈ [work 0x41 0 0x100 0 0, work 0x40 lo 0x100 0 0, work 0x47 0x1000 0 0x3FFFFF 0, work 0x41 0 0x100 0 2],
      let s := held1 c
      s.cmd 31 s.arg.y = some c ∧ c.num = s.arg.y ∧ c.st = .running ∧ c.fault = none ∧ c.stopping = false) ∧
    ((work 0x41 0 0x100 0 0).cursor + 1 < mwRows 0x100 ∧ mwRows 0x100 ≤ (work 0x41 0 0x100 0 2).cursor ∧
      (work 0x41 0 0x100 0 2).sig = none) ∧
    (let c := work 0x40 lo 0x100 0 0
     let s := held1 c
     let rb := 16 * (etyOf (mwType c.va)).width
     let off := c.vd.toNat + rb * c.cursor - 0x7F0000000000
     mwMx c.va = false ∧ s.rowBlocked 31 c off rb = false ∧ ((s.cluster 31).warr c.sel1).badRows = [] ∧
       ((s.cluster 31).acc c.sel0).isBad (mwRow0 c.va + c.cursor) 0 128 = false ∧
       (∀ w ∈ lmemWords 31 off rb, s.lmemBad.lookup w = none) ∧ s.injArmed = false) ∧
    (let c := work 0x47 0x1000 0 0x3FFFFF 0
     let s := { mapped (held1 c) with memos := [{ owner := engineOwner 31 1, results := List.replicate 16 (placed 0x1000) ++ List.replicate 16 (AccRes.data 0), resume := none }] }
     c.cursor + 1 < chunksOf c.total ∧ ∃ f u, s.copyChunk 31 c c.cursor = .ok f u ∧
       (decide (f = none) && (match u.cmd 31 c.num with
         | some k => decide (k.cursor = c.cursor) && !k.stopping
         | none => false)) = true) :=
  ⟨by decide +kernel, by decide +kernel, by decide +kernel, ⟨by decide +kernel, okThen_ex (by decide +kernel)⟩⟩

/-! ## Witnesses of the statements about the fabric, errors, boot and hosts -/

/-- A torus of two cubes, of which this is cube 0; port 0 leads to cube 1 and is up. -/
def paired (s : State) : State :=
  ((s.setCsr 0x4050300 0x4000080000000000).setCsr 0x4050000 0x8000100000000000).setCsr 0x4050008 0x80007C0000000000

/-- A packet of class `cls` from a core to another. -/
def net (cls : Nat) (src dest : Nat) (body : NBody) : NetPkt := ⟨dest, ⟨src, 0, 77⟩, cls, true, 0, 0, 0, body⟩

/-- A 64-bit add of 5 that wants no reply. -/
def adds : Msg := { op := some (.amo .add true 5), cons := [⟨⟨0, 0, 77⟩, 5, false⟩], src := ⟨0, 0, 77⟩ }

theorem witness_PacketsAndReplies :
    -- PacketsAreRouted
    (let np := { net 0 0 0 (.probe 1) with age := 400000 }
     400000 ≤ np.age) ∧
    (let p := packet .spawn
     let np := net 0 32768 127 (.task p)
     let s := { (owned fw).setCsr 0x4100010 1 with arg := { x := 64, body := .net np } }
     s.arg.body = .net np ∧ np.age < 400000 ∧ gcidCube np.src.gcid ≠ s.self ∧ s.arg.x = 64 ∧ np.cls = 0 ∧ np.body = .task p ∧
       p.kind = .spawn ∧ ¬(gcidCube np.dest ≠ s.self) ∧ s.refusedHere np = false) ∧
    (let np := net 0 32768 16384 (.coh .gets {})
     gcidCube np.dest ≠ fw.self ∧ gcidCube np.src.gcid ≠ fw.self ∧ fw.routePort np = none) ∧
    (let np := net 2 0 16384 (.probe 0)
     let s := paired fw
     np.cls = 2 ∧ NetPkt.amo np = none ∧ NetPkt.flits np ≤ 8 ∧ s.portLinked 0 = true ∧ gcidCube np.dest ≠ s.self ∧ s.routePort np = some 0 ∧
       s.portTesting 0 = false ∧ (s.port 0).queue = [] ∧ (s.port 0).unacked.length < 128) ∧
    (let np := net 0 0 0 (.coh .amor adds)
     let q := { net 0 0 0 (.coh .amor { adds with src := ⟨0, 0, 76⟩ }) with src := ⟨0, 0, 76⟩ }
     let o : Outst := ⟨3, np, 0, 0, 0, 0, false, false, 0, false⟩
     let s := { (fw.updRouter 7 (fun r => { r with queue := [(2, q)] })) with outst := [o] }
     ¬(gcidCube np.dest ≠ s.self) ∧ s.combines 7 = true ∧ s.outst.any (fun e => e.pkt.src = np.src) = true ∧
       adds.op = some (.amo .add true 5) ∧ silent adds = true ∧ s.partner 7 np = some (2, q)) ∧
    -- CombinedReplies
    (let m : Msg := { src := ⟨0, 0, 77⟩, ret := 127 }
     let c : CombRec := ⟨0, ⟨0, 0, 77⟩, 0, true, 5, ⟨0, 0, 77⟩, 127, true, ⟨0, 0, 76⟩, 127, true⟩
     let s := { fw.updRouter 7 (fun r => { r with recs := [c] }) with arg := { x := 7, y := Ev.datu.code, body := .msg m } }
     s.arg.y = Ev.datu.code ∧ (s.router 7).recs.find? (fun c => c.id = m.src && c.n = m.ret / 2 ^ 21) = some c ∧
       c.part1.agentId / 64 = s.self ∧ c.part2.agentId / 64 = s.self) ∧
    (let m : Msg := { src := ⟨0, 0, 77⟩ }
     let j : JEntry := ⟨0, 0, 64, 0, [(⟨⟨0, 0, 77⟩, 5, true⟩, 0), (⟨⟨0, 0, 76⟩, 5, false⟩, 5)]⟩
     let s := { fw.updTile 7 (fun r => { r with journal := [j] }) with arg := { x := 7, body := .msg m } }
     (7 < 64 ∧ (s.tile 7).journal.find? (fun j => j.cons.any (fun c => c.1.src = m.src)) = some j ∧
       ∀ e ∈ j.cons, e.1.src.agentId / 64 = s.self)) := by decide +kernel

theorem witness_FabricTime :
    (let np := net 0 0 0 (.coh .amor adds)
     let s := { fw.updRouter 7 (fun r => { r with queue := [(2, np)] }) with arg := { x := 7, y := 2 } }
     (s.router 7).queue.find? (fun e => e.1 = s.arg.y) = some (2, np) ∧ gcidCube np.dest = s.self ∧
       gcidCube np.src.gcid = s.self ∧ np.body = .coh .amor adds) ∧
    (let np := net 2 0 16384 (.probe 0)
     let s := { (paired fw).updPort 0 (fun r => { r with queue := [(2, 0, np)] }) with arg := { x := 0, y := 2 } }
     (s.port 0).queue.find? (fun e => e.1 = s.arg.y) = some (2, 0, np) ∧
       s.routePort { np with vc := np.vc % 2 + 2 } = some 0) ∧
    -- RequestsAreRetried
    (∀ e ∈ [(true, 0), (false, 3), (false, 2)],
      let o : Outst := ⟨3, net 0 0 16384 (.coh .gets {}), 127, 0, 0, e.2, e.1, e.1, 4, true⟩
      let s := { fw with outst := [o], arg := { x := 3, y := 4 } }
      s.outst.find? (fun o => o.id = s.arg.x && o.stamp = s.arg.y) = some o ∧ o.waiting = e.1 ∧ o.resends = e.2 ∧
        o.pkt.body = .coh .gets {}) ∧
    (let p := packet .spawn
     let o : Outst := ⟨3, net 0 0 16384 (.task p), 127, 0, 1, 0, false, false, 4, true⟩
     let s := { fw with outst := [o], arg := { x := 3, y := 4 } }
     s.outst.find? (fun o => o.id = s.arg.x && o.stamp = s.arg.y) = some o ∧ o.pkt.body = .task p) := by decide +kernel

/-- A collective packet of group 5, and a cube at which the group has the word `w`. -/
def cpkt (port : Nat) : CPkt :=
  { group := 5, inst := 1, index := 0, total := 16, op := 0, ty := 2, bytes := List.replicate 16 0, port := port,
    dst := lo.toNat, sem := 7, asid := 0, sender := 31 }
def grouped5 (w : Word) (c : CPkt) : State := { (low 0).setCsr 0x4030050 w with arg := { body := .coll c } }

theorem witness_CollectiveContributions :
    -- the root with the local member alone, and with the local member and port 3
    (let s := { grouped5 0xD000000000000000 (cpkt 12) with arg := { x := 1, body := .coll (cpkt 12) }, now := 9 }
     s.aged = true) ∧
    (let s := grouped5 0xD000000000000000 (cpkt 12)
     let w := s.groupWord 5
     s.aged = false ∧ gwValid w = true ∧ (cpkt 12).op ≠ 0xF ∧ s.collDead 5 1 = none ∧ s.collRoom 5 = true ∧ s.held = [] ∧ gwRoot w = true ∧
       gwInputs w = [localPort] ∧ (cpkt 12).port = localPort ∧ s.colls = []) ∧
    (let s := { grouped5 0xD000000800000000 (cpkt 3) with colls := [⟨5, 1, 0, [cpkt 12]⟩] }
     let w := s.groupWord 5
     s.aged = false ∧ gwValid w = true ∧ s.collDead 5 1 = none ∧ s.collRoom 5 = true ∧ gwRoot w = true ∧ gwInputs w = [localPort, 3] ∧
       s.colls.find? (fun q => q.group = 5 && q.use = 1 && q.index = 0) = some ⟨5, 1, 0, [cpkt 12]⟩ ∧
       (cpkt 12).port = localPort ∧ (cpkt 12).total = (cpkt 3).total ∧ (cpkt 12).op = (cpkt 3).op ∧ (cpkt 12).ty = (cpkt 3).ty) ∧
    (let s := grouped5 0xC080000000000000 (cpkt 2)
     let w := s.groupWord 5
     s.aged = false ∧ gwValid w = true ∧ gwRoot w = false ∧ (cpkt 2).port = gwUp w ∧ (gwInputs w).contains 2 = false) := by decide +kernel

/-- A CRED of group 5 runs in cluster 31 and delivers to the start of the window. -/
def credCmd : Cmd := { work 0x48 lo 0 0x700000000005 0 with use := 1 }

/-- A CMCAST of one packet whose first chunk is under way. -/
def mcastCmd : Cmd := { work 0x49 0 0 0xF00000 0 with use := 1 }

theorem witness_CollectiveDeliveries :
    (let s := grouped5 0xD000000000000000 (cpkt 12)
     let w := s.groupWord 5
     gwValid w = true ∧ s.collDead 5 1 = none ∧ s.credOf w (cpkt 12) = none ∧ gwDdown w = [] ∧ (cpkt 12).total ≤ 256) ∧
    (let s := (grouped5 0xF001F00000000000 (cpkt 12)).updCluster 31 (fun k => { k with cmds := [credCmd] })
     s.credOf (s.groupWord 5) (cpkt 12) = some credCmd ∧ gwCluster (s.groupWord 5) = 31 ∧
       (s.sem .cube (cwSem credCmd.vb)).toNat + 1 < 2 ^ 64 ∧ s.writeMember 31 credCmd (cpkt 12) = .ok none s) ∧
    (let s := { grouped5 0xD000000000000000 (cpkt 12) with clusters := [(31, { cmds := [mcastCmd] })] }
     let w := s.groupWord 5
     s.aged = false ∧ (cpkt 12).op ≠ 0xE ∧ (cpkt 12).op ≠ 0xD ∧ (gwInputs w).contains 12 = true ∧ s.collRoom 5 = true ∧ gwDeliv w = false ∧
       gwMcast w 12 = [] ∧ s.held = [] ∧ s.cmd ((cpkt 12).sender % 2 ^ 10) (cpkt 12).inst = some mcastCmd ∧
       mcastCmd.use = (cpkt 12).index / 64 + 1 ∧ mcastCmd.chunkPackets ((cpkt 12).index / 64) ≤
         ((cpkt 12).index :: mcastCmd.delivered.filter (fun i => i != (cpkt 12).index)).length) ∧
    (let s := grouped5 0xF001F00000000000 (cpkt 12)
     gwDeliv (s.groupWord 5) = true ∧ (gwInputs (s.groupWord 5)).contains 12 = true ∧
       s.mcastWrite (mcastWho s 31 (cpkt 12)) (cpkt 12) = .ok none s) :=
  ⟨by decide +kernel, ⟨by decide +kernel, by decide +kernel, by decide +kernel, okIs_eq (by decide +kernel)⟩, by decide +kernel,
    ⟨by decide +kernel, by decide +kernel, okIs_eq (by decide +kernel)⟩⟩

theorem witness_Links :
    (∀ c, NBody.probe 0 ≠ .coll c) ∧
    -- LinkGroups: a group in its turn, one out of it, and one whose CRC fails
    (∀ y ∈ [0, 1],
      let np := net 2 0 0 (.probe 0)
      let s := { paired fw with arg := { x := 0, y := y, flag := true, body := .nets [np] } }
      (s.arg.x = 0 ∧ s.portState 0 = 2 ∧ s.portHost 0 = false ∧ s.portTesting 0 = false) ∧ (s.port 0).replays < 8 ∧ s.arg.flag = true ∧ (s.port 0).queue = [] ∧ s.arg.body = .nets [np] ∧
        (y = 0 → s.arg.y = (s.port 0).rxSeq) ∧ (y = 1 → s.arg.y ≠ (s.port 0).rxSeq)) ∧
    (let s := { paired fw with arg := { x := 0 } }
     s.arg.x = 0 ∧ s.portTesting 0 = false ∧ s.arg.flag = false ∧ (s.port 0).replays < 8 ∧ s.portState 0 = 2 ∧ s.portHost 0 = false ∧
       (s.port 0).unacked.length < 128 ∧ (s.port 0).heard = false ∧ fw.portState 0 ≠ 2 ∧ (s.port 0).missRow < 4) ∧
    (let s := { (paired fw).updPort 0 (fun p => { p with missRow := 4 }) with arg := { x := 0 } }
     s.portState 0 = 2 ∧ 4 ≤ (s.port 0).missRow) ∧
    -- PortStates
    (let s := (paired fw).setCsr 0x4050008 0x4000000000000000
     s.portEn 0 = true ∧ s.mode ≠ .down ∧ s.portState 0 = 1 ∧ (1 = s.portNbr 0 ∧ 2 ≠ s.portNbr 0) ∧
       s.mode = .running ∧ s.portHost 0 = false ∧ (s.conn (askOf 1)).busy = false) ∧
    (let s := (paired fw).setCsr 0x4050008 0
     s.portEn 0 = true ∧ s.mode ≠ .down ∧ s.portState 0 = 0 ∧ ({ s with mode := .down } : State).portEn 0 = true) ∧
    (fw.portEn 0 = false ∧ fw.portState 0 ≠ 1) ∧
    -- CubesDeclaredDown
    (let s := { fw with arg := { x := 1 } }
     s.arg.x ≠ s.self ∧ s.probing 1 = false ∧ s.mode ≠ .down ∧ s.arg.flag = false ∧ s.arg.x < 2 ^ 14) ∧
    (let s : State := { fw with timers := [(9, .probeTimeout, { x := 1 })], arg := { x := 1, flag := true } }
     s.probing 1 = true ∧ s.arg.flag = true) ∧
    (let s := { fw with mode := .down }
     s.mode = .down ∧ s.arg.flag = false) :=
  ⟨(by intro c h; cases h), by decide +kernel⟩

/-- An error at `p` stands before the cube. -/
def erring (p : Place) (x : Nat) : State := { fw with arg := { x := x, body := .place p } }

theorem witness_ErrorsAndSpares :
    (∀ t k, Place.localWord 5 3 ≠ .l2Way t k) ∧
    (∀ p ∈ [Place.localWord 5 3, .dramLine 64],
      let s := erring p 2
      s.arg.body = .place p ∧ s.arg.x % 4 ≠ 1 ∧ s.tests = []) ∧
    (testUs (.localWord 5 3) = some 10 ∨ testUs (.localWord 5 3) = some 40) ∧
    (let s := erring (.dramLine 64) 1
     s.arg.x = 1) ∧
    (let p := Place.localWord 5 3
     let s := { erring p 0 with tests := [⟨p, 1, 0, false⟩] }
     s.tests = [⟨p, 1, 0, false⟩] ∧ 5 < 16384 ∧ s.arg.flag = false ∧ s.stuckWord p = false ∧ s.errorCount (placeKey p) < 3 ∧
       { s with arg := { s.arg with flag := true } }.arg.flag = true ∧
       s.lmemBad.lookup (lmemKey (clusterOf 5) (posOf 5 * 0x8000) / 4 + 3) = none) ∧
    -- CoresAreReplaced
    (let s := { fw.setCsr 0x40700F8 0x8 with arg := { x := 31, val := 0x8300000000000000 } }
     let v := s.arg.val
     31 < 1024 ∧ wbits v 59 56 = 3 ∧ wbit v 63 = true ∧ wbit (s.sparemap 31) 63 = false ∧ wbit (s.sparemap 31) 3 = true ∧
       wbit (s.sparemap 31) 62 = false ∧ 3 < 16) ∧
    (let s := (fw.setCsr 0x40700F8 0x28).updCore (coreAt 31 5) (fun c => { c with missed := 1 })
     31 < 1024 ∧ s.fenced (coreAt 31 5) = true ∧ s.fenced (coreAt 31 3) = true ∧ s.spareFree 31 = true ∧
       1 ≤ (s.core (coreAt 31 5)).missed) ∧
    wbit (0 : Word) 63 = false ∧ (∀ e ∈ fw.csr, e.1 < 0x4070000 ∨ 0x4072000 ≤ e.1) := ⟨(by intro t k h; cases h), by decide +kernel⟩

theorem witness_VerticalBuses :
    let s := { fw with arg := { x := 63, y := 1 } }
    let paused := s.setCsr (vbOff 63 1) 0x200000000000041F
    let testing := s.setCsr (vbOff 63 1) 0x6000000000000000
    let gone := s.setCsr (vbOff 63 1 + 0x10) 0x4000000000000000
    s.arg.x < 64 ∧ s.arg.y < 2 ∧ (∀ e ∈ s.dirs, e.2.due = false) ∧ wbit (s.csrAt (vbOff 63 1)) 61 = false ∧
      (wbit (paused.csrAt (vbOff 63 1)) 61 = true ∧ wbit (paused.csrAt (vbOff 63 1)) 62 = false ∧
        wbits (paused.csrAt (vbOff 63 1)) 10 0 ≤ 1055 ∧ paused.busGone 63 1 = false) ∧
      wbit (testing.csrAt (vbOff 63 1)) 62 = true ∧ gone.busGone 63 1 = true ∧ s.busGone 63 1 = false ∧
      muxBad 0x4000000000000000 = true ∧ muxBad 0x8000000000000041 = false := by decide +kernel

/-- Which of the three outcomes a cube reset has lies with the fuses and the self-tests, which Config leaves free: one of
them always applies. An image that verifies needs the key whose hash the fuses hold. MEAS_EXTEND finds its register locked, or not. -/
theorem witness_ResetAndUpdate :
    (∀ s : State, s.coldReset.romCore = none ∨ s.coldReset.romCore ≠ none ∧ s.coldReset.selfTest.bootSlot = none ∨
      ∃ k, s.coldReset.romCore ≠ none ∧ s.coldReset.selfTest.bootSlot = some k) ∧
    wbit (fw.csrAt 0x40A0448) (fw.csrField 0x40A0440 3 0) = false ∧
    wbit ((fw.setCsr 0x40A0448 1).csrAt 0x40A0448) ((fw.setCsr 0x40A0448 1).csrField 0x40A0440 3 0) = true ∧
    -- UpdatesAndRecovery
    (let s := { fw with mode := .recovery, arg := { body := .bytes [] } }
     s.mode = .recovery ∧ fw.mode ≠ .recovery ∧ s.mode ≠ .running ∧ fw.mode = .running ∧
       ({ s.writeSlot 0 (EvBody.theBytes s.arg.body) with update := none } : State).verifySlot 0 = false ∧ s.arg.x ≠ 1 ∧
       ({ s with mode := .inReset } : State).mode ≠ .running ∧ ({ s with mode := .inReset } : State).mode ≠ .recovery) ∧
    (fw.update = none ∧ fw.csrField 0x40A0480 39 8 ≠ 0xFFFFFFFE ∧ (fw.setCsr 0x40A0480 0xFFFFFFFE00).csrField 0x40A0480 39 8 = 0xFFFFFFFE) ∧
    (∀ n ∈ [0, 1, 3, 5],
      let u : UpdateRun := { transport := 1, phase := n }
      let s := { fw with update := some u }
      s.update = some u ∧ s.mode = .running ∧ (∀ b, s.arg.body ≠ .bytes b) ∧ u.transport < 2 ∧
        (s.writeSlot s.updateSlot u.image).verifySlot s.updateSlot = false) ∧
    (let u : UpdateRun := { transport := 1 }
     let s := { fw with update := some u, arg := { x := 1, body := .bytes [1] } }
     s.arg.body = .bytes [1] ∧ u.phase = 0 ∧ u.transport = s.arg.x) := by
  refine ⟨fun s => ?_, by decide +kernel, by decide +kernel, by decide +kernel, by decide +kernel, ?_, by decide +kernel⟩
  · by_cases h : s.coldReset.romCore = none
    · exact .inl h
    cases hb : s.coldReset.selfTest.bootSlot with
    | none => exact .inr (.inl ⟨h, rfl⟩)
    | some k => exact .inr (.inr ⟨k, h, rfl⟩)
  · intro n hn
    simp only [List.mem_cons, List.not_mem_nil, or_false] at hn
    rcases hn with rfl | rfl | rfl | rfl <;> exact ⟨rfl, rfl, (by intro b h; cases h), by decide, by decide +kernel⟩

/-- An answer of the neighbour, cube 1, that arrives while the firmware's challenge of it is at the stage given. -/
def challenged (busy : Bool) (stage : Nat) (b : List Byte) : State :=
  { (paired fw).setConn (askOf 1) { stage := stage, busy := busy } with
    arg := { x := 64, body := .net { net 0 16384 0 (.mctp b) with ord := true } } }

theorem witness_Attestation :
    -- NeighbourAnswers: one that nothing waits for, one of the stage asked, the last one, and one of another stage
    (∀ e ∈ [(false, 0, 0x04), (true, 0, 0x04), (true, 3, 0x03), (true, 4, 0x60), (true, 1, 0x60)],
      let b : List Byte := [0x13, BitVec.ofNat 8 e.2.2]
      let s := challenged e.1 e.2.1 b
      let np : NetPkt := { net 0 16384 0 (.mctp b) with ord := true }
      s.arg.body = .net np ∧ s.arg.x = 64 ∧ s.arg.z = np.inp ∧ np.age < 400000 ∧ gcidCube np.dest = s.self ∧
        gcidCube np.src.gcid = 1 ∧ 1 ≠ s.self ∧ s.refusedHere np = false ∧ np.body = .mctp b ∧ b.getD 0 0 ≠ 0x05 ∧
        (b.getD 1 0).toNat = e.2.2 ∧ e.2.2 < 0x80 ∧ (s.conn (askOf 1)).busy = e.1 ∧ (s.conn (askOf 1)).stage = e.2.1) ∧
    (∀ b, Config.neighbourMask 1 b = 0 ∨ Config.neighbourMask 1 b ≠ 0) ∧
    fw.mode = .running ∧
    (∀ st ∈ [0, 1, 2, 3],
      let s := { fw.setConn 1 { stage := st } with arg := { x := 1, flag := true, body := .bytes [0, 1, 0, 0] } }
      let b := { s.setConn 1 { stage := st, busy := true } with arg := { s.arg with flag := false } }
      s.mode = .running ∧ s.arg.flag = true ∧ (s.conn s.arg.x).stage = st ∧ b.arg.flag = false ∧ (b.conn b.arg.x).busy = true ∧
        (s.conn s.arg.x).busy = false ∧ (EvBody.theBytes s.arg.body).getD 0 0 = 0 ∧
        ((EvBody.theBytes s.arg.body).getD 1 0).toNat = 0 + 1 ∧ s.arg.y = 0 ∧ b.arg.y = 0 ∧
        ({ s with arg := { s.arg with y := 1 } } : State).arg.y ≠ 0) ∧
    ((EvBody.theBytes (.bytes [0, 0])).getD 1 0 = 0 ∧ le16 ([] : List Byte) 2 ≤ Config.certChain.length) :=
  ⟨by decide +kernel, fun _ => Decidable.em _, by decide +kernel, by decide +kernel, by decide +kernel, Nat.zero_le _⟩

/-- A request of the kernel of partition 0, on core 5, to the firmware. -/
def asking : Message := { words := [1, 0, 0, 0, 0, 0, 0, 0], asid := 0, sender := 5, completion := false, level := 1, pay1 := 0x1000 }

/-- Port 10 leads to a host of partition 0 and is open, with its window at the start of region 0. -/
def hosted (a : EvArg) : State := { (mapped ((owned fw).setCsr 0x4050280 0xC000000000000000)).setCsr 0x4050400 0x8000000000000000 with arg := a }

/-- The host's access has found its results. -/
def answered (a : EvArg) (l : List AccRes) : State :=
  { hosted { a with flag := true } with memos := [{ owner := ⟨10, 9, 0⟩, results := l, resume := none }] }

theorem witness_FirmwareAndHosts :
    (let s := fw.updCore 127 (fun c => { c with messages := [asking] })
     s.fwReady = true ∧ s.fwRequest = some asking ∧ gcidCube asking.sender = s.self ∧ s.fenced (gcidCore asking.sender) = false ∧
       gcidCore asking.sender ≠ s.fwCore ∧ asking.pay1.toNat ≠ 0x4050300) ∧
    (let a : EvArg := { x := 10, y := 0, z := 8 }
     let s := answered a [.data 5]
     (s.arg.flag = true ∧ s.hostOpen 10 = true ∧ s.arg.val ≠ 2 ∧ inBar s.arg.y s.arg.z = true) ∧
       s.hostReads (hostWho 10 .hostWindowRead s.arg) 10 [] (hostPieces (s.hostGpa 10 s.arg.y) s.arg.z) =
         .ok (some [5, 0, 0, 0, 0, 0, 0, 0]) { s with accs := 1 }) ∧
    (let a : EvArg := { x := 10, y := 0, body := .bytes [1, 2] }
     let s := answered a [.data 0]
     (s.hostOpen 10 = true ∧ inBar s.arg.y 2 = true ∧
         ∀ e ∈ hostPieces (s.hostGpa 10 s.arg.y) 2, (s.hostHome 10 e.1).isSome = true) ∧
       s.hostWrites (hostWho 10 .hostWindowWrite s.arg) 10 [1, 2] (hostPieces (s.hostGpa 10 s.arg.y) 2) =
         .ok true { s with accs := 1 }) ∧
    (let s := hosted { x := 10, y := 7 }
     s.hostBusy 10 = false ∧ s.hostOpen 10 = true ∧ s.arg.y < 8 ∧ s.kcoreOf (some (s.hostPart 10)) = some 127 ∧
       (s.core 127).events.length < 32 ∧ s.hostPort 10 = true ∧ inBar (2 ^ 36) 1 = false ∧ fw.hostOpen 10 = false) ∧
    (let s := hosted { x := 10, y := 0x40, z := 64, val := 2 }
     s.hostBusy 10 = false ∧ s.hostOpen 10 = true ∧ s.arg.val = 2 ∧ s.arg.y + s.arg.z ≤ 4096) ∧
    (let s := { hosted { x := 10 } with memos := [{ owner := ⟨10, 9, 0⟩, results := [], resume := none }] }
     s.arg.flag = false ∧ s.hostBusy 10 = true) :=
  ⟨by decide +kernel, ⟨by decide +kernel, okIs_eq (by decide +kernel)⟩, ⟨by decide +kernel, okIs_eq (by decide +kernel)⟩,
    by decide +kernel, by decide +kernel, by decide +kernel⟩

theorem witness_ControlAndPower :
    (let s := { fw with arg := { x := 2, y := 0x40C0000 } }
     s.arg.x = 2 ∧ s.arg.y = 0x40C0000) ∧
    (let s := { fw with arg := { x := 1, y := partOff 63 0, z := 63 } }
     s.arg.x = 1 ∧ 63 < 64 ∧ s.arg.y = partOff 63 0 ∧ s.arg.z = 63 ∧ wbit s.arg.val 62 = false) ∧
    fw.arg.x = 0 ∧
    (let s := { fw with arg := { x := 2, y := 0x40A0440, val := 0x8000000000000000 } }
     s.arg.x = 2 ∧ s.arg.y = 0x40A0440 ∧ wbit s.arg.val 63 = true) := by decide +kernel

theorem witness_DecodeOfEncode :
    (Instr.add 6 6 5).wellFormed = true ∧ encode (.add 6 6 5) = some (0x4806, 0xA6) ∧
    (Instr.cas16 4 6 8 false true .cube).wellFormed = true ∧ (encode (.cas16 4 6 8 false true .cube)).isSome = true := by
  decide +kernel

theorem witness_EncodeOfDecode :
    decode 0x4806 0xA6 = .ok (.add 6 6 5) ∧ (0xA6 : BitVec 48).toNat < 2 ^ (16 * headTL 0x4806) ∧
    decode 0xC407 0x123456780000 = .ok (.li 7 0x12345678) ∧
      (0x123456780000 : BitVec 48).toNat < 2 ^ (16 * headTL 0xC407) := by decide +kernel

/-- The slot 0 of core 127 is the next to issue, at the head of its line; a line with an odd PC, an undefined opcode, an
illegal encoding. -/
def issuing (h : BitVec 16) : State := State.reset.placeHead h 0

/-- The head of core 127's slot 0 is about to be executed with a PC and a held line, or no line and what the accesses of its
fetch find. -/
def heading (pc : Word) (line : Option LineCopy) (l : List AccRes) : State :=
  ({ (mapped (issuing 0x0080)).updCtx 127 0 (fun c => { c with pc := pc, line := line }) with
    memos := [{ owner := headOwner 127 0, results := l, resume := none }] } : State).enter 127 0

/-- The line 0x1000 lies on another cube. -/
def away : AccRes := .place 0x1000 0 (some { cube := 1, mirror := none, la := 0x1000 }) ⟨0, 0, 0, 0⟩

def stops {α : Type} (m : MRes α) : Bool :=
  match m with
  | .ok _ _ => false
  | .stop _ => true

theorem stops_ex {α : Type} {m : MRes α} (h : stops m = true) : ∃ t, m = .stop t := by
  cases m with
  | ok a t => cases h
  | stop t => exact ⟨t, rfl⟩

/-- A line that fails R9, head indices 0 and above H, and lines that are not held: found, refused, and asked of another cube. -/
theorem witness_Fetches :
    lineOk (halfwords (List.replicate 64 0)) = false ∧
    (let h := halfwords (oneHeadLine 0x0080 0)
     lineOk h = true ∧ wbits (0x1000 : Word) 5 1 = 0 ∧ lineH h < wbits (0x103E : Word) 5 1) ∧
    (∀ x ∈ [((0x1000 : Word), List.replicate 64 0), (0x1000, oneHeadLine 0x0080 0), (0x103E, oneHeadLine 0x0080 0)],
      let e := heading x.1 (some ⟨0x1000, x.2⟩) []
      wbit e.c.pc 0 = false ∧ e.c.line = some ⟨0x1000, x.2⟩ ∧ lineAddr e.c.pc = 0x1000 ∧ e.beforeHead.isNone = true) ∧
    (∀ l ∈ [[placed 0x1000, .data 5], [placed 0x1000, .fail 0x12], [away]],
      (heading 0x1002 none l).beforeHead.isNone = true ∧ (heading 0x1002 none l).c.line = none) ∧
    (∃ a u, (heading 0x1002 none [placed 0x1000, .data 5]).fetchLine = .ok a u ∧ (a.isNone && u.c.line.isSome) = true) ∧
    (∃ u, (heading 0x1002 none [placed 0x1000, .fail 0x12]).fetchLine = .ok (some 0x12) u) ∧
    ∃ u, (heading 0x1002 none [away]).fetchLine = .stop u :=
  ⟨by decide +kernel, by decide +kernel, by decide +kernel, by decide +kernel, okThen_ex (by decide +kernel), okAt_ex (by decide +kernel),
    stops_ex (by decide +kernel)⟩

theorem witness_StepsRunTheDecodedInstruction :
    (∃ s1, State.reset.choose = some (.event .cubeReset {}, s1)) ∧
    (∀ h ∈ [(0x0080 : BitVec 16), 0, 0x0081],
      let s := issuing h
      let e := s.enter 127 0
      ∃ s1, s.choose = some (.issue 127, s1) ∧ s1.nextSlot 127 = some 0 ∧ s1.takeable 127 0 = none ∧ (s1.enter 127 0).beforeHead = none ∧
        (s1.enter 127 0).c.pc = e.c.pc) ∧
    (∀ h ∈ [((0x0080 : BitVec 16), Decoded.ok .nop), (0, .undefinedOp), (0x0081, .badEncoding)],
      let e := (issuing h.1).enter 127 0
      let l : LineCopy := e.c.line.getD ⟨0, []⟩
      wbit e.c.pc 0 = false ∧ e.c.line = some l ∧ l.addr = lineAddr e.c.pc ∧ lineOk (halfwords l.bytes) = true ∧ wbits e.c.pc 5 1 = 1 ∧
        1 ≤ lineH (halfwords l.bytes) ∧ decode (hw (halfwords l.bytes) 1) (lineTail (halfwords l.bytes) 1) = h.2) ∧
    (let s := { (issuing 0x0080).updCtx 127 0 (fun c => { c with pc := 0x1003 }) with agenda := [] }
     wbit (s.enter 127 0).c.pc 0 = true) ∧
    -- a wait that has failed; a store that starts an action
    (let s := (issuing 0x0080).updCtx 127 0 (fun c => { c with wait := some { kind := .response, got := some (.fail 0x12) } })
     ((s.enter 127 0).beforeHead).isSome = true) ∧
    fw.acts = [] ∧ (let t := { fw with acts := [(Instr.entdaa, { x := 5 })] }
      t.acts = [(.entdaa, { x := 5 })] ∧ ∃ u, exec .entdaa { t with acts := [], arg := { x := 5 }, accs := 0 } = .next u) := by
  refine ⟨⟨_, rfl⟩, ?_, by decide +kernel, by decide +kernel, by decide +kernel, rfl, rfl, _, rfl⟩
  intro h hm
  simp only [List.mem_cons, List.not_mem_nil, or_false] at hm
  rcases hm with rfl | rfl | rfl <;> exact ⟨_, rfl, by decide +kernel⟩

theorem witness_Invariants :
    NothingOverdue { State.reset with timers := [(5, .heartbeatSend, {})] } ∧ MemoriesWf (win.lmemWrite 31 0 [1, 2]) ∧
      Memory.wf 0 [(3, 1), (7, 2)] = true := by decide +kernel

theorem witness_NothingOverdueIsKept :
    (fw.agenda = [] ∧ ∃ it s1, ({ fw with agenda := [] } : State).choose = some (it, s1)) ∧
    (let s := { fw.updSl (fun _ => {}) with timers := [(5, Instr.heartbeatSend, {})] }
     s.agenda = [] ∧ s.choose = none ∧ ∃ t, step s = .next t) :=
  ⟨⟨rfl, _, _, rfl⟩, by decide +kernel, rfl, _, rfl⟩

theorem witness_MemoriesStayCanonical :
    MemoriesWf (issuing 0x0080) ∧ ∃ t, step (issuing 0x0080) = .next t := ⟨by decide +kernel, _, rfl⟩

theorem witness_CanonicalMemoriesAreUnique :
    Memory.wf 0 [(3, 1), (7, 2)] = true ∧ ∀ a, mget (0 : Byte) [(3, 1), (7, 2)] a = mget 0 [(3, 1), (7, 2)] a :=
  ⟨by decide, fun _ => rfl⟩

/-! ## Worked examples of the specification -/

/-- FPCTL with rounding to nearest even. -/
def rne : FpCtl := { rm := 0, ftz := false }

/-- FPCTL with rounding toward zero. -/
def rtz : FpCtl := { rm := 1, ftz := false }

/-- Conversion to E4M3, worked to the bit (spec/02): 300.0, 460.0, 464.0, 500.0, and 500.0 under RZ. -/
theorem test_convert_e4m3 :
    convElem .f .e4 rne false 0x43960000 = (0x79, flNX) ∧ convElem .f .e4 rne false 0x43E60000 = (0x7E, flNX) ∧
    convElem .f .e4 rne false 0x43E80000 = (0x7E, flNX) ∧ convElem .f .e4 rne false 0x43FA0000 = (0x7F, flOF ||| flNX) ∧
    convElem .f .e4 rne true 0x43FA0000 = (0x7E, flOF ||| flNX) ∧ (convElem .f .e4 rtz false 0x43FA0000).1 = 0x7F ∧
    (convElem .f .e4 rtz true 0x43FA0000).1 = 0x7E := by decide +kernel

/-- Stochastic rounding of FP32 to BF16 (spec/02, R54). -/
theorem test_stochastic_rounding :
    fmtBF.roundStoch false 0xA000 (elemVal .f false 0x3F806000) = (0x3F81, flNX) ∧
    fmtBF.roundStoch false 0x9FFF (elemVal .f false 0x3F806000) = (0x3F80, flNX) := by decide +kernel

/-- Region 3 of the example of spec/10: its entry, and a cube list that holds cubes 0 to 7. -/
def region3 : State :=
  (((fw.setCsr 0x3030 0x8205400700000010).setCsr 0x3038 0x0010000000000100).setCsr 0x8200 0x0003000200010000).setCsr
    0x8208 0x0007000600050004

/-- One GPA resolved (spec/10, R221, R223, R224, R144). -/
theorem test_one_gpa :
    region3.stripe 0x0003000001234567 = some ⟨1, none, 0x1000234567⟩ ∧ homeTile 0x1000234567 = 62 ∧
    vaultOff 0x1000234567 = 0x40008567 ∧ busOf 0x1000234567 = 0 ∧ ownerCore 0x1000234567 = mkCore 113 107 ∧
    region3.stripe (0x0003000000000000 + 256 * 2 ^ 20) = none := by decide +kernel

/-- The command and the ERESUME of the engine fault worked through (spec/15). -/
theorem test_engine_words :
    decode 0xE205 0x1030000000E6 = .ok (.tcopy 5 6 7 .none (some (1, 3))) ∧ decode 0x6600 0 = .ok (.eresume 0) ∧
    acceptReason 0x44 0x5000000000 0x4000000000 0x0FFFF000 = 0 ∧
    chunksOf ({ work 0x44 0x5000000000 0x4000000000 0x0FFFF000 0 with sig := some (1, 3) }).total = 4 := by decide +kernel

/-- The fault record of that example (R328). -/
theorem test_engine_record :
    let c : Cmd := { work 0x44 0x5000000000 0x4000000000 0x0FFFF000 2 with
      head := 0xE205, tail := 0x1030000000E6, sig := some (1, 3), core := 1, slot := 1, asid := 0x400, level := 0 }
    c.record 1 { cause := 0x06, addr := 0x5000008000, cursor := 2, rcube := 0, resumable := true } =
      [0xD406040000000001, 0x1030000000E6E205, 0x5000000000, 0x4000000000, 0x0FFFF000, 0, 0x5000008000, 2] := by
  decide +kernel

/-- A matrix block, exact against sequential (spec/02, R55): 448 + 2^-9 - 448, scaled by 2^20, added to 1.0. -/
theorem test_block_sum :
    let w : WArr := { ty := .e4, mx := true, elems := (List.range 128).map (fun k => (128 * k, 0x38)), scales := [(0, 0x7F), (128, 0x7F), (256, 0x7F), (384, 0x7F)] }
    mmaWord .e4 true ([0x7E, 0x01, 0xFE] ++ List.replicate 125 0) [0x93, 0x7F, 0x7F, 0x7F] w 0x3F800000 0 = 0x45001000 := by
  decide +kernel

/-! ## Single steps -/

theorem test_add_wraps :
    (regs fw [(5, 0xFFFFFFFFFFFFFFFF), (6, 2)]).getX 5 = 0xFFFFFFFFFFFFFFFF ∧
    (match exec (.add 5 5 6) (regs fw [(5, 0xFFFFFFFFFFFFFFFF), (6, 2)]) with
      | .next t => decide (t.getX 5 = 1 ∧ t.c.pc = 0x1042)
      | _ => false) = true := by decide +kernel

/-- R63: the edge cases of division. -/
theorem test_division_edges :
    (match exec (.div 7 5 6) (regs fw [(5, 0x8000000000000000), (6, 0xFFFFFFFFFFFFFFFF)]) with
      | .next t => decide (t.getX 7 = 0x8000000000000000)
      | _ => false) = true ∧
    (match exec (.rem 7 5 0) (regs fw [(5, 0xFFFFFFFFFFFFFFF9)]) with
      | .next t => decide (t.getX 7 = 0xFFFFFFFFFFFFFFF9)
      | _ => false) = true ∧
    (match exec (.rem 7 5 6) (regs fw [(5, 0xFFFFFFFFFFFFFFF9), (6, 2)]) with
      | .next t => decide (t.getX 7 = 0xFFFFFFFFFFFFFFFF)
      | _ => false) = true := by decide +kernel

/-- R17: JALR to an odd address traps with cause 0x04 and writes no link; R69: the link is the next PC, read after X[a]. -/
theorem test_jalr :
    (match exec (.jalr 1 5 0) (regs (low 0) [(1, 9), (5, 0x2001)]) with
      | .next t => decide (t.getX 1 = 9 ∧ t.sl.k.cause = 4 ∧ t.sl.k.tval = 0x2001 ∧ t.sl.k.epc = 0x1002 ∧ t.c.pc = 0x102 ∧ t.level = 1)
      | _ => false) = true ∧
    (match exec (.jalr 5 5 (-1)) (regs fw [(5, 0x2004)]) with
      | .next t => decide (t.getX 5 = 0x1042 ∧ t.c.pc = 0x2002)
      | _ => false) = true := by decide +kernel

/-- R73: a signed byte is extended; R6: the bytes are little-endian. -/
theorem test_store_and_load :
    (match exec (.stS32 12 10 4) (regs win [(12, 0x80FF1234)]) with
      | .next t => (match exec (.ldS16 5 10 6) t with
        | .next u => decide (u.getX 5 = 0xFFFFFFFFFFFF80FF)
        | _ => false) && decide (mget 0 t.lmem (31 * 0x80000 + 4) = 0x34)
      | _ => false) = true := by decide +kernel

/-- R169: TRAP 5 from user level: KEPC is the next PC and KTVAL the code. -/
theorem test_trap :
    (match exec (.trap 5) (low 0) with
      | .next t => decide (t.sl.k.epc = 0x1042 ∧ t.sl.k.tval = 5 ∧ t.sl.k.cause = 0x10 ∧ t.c.pc = 0x402 ∧ t.level = 1)
      | _ => false) = true := by decide +kernel

/-- R90: an unsigned saturating sum of bytes, masked, with zeroing. -/
theorem test_vadds :
    let s := ((fw.updC (fun c => (c.setV 1 0xF0F0).setV 2 0x2008)).setM 3 2)
    (match exec (.vadds 4 1 2 .z8 (some (3, true))) s with
      | .next t => decide (t.c.getV 4 = 0xFF00)
      | _ => false) = true := by decide +kernel

/-- R12: the branch goes back three lines from line 0x1000. -/
theorem test_branch_back :
    (match exec (.bne 5 0 ⟨-3, 2⟩) (regs fw [(5, 1)]) with
      | .next t => decide (t.c.pc = 0xF44)
      | _ => false) = true := by decide +kernel

/-- A placed word is the first that runs after reset (withFetchWord). -/
theorem test_withFetchWord :
    (match step (State.reset.withFetchWord 32 0x020A448A) with
      | .next t => decide ((t.ctx 127 0).getX 10 = 16)
      | _ => false) = true ∧
    decodeTableWord 32 0x020A448A = some (.addi 10 10 16) ∧ decodeTableWord 16 0x0000 = none := by decide +kernel

end Sys2Proof.Tests
end

/-! # Encodings: decoding after encoding (O52), encoding after decoding (O53), words written out by hand (O54) -/

section
set_option Elab.async false
open Sys2Proof

namespace Sys2Proof.Laws.RoundTrip

/-- The family RoundTrip holds of every instruction: its law for each constructor, in the order of the syntax. -/
theorem every (i : Instr) : Statement i :=
  i.casesOn (motive := Statement)
    beq bne blt bge bltZ bgeZ br jal jalr loop bsdone bsmore li liZ lihi addi andi ori xori slli srli srai rori
    addil adr slti sltiZ seqi add sub and or xor andn orn xnor sll srl sra rol ror slt sltZ seq mul mulh mulhZ
    div divZ rem remZ ext extZ ins clz ctz popc brev bswap sext8 sext16 sext32 zext8 zext16 zext32 selNz selZ
    min max minZ maxZ ldS8 ldS16 ldS32 ldS64 ldZ8 ldZ16 ldZ32 ldZ64 stS8 stS16 stS32 stS64 ldx stx ldAcq stRel
    ldff ldfe stef stsf stse ferd pref prefW wb drop vld vst vgath vscat vadd vsub vmul vmulh vmin vmax vand vor
    vxor vandn vsll vsrl vsra vabs vneg vadds vsubs vavg vmac vfadd vfsub vfmul vfdiv vfma vfms vfnma vfmin
    vfmax vfabs vfneg vfsqrt vcmpEq vcmpNe vcmpLt vcmpLe vcmpGt vcmpGe vcmpUnord vcvt vcvtSat vmxpack vmxunpk
    vcvtsr vcvtsrSat vdot vdotf vdotf8 vrsum vrmin vrmax vrfsum vrfmin vrfmax vmov vperm vbcast vins vext vslide
    vzip vunzip vexp2 vlog2 vrcp vrsqrt vsin vcos vtanh vsigm vard vawr mand mor mxor mnot mandn mpopc mfirst
    mset mget sbind sunbind mma amzero amin amout amoutClr tcopy tcopyw tgath tfill cred cmcast estat ecancel
    eresume spawn spawna send recv recvTry lqpush jdec semadd semwait semtry semrd arrive waitb bmiss bmemb
    amoAdd amoAnd amoOr amoXor amoMin amoMax amoMinZ amoMaxZ amoSwap cas cas16 redAdd redAnd redOr redXor redMin
    redMax redMinZ redMaxZ fence trap crrd crwr tlbinv icinv ctxsw ctxflush prset ptload pdrain nop tend yield
    kret fret wfi gets getx putr wbr uread uwrite amor dropr RoundTrip.recall inv rcls rcli upd putg disc dats
    datx datu ack dath ackh putn nack flt backoffExpire feWithdraw waitlimExpire prsetSwitch vectorOpComplete
    engineCommandStart engineCommandComplete engineFault engineRecordWrite pendingMessageDeliver
    barrierPhaseComplete packetArrive bounceReturn sendMessageArrive sendAnswer continuationReturned
    continuationResend dispatch park inboxAging launchStart startBufferReoffer launchComplete watchdogExpire
    lqReset ktimerExpire interruptTake eventReoffer packetRoute decombine journalSplit holdExpire recordExpire
    escapeTimeout ageExpire retryTimeout journalEntryExpire requestFilterExpire dispatcherHoldExpire
    groupReceive heartbeatSend heartbeatMiss portEnable trainingComplete portDownNotice probe probeTimeout
    collectivePacketArrive collectiveResultDeliver cmcastPacketArrive collectiveBufferFree errorDetected
    selfTestComplete logicError patrolScrub coreProbe sparemapWrite lminjWrite cmbinjWrite cmbstatClear vbPause
    vbResume vbtestGo vbtestStepComplete vbmuxWrite busRetire measExtend flashLogWrite cubeReset
    recoveryImageReceive requestUpdate updateImageComplete powerLoss firmwareWriteRequest getVersion
    getCapabilities negotiateAlgorithms getDigests getCertificate challenge getMeasurements entdaa setdasa
    hostWindowRead hostWindowWrite hostMailboxWrite hostDoorbell hostAtomicop hdbRing overtempFailure
    registerWrite sequenceNumberReuse singleFault throttle

end Sys2Proof.Laws.RoundTrip

/-- Settles O52: the law of the instruction's constructor. -/
theorem decodeOfEncode : Obligations.DecodeOfEncode :=
  fun i h t wf encoded => Sys2Proof.Laws.RoundTrip.every i wf h t encoded

namespace Sys2Proof.Laws

/-! ## Fields put together again

The laws of Laws/PerInstr.lean take apart what the encoder put together; these put together what the decoder took
apart: no bit is dropped. -/

/-- Two neighbouring fields of a word, put together, are one field of it. -/
theorem join {w n : Nat} {x : BitVec w} (s m : Nat) {hi : BitVec n} {lo : BitVec m}
    (h : hi = x.extractLsb' (s + m) n) (l : lo = x.extractLsb' s m) : hi ++ lo = x.extractLsb' s (n + m) := by
  subst h l
  exact BitVec.extractLsb'_append_extractLsb'_eq_extractLsb' rfl

theorem ofBool_getLsbD {w : Nat} (x : BitVec w) (i : Nat) : BitVec.ofBool (x.getLsbD i) = x.extractLsb' i 1 := by
  rw [BitVec.getLsbD_eq_extractLsb']
  generalize x.extractLsb' i 1 = b
  revert b; decide

/-- A word below 2 ^ s has only zeros from bit s on. -/
theorem zero_above {w : Nat} {x : BitVec w} {s : Nat} (n : Nat) (h : x.toNat < 2 ^ s) :
    0#n = x.extractLsb' s n := by
  apply BitVec.eq_of_toNat_eq
  simp [BitVec.extractLsb'_toNat, Nat.shiftRight_eq_div_pow, Nat.div_eq_of_lt h]

theorem mk56_lo6 {v : BitVec 11} (h : hi5 v = 0#5) : mk56 0#5 (lo6 v) = v :=
  (join 0 6 h.symm rfl).trans BitVec.extractLsb'_eq_self
theorem mk416_bit6_lo6 {v : BitVec 11} (h : hi4 v = 0#4) : mk416 0#4 (bit6 v) (lo6 v) = v :=
  (join 0 6 (join 6 1 h.symm rfl) rfl).trans BitVec.extractLsb'_eq_self
theorem mk92_lo2 {v : BitVec 11} (h : hi9 v = 0#9) : mk92 0#9 (lo2 v) = v :=
  (join 0 2 h.symm rfl).trans BitVec.extractLsb'_eq_self
theorem mk83_lo3m {v : BitVec 11} (h : hi8 v = 0#8) : mk83 0#8 (lo3m v) = v :=
  (join 0 3 h.symm rfl).trans BitVec.extractLsb'_eq_self
theorem mk74_lo4 {v : BitVec 11} (h : hi7 v = 0#7) : mk74 0#7 (lo4 v) = v :=
  (join 0 4 h.symm rfl).trans BitVec.extractLsb'_eq_self
theorem mk101_bit0 {v : BitVec 11} (h : hi10 v = 0#10) : mk101 (bit0 v) = v :=
  (join 0 1 h.symm (ofBool_getLsbD v 0)).trans BitVec.extractLsb'_eq_self
theorem mk1512_lo12 {v : BitVec 27} (h : hi15 v = 0#15) : mk1512 0#15 (lo12 v) = v :=
  (join 0 12 h.symm rfl).trans BitVec.extractLsb'_eq_self

theorem mkAmo_fields {v : BitVec 11} {rel acq w : Bool} (h : hi5 v = 0#5) (hrel : bit2 v = rel) (hacq : bit1 v = acq)
    (hw : bit0 v = w) : mkAmo (sc3 v) rel acq w = v := by
  subst hrel hacq hw
  exact (join 0 1 (join 1 1 (join 2 1 (join 3 3 h.symm rfl) (ofBool_getLsbD v 2)) (ofBool_getLsbD v 1))
    (ofBool_getLsbD v 0)).trans BitVec.extractLsb'_eq_self
theorem mkFence_fields {v : BitVec 11} (h : hi5 v = 0#5) : mkFence (bit5 v) (bit4 v) (bit3 v) (lo3m v) = v :=
  (join 0 3 (join 3 1 (join 4 1 (join 5 1 h.symm (ofBool_getLsbD v 5)) (ofBool_getLsbD v 4)) (ofBool_getLsbD v 3))
    rfl).trans BitVec.extractLsb'_eq_self

theorem hi1_mk15 (b : BitVec 1) (c : Reg) : hi1 (mk15 b c) = b := by revert b c; decide
theorem lo5_mk15 (b : BitVec 1) (c : Reg) : lo5 (mk15 b c) = c := by revert b c; decide
theorem mk11_lsb {s : BitVec 2} {b : Bool} : msb s = b → mk11 b (lsb s) = s := by revert s b; decide
theorem vreg_vlo {r : Reg} : vhi r = true → vreg (vlo r) = r := by revert r; decide
theorem mreg_mlo {r : Reg} : m3 r = true → mreg (mlo r) = r := by revert r; decide

theorem mk33_mty {f : BitVec 6} : hi3f f = 0#3 → mk33 0#3 (MTy.dec (lo3 f)).enc = f := by revert f; decide
theorem mk33_msize {f : BitVec 6} : hi3f f = 1#3 → t4 f = true → mk33 1#3 (MSize.dec (lo2f f)).enc = f := by
  revert f; decide

theorem scopeEnc_dec {code : BitVec 3} {c : Reg} : scopeOk code c = true → (Scope.dec code c).enc = code := by
  revert code c; decide
theorem scopeReg_dec {code : BitVec 3} {c : Reg} : scopeOk code c = true → (Scope.dec code c).reg = c := by
  revert code c; decide

/-- R13: the fields of a legal wait are those of the wait read from them. -/
theorem wait_fields {mode : BitVec 2} {ws : BitVec 8} {imm : BitVec 11} {c : Reg} (h : waitOk mode ws imm c = true) :
    (EWait.dec mode ws imm c).mode = mode ∧ (EWait.dec mode ws imm c).sem = ws ∧
      (EWait.dec mode ws imm c).imm = imm ∧ (EWait.dec mode ws imm c).reg = c := by
  simp only [waitOk, Bool.or_eq_true, Bool.and_eq_true, decide_eq_true_eq] at h
  rcases h with (⟨⟨⟨rfl, rfl⟩, rfl⟩, rfl⟩ | ⟨rfl, rfl⟩) | rfl
  · exact ⟨rfl, rfl, rfl, rfl⟩
  · exact ⟨rfl, rfl, rfl, rfl⟩
  · exact ⟨rfl, rfl, rfl, rfl⟩

/-- R13: the fields of a legal signal are those of the signal read from them. -/
theorem signal_fields {inc : BitVec 4} {ss : BitVec 8} (h : signalEncOk inc ss = true) :
    sigInc (signalDec inc ss) = inc ∧ sigSem (signalDec inc ss) = ss := by
  by_cases hi : inc = 0
  · subst hi
    have hs : ss = 0 := by simpa [signalEncOk] using h
    subst hs
    exact ⟨rfl, rfl⟩
  · simp [signalDec, show inc ≠ 0#4 from hi, sigInc, sigSem]

theorem code4_ofCode {n : BitVec 4} {t : ETy} : ETy.ofCode n.toNat = some t → t.code4 = n := by
  revert n t; decide

/-- R25: the element type and the mask read from mod11 are put together to the same mod11. -/
theorem modTM_dec {md : BitVec 11} {t : ETy} {m : Mask} (ht : ETy.ofCode (lo4 md).toNat = some t)
    (hm : maskDec md = some m) : modTM t m = md := by
  have code := code4_ofCode ht
  unfold maskDec at hm
  split at hm
  · cases hm
  · rename_i high
    have high : 0#2 = md.extractLsb' 9 2 := by simpa using Eq.symm (Decidable.not_not.mp (by simpa using high))
    split at hm
    · rename_i masked
      cases hm
      have one : 1#1 = md.extractLsb' 7 1 := by rw [← ofBool_getLsbD, masked]; rfl
      exact (join 0 4 (join 4 3 (join 7 1 (join 8 1 high (ofBool_getLsbD md 8)) one) rfl) code).trans
        BitVec.extractLsb'_eq_self
    · split at hm
      · rename_i none
        cases hm
        exact (join 0 4 (join 4 5 high none.symm) code).trans BitVec.extractLsb'_eq_self
      · cases hm

/-- R26: the zeroing bit of a reduction is zero, and its mask loses nothing without it. -/
theorem modTM_dropZero {t : ETy} {m : Mask} (h : zbit (modTM t m) = false) :
    modTM t (m.map ((fun r => (r, false)) ∘ Prod.fst)) = modTM t m := by
  rcases m with _ | ⟨r, z⟩
  · rfl
  · cases z
    · rfl
    · exact absurd h (by revert r; cases t <;> decide)

theorem ety_reg_dec {c : Reg} {s : ETy} : c.getLsbD 4 = false → ETy.ofCode (c.extractLsb' 0 4).toNat = some s →
    s.reg = c := by
  cases s <;> revert c <;> decide

/-! ## Instructions read from their fields -/

/-- Whatever instruction `e` answers has the encoding with the head fields `h` and the tail `t`. -/
def Reads (e : Option Instr) (h : HeadF) (t : Tail) : Prop := ∀ i, e = some i → encodeFields i = some (h, t)

section
variable {h h' : HeadF} {tl tl' : Tail} {p : Prop} [Decidable p] {md : BitVec 11} {e : Option Instr}

@[simp] theorem reads_none : Reads none h tl := fun _ none => nomatch none

theorem reads_some {i : Instr} (enc : encodeFields i = some (h', tl')) (same : h' = h ∧ tl' = tl) :
    Reads (some i) h tl := by
  obtain ⟨rfl, rfl⟩ := same
  exact fun j hj => Option.some.inj hj ▸ enc

theorem reads_ite {e' : Option Instr} (yes : p → Reads e h tl) (no : Reads e' h tl) :
    Reads (if p then e else e') h tl := by
  by_cases hp : p
  · simpa [hp] using yes hp
  · simpa [hp] using no

/-- R25: mod11 loses nothing to the element type and the mask that are read from it. -/
theorem reads_withTMo {k : ETy → Mask → Option Instr} (r : ∀ t m, modTM t m = md → Reads (k t m) h tl) :
    Reads (withTMo md k) h tl := by
  unfold withTMo
  split
  · rename_i t m ht hm
    exact r t m (modTM_dec ht hm)
  · exact reads_none

/-- R26: nor does field c to the source type. -/
theorem reads_withSTMo {c : Reg} {k : ETy → ETy → Mask → Option Instr}
    (r : ∀ s t m, s.reg = c → modTM t m = md → Reads (k s t m) h tl) : Reads (withSTMo md c k) h tl := by
  unfold withSTMo
  split
  · exact reads_none
  · rename_i high
    split
    · rename_i s hs
      exact reads_withTMo (fun t m => r s t m (ety_reg_dec (by simpa using high) hs))
    · exact reads_none

/-- One row of a table of R22 to R28: the instruction's fields are those that the row asks for. -/
theorem reads_row {i : Instr} (enc : encodeFields i = some (h', tl')) (same : p → h' = h ∧ tl' = tl)
    (rest : Reads e h tl) : Reads (if p then some i else e) h tl :=
  reads_ite (fun hp => reads_some enc (same hp)) rest

/-- A row whose instructions carry an element type and a mask. -/
theorem reads_rowTM {k : ETy → Mask → Instr} {tlOf : ETy → Mask → Tail}
    (enc : ∀ t m, encodeFields (k t m) = some (h', tlOf t m))
    (same : p → ∀ t m, modTM t m = md → h' = h ∧ tlOf t m = tl) (rest : Reads e h tl) :
    Reads (if p then withTM md k else e) h tl :=
  reads_ite (fun hp => reads_withTMo fun t m hm => reads_some (enc t m) (same hp t m hm)) rest

/-- A row whose instructions carry a source type, an element type and a mask. -/
theorem reads_rowSTM {c : Reg} {k : ETy → ETy → Mask → Instr} {tlOf : ETy → ETy → Mask → Tail}
    (enc : ∀ s t m, encodeFields (k s t m) = some (h', tlOf s t m))
    (same : p → ∀ s t m, s.reg = c → modTM t m = md → h' = h ∧ tlOf s t m = tl) (rest : Reads e h tl) :
    Reads (if p then withSTM md c k else e) h tl :=
  reads_ite (fun hp => reads_withSTMo fun s t m hs hm => reads_some (enc s t m) (same hp s t m hs hm)) rest

/-- A row whose instructions carry an element type and take no mask. -/
theorem reads_rowT {k : ETy → Instr} {tlOf : ETy → Tail} (enc : ∀ t, encodeFields (k t) = some (h', tlOf t))
    (same : p → ∀ t, modTM t none = md → h' = h ∧ tlOf t = tl) (rest : Reads e h tl) :
    Reads (if p then withTMo md (fun t m => if m = none then some (k t) else none) else e) h tl :=
  reads_ite (fun hp => reads_withTMo fun t _ hm =>
    reads_ite (fun none => reads_some (enc t) (same hp t (none ▸ hm))) reads_none) rest

/-- A row whose instructions carry a source type and an element type and take no mask. -/
theorem reads_rowST {c : Reg} {k : ETy → ETy → Instr} {tlOf : ETy → ETy → Tail}
    (enc : ∀ s t, encodeFields (k s t) = some (h', tlOf s t))
    (same : p → ∀ s t, s.reg = c → modTM t none = md → h' = h ∧ tlOf s t = tl) (rest : Reads e h tl) :
    Reads (if p then withSTMo md c (fun s t m => if m = none then some (k s t) else none) else e) h tl :=
  reads_ite (fun hp => reads_withSTMo fun s t _ hs hm =>
    reads_ite (fun none => reads_some (enc s t) (same hp s t hs (none ▸ hm))) reads_none) rest

end

/-! ### The tables of R22 to R28, one OP after the other -/

section
variable {sel : BitVec 2} {d a b c : Reg} {f : BitVec 6} {md : BitVec 11} {dl : BitVec 17} {ix : BitVec 5}
variable {inc : BitVec 4} {ss ws : BitVec 8} {mode : BitVec 2}

theorem reads_dec01 : Reads (dec01 sel d) ⟨0x01, sel, d⟩ .none := by
  unfold dec01
  repeat' refine reads_row rfl ?_ ?_
  all_goals simp +contextual

theorem reads_dec02 : Reads (dec02 sel d dl ix b a) ⟨0x02, sel, d⟩ (.br dl ix b a) := by
  unfold dec02
  repeat' refine reads_row rfl ?_ ?_
  all_goals simp +contextual

theorem reads_dec03 : Reads (dec03 sel d dl ix b a) ⟨0x03, sel, d⟩ (.br dl ix b a) := by
  unfold dec03
  repeat' refine reads_row rfl ?_ ?_
  all_goals simp +contextual

theorem reads_dec04 {imm : BitVec 11} : Reads (dec04 sel d imm a) ⟨0x04, sel, d⟩ (.i imm a) := by
  unfold dec04
  repeat' refine reads_row rfl ?_ ?_
  all_goals simp +contextual

theorem reads_dec05 : Reads (dec05 sel d dl ix b a) ⟨0x05, sel, d⟩ (.br dl ix b a) := by
  unfold dec05
  repeat' refine reads_row rfl ?_ ?_
  all_goals simp +contextual

theorem reads_dec06 : Reads (dec06 sel d dl ix b a) ⟨0x06, sel, d⟩ (.br dl ix b a) := by
  unfold dec06
  repeat' refine reads_row rfl ?_ ?_
  all_goals simp +contextual [vreg_vlo]

theorem reads_dec08 {imm : BitVec 32} {f : BitVec 11} :
    Reads (dec08 sel d imm f a) ⟨0x08, sel, d⟩ (.i48 imm f a) := by
  unfold dec08
  repeat' refine reads_row rfl ?_ ?_
  all_goals simp +contextual

theorem reads_dec09 {imm : BitVec 11} : Reads (dec09 sel d imm a) ⟨0x09, sel, d⟩ (.i imm a) := by
  unfold dec09
  repeat' refine reads_row rfl ?_ ?_
  all_goals simp +contextual

theorem reads_dec0A {imm : BitVec 11} : Reads (dec0A sel d imm a) ⟨0x0a, sel, d⟩ (.i imm a) := by
  unfold dec0A
  repeat' refine reads_row rfl ?_ ?_
  all_goals simp +contextual [mk56_lo6]

theorem reads_dec0B {imm : BitVec 27} : Reads (dec0B sel d imm a) ⟨0x0b, sel, d⟩ (.i27 imm a) := by
  unfold dec0B
  repeat' refine reads_row rfl ?_ ?_
  all_goals simp +contextual

theorem reads_dec0C {imm : BitVec 27} : Reads (dec0C sel d imm a) ⟨0x0c, sel, d⟩ (.i27 imm a) := by
  unfold dec0C
  repeat' refine reads_row rfl ?_ ?_
  all_goals simp +contextual

theorem reads_dec0D {imm : BitVec 11} : Reads (dec0D sel d imm a) ⟨0x0d, sel, d⟩ (.i imm a) := by
  unfold dec0D
  repeat' refine reads_row rfl ?_ ?_
  all_goals simp +contextual

theorem reads_dec10 : Reads (dec10 sel d f b a) ⟨0x10, sel, d⟩ (.r f b a) := by
  unfold dec10
  repeat' refine reads_row rfl ?_ ?_
  all_goals simp +contextual

theorem reads_dec11 : Reads (dec11 sel d f b a) ⟨0x11, sel, d⟩ (.r f b a) := by
  unfold dec11
  repeat' refine reads_row rfl ?_ ?_
  all_goals simp +contextual

theorem reads_dec12 : Reads (dec12 sel d md f c b a) ⟨0x12, sel, d⟩ (.x md f c b a) := by
  unfold dec12
  repeat' refine reads_row rfl ?_ ?_
  all_goals simp +contextual [mk416_bit6_lo6, hi1_mk15, lo5_mk15]

theorem reads_dec13 : Reads (dec13 sel d f b a) ⟨0x13, sel, d⟩ (.r f b a) := by
  unfold dec13
  repeat' refine reads_row rfl ?_ ?_
  all_goals simp +contextual

theorem reads_dec14 : Reads (dec14 sel d md f c b a) ⟨0x14, sel, d⟩ (.x md f c b a) := by
  unfold dec14
  repeat' refine reads_row rfl ?_ ?_
  all_goals simp +contextual

theorem reads_dec18 {imm : BitVec 11} : Reads (dec18 sel d imm a) ⟨0x18, sel, d⟩ (.i imm a) := by
  unfold dec18
  repeat' refine reads_row rfl ?_ ?_
  all_goals simp +contextual

theorem reads_dec19 {imm : BitVec 11} : Reads (dec19 sel d imm a) ⟨0x19, sel, d⟩ (.i imm a) := by
  unfold dec19
  repeat' refine reads_row rfl ?_ ?_
  all_goals simp +contextual

theorem reads_dec1A {imm : BitVec 11} : Reads (dec1A sel d imm a) ⟨0x1a, sel, d⟩ (.i imm a) := by
  unfold dec1A
  repeat' refine reads_row rfl ?_ ?_
  all_goals simp +contextual

theorem reads_dec1B : Reads (dec1B sel d md f c b a) ⟨0x1b, sel, d⟩ (.x md f c b a) := by
  unfold dec1B
  repeat' refine reads_row rfl ?_ ?_
  all_goals simp +contextual [mk92_lo2, mk33_mty, mk33_msize]

theorem reads_dec1C : Reads (dec1C sel d md f c b a) ⟨0x1c, sel, d⟩ (.x md f c b a) := by
  unfold dec1C
  repeat' refine reads_row rfl ?_ ?_
  all_goals simp +contextual [mk83_lo3m, mk33_mty, mk33_msize, scopeEnc_dec, scopeReg_dec]

theorem reads_dec1D : Reads (dec1D sel d md f c b a) ⟨0x1d, sel, d⟩ (.x md f c b a) := by
  unfold dec1D
  repeat' refine reads_row rfl ?_ ?_
  all_goals simp +contextual

theorem reads_dec1E {imm : BitVec 11} : Reads (dec1E sel d imm a) ⟨0x1e, sel, d⟩ (.i imm a) := by
  unfold dec1E
  repeat' refine reads_row rfl ?_ ?_
  all_goals simp +contextual

theorem reads_dec20 {imm : BitVec 11} : Reads (dec20 sel d imm a) ⟨0x20, sel, d⟩ (.i imm a) := by
  unfold dec20
  repeat' refine reads_row rfl ?_ ?_
  all_goals simp +contextual

theorem reads_dec21 : Reads (dec21 sel d md f c b a) ⟨0x21, sel, d⟩ (.x md f c b a) := by
  unfold dec21
  repeat' refine reads_rowTM (fun _ _ => rfl) ?_ ?_
  all_goals simp +contextual

theorem reads_dec22 : Reads (dec22 sel d md f c b a) ⟨0x22, sel, d⟩ (.x md f c b a) := by
  unfold dec22
  repeat' refine reads_rowTM (fun _ _ => rfl) ?_ ?_
  all_goals simp +contextual

theorem reads_dec23 : Reads (dec23 sel d md f c b a) ⟨0x23, sel, d⟩ (.x md f c b a) := by
  unfold dec23
  repeat' refine reads_rowTM (fun _ _ => rfl) ?_ ?_
  all_goals simp +contextual

theorem reads_dec24 : Reads (dec24 sel d md f c b a) ⟨0x24, sel, d⟩ (.x md f c b a) := by
  unfold dec24
  repeat' refine reads_rowTM (fun _ _ => rfl) ?_ ?_
  all_goals simp +contextual [mreg_mlo]

theorem reads_dec25 : Reads (dec25 sel d md f c b a) ⟨0x25, sel, d⟩ (.x md f c b a) := by
  unfold dec25
  iterate 2 refine reads_rowSTM (fun _ _ _ => rfl) ?_ ?_; rotate_left
  iterate 2 refine reads_rowST (fun _ _ => rfl) ?_ ?_; rotate_left
  all_goals simp +contextual

theorem reads_dec26 : Reads (dec26 sel d md f c b a) ⟨0x26, sel, d⟩ (.x md f c b a) := by
  unfold dec26
  repeat' refine reads_rowSTM (fun _ _ _ => rfl) ?_ ?_
  all_goals simp +contextual

theorem reads_dec27 : Reads (dec27 sel d md f c b a) ⟨0x27, sel, d⟩ (.x md f c b a) := by
  unfold dec27
  repeat' refine reads_rowTM (fun _ _ => rfl) ?_ ?_
  all_goals simp +contextual

theorem reads_dec28 : Reads (dec28 sel d md f c b a) ⟨0x28, sel, d⟩ (.x md f c b a) := by
  unfold dec28
  repeat' refine reads_rowTM (fun _ _ => rfl) ?_ ?_
  all_goals simp +contextual [modTM_dropZero]

theorem reads_dec29 : Reads (dec29 sel d md f c b a) ⟨0x29, sel, d⟩ (.x md f c b a) := by
  unfold dec29
  iterate 3 refine reads_rowTM (fun _ _ => rfl) ?_ ?_; rotate_left
  iterate 2 refine reads_rowT (fun _ => rfl) ?_ ?_; rotate_left
  iterate 3 refine reads_rowTM (fun _ _ => rfl) ?_ ?_; rotate_left
  all_goals simp +contextual

theorem reads_dec2A : Reads (dec2A sel d md f c b a) ⟨0x2a, sel, d⟩ (.x md f c b a) := by
  unfold dec2A
  repeat' refine reads_rowTM (fun _ _ => rfl) ?_ ?_
  all_goals simp +contextual

theorem reads_dec2B : Reads (dec2B sel d md f c b a) ⟨0x2b, sel, d⟩ (.x md f c b a) := by
  unfold dec2B
  repeat' refine reads_row rfl ?_ ?_
  all_goals simp +contextual [mk101_bit0]

theorem reads_dec2C : Reads (dec2C sel d f b a) ⟨0x2c, sel, d⟩ (.r f b a) := by
  unfold dec2C
  repeat' refine reads_row rfl ?_ ?_
  all_goals simp +contextual [mreg_mlo]

theorem reads_dec2D : Reads (dec2D sel d f b a) ⟨0x2d, sel, d⟩ (.r f b a) := by
  unfold dec2D
  repeat' refine reads_row rfl ?_ ?_
  all_goals simp +contextual [vreg_vlo]

theorem reads_dec40 {imm : BitVec 11} :
    Reads (dec40 sel d inc ss imm mode ws c b a) ⟨0x40, sel, d⟩ (.e inc ss imm mode ws c b a) := by
  unfold dec40
  repeat' refine reads_row rfl ?_ ?_
  all_goals simp +contextual [mk11_lsb, wait_fields, signal_fields]

theorem reads_dec41 {imm : BitVec 11} :
    Reads (dec41 sel d inc ss imm mode ws c b a) ⟨0x41, sel, d⟩ (.e inc ss imm mode ws c b a) := by
  unfold dec41
  repeat' refine reads_row rfl ?_ ?_
  all_goals simp +contextual [mk11_lsb, wait_fields, signal_fields]

theorem reads_dec42 {imm : BitVec 11} :
    Reads (dec42 sel d inc ss imm mode ws c b a) ⟨0x42, sel, d⟩ (.e inc ss imm mode ws c b a) := by
  unfold dec42
  repeat' refine reads_row rfl ?_ ?_
  all_goals simp +contextual [mk11_lsb, wait_fields, signal_fields]

theorem reads_dec43 {imm : BitVec 11} :
    Reads (dec43 sel d inc ss imm mode ws c b a) ⟨0x43, sel, d⟩ (.e inc ss imm mode ws c b a) := by
  unfold dec43
  repeat' refine reads_row rfl ?_ ?_
  all_goals simp +contextual [mk11_lsb, wait_fields, signal_fields]

theorem reads_dec44 {imm : BitVec 11} :
    Reads (dec44 sel d inc ss imm mode ws c b a) ⟨0x44, sel, d⟩ (.e inc ss imm mode ws c b a) := by
  unfold dec44
  repeat' refine reads_row rfl ?_ ?_
  all_goals simp +contextual [wait_fields, signal_fields]

theorem reads_dec46 {imm : BitVec 11} :
    Reads (dec46 sel d inc ss imm mode ws c b a) ⟨0x46, sel, d⟩ (.e inc ss imm mode ws c b a) := by
  unfold dec46
  repeat' refine reads_row rfl ?_ ?_
  all_goals simp +contextual [wait_fields, signal_fields]

theorem reads_dec47 {imm : BitVec 11} :
    Reads (dec47 sel d inc ss imm mode ws c b a) ⟨0x47, sel, d⟩ (.e inc ss imm mode ws c b a) := by
  unfold dec47
  repeat' refine reads_row rfl ?_ ?_
  all_goals simp +contextual [wait_fields, signal_fields]

theorem reads_dec48 {imm : BitVec 11} :
    Reads (dec48 sel d inc ss imm mode ws c b a) ⟨0x48, sel, d⟩ (.e inc ss imm mode ws c b a) := by
  unfold dec48
  repeat' refine reads_row rfl ?_ ?_
  all_goals simp +contextual [wait_fields, signal_fields]

theorem reads_dec49 {imm : BitVec 11} :
    Reads (dec49 sel d inc ss imm mode ws c b a) ⟨0x49, sel, d⟩ (.e inc ss imm mode ws c b a) := by
  unfold dec49
  repeat' refine reads_row rfl ?_ ?_
  all_goals simp +contextual [wait_fields, signal_fields]

theorem reads_dec45 {imm : BitVec 11} :
    Reads (dec45 sel d inc ss imm mode ws c b a) ⟨0x45, sel, d⟩ (.e inc ss imm mode ws c b a) := by
  unfold dec45
  repeat' refine reads_row rfl ?_ ?_
  all_goals simp +contextual [mk11_lsb, wait_fields, signal_fields]

theorem reads_dec4A : Reads (dec4A sel d f b a) ⟨0x4a, sel, d⟩ (.r f b a) := by
  unfold dec4A
  repeat' refine reads_row rfl ?_ ?_
  all_goals simp +contextual

theorem reads_dec4B : Reads (dec4B sel d f b a) ⟨0x4b, sel, d⟩ (.r f b a) := by
  unfold dec4B
  repeat' refine reads_row rfl ?_ ?_
  all_goals simp +contextual

theorem reads_dec4C {imm : BitVec 11} : Reads (dec4C sel d imm a) ⟨0x4c, sel, d⟩ (.i imm a) := by
  unfold dec4C
  repeat' refine reads_row rfl ?_ ?_
  all_goals simp +contextual [mk83_lo3m]

theorem reads_dec50 : Reads (dec50 sel d f b a) ⟨0x50, sel, d⟩ (.r f b a) := by
  unfold dec50
  repeat' refine reads_row rfl ?_ ?_
  all_goals simp +contextual

theorem reads_dec51 {imm : BitVec 11} : Reads (dec51 sel d imm a) ⟨0x51, sel, d⟩ (.i imm a) := by
  unfold dec51
  repeat' refine reads_row rfl ?_ ?_
  all_goals simp +contextual

theorem reads_dec52 : Reads (dec52 sel d f b a) ⟨0x52, sel, d⟩ (.r f b a) := by
  unfold dec52
  repeat' refine reads_row rfl ?_ ?_
  all_goals simp +contextual

theorem reads_dec53 : Reads (dec53 sel d f b a) ⟨0x53, sel, d⟩ (.r f b a) := by
  unfold dec53
  repeat' refine reads_row rfl ?_ ?_
  all_goals simp +contextual

theorem reads_dec54 : Reads (dec54 sel d) ⟨0x54, sel, d⟩ .none := by
  unfold dec54
  repeat' refine reads_row rfl ?_ ?_
  all_goals simp +contextual

theorem reads_dec55 : Reads (dec55 sel d f b a) ⟨0x55, sel, d⟩ (.r f b a) := by
  unfold dec55
  repeat' refine reads_row rfl ?_ ?_
  all_goals simp +contextual [mk11_lsb]

theorem reads_dec56 {imm : BitVec 11} : Reads (dec56 sel d imm a) ⟨0x56, sel, d⟩ (.i imm a) := by
  unfold dec56
  repeat' refine reads_row rfl ?_ ?_
  all_goals simp +contextual [mk74_lo4]

theorem reads_dec57 : Reads (dec57 sel d md f c b a) ⟨0x57, sel, d⟩ (.x md f c b a) := by
  unfold dec57
  repeat' refine reads_row rfl ?_ ?_
  all_goals simp +contextual [mkAmo_fields, scopeEnc_dec, scopeReg_dec]

theorem reads_dec58 : Reads (dec58 sel d md f c b a) ⟨0x58, sel, d⟩ (.x md f c b a) := by
  unfold dec58
  repeat' refine reads_row rfl ?_ ?_
  all_goals simp +contextual [mkAmo_fields, scopeEnc_dec, scopeReg_dec]

theorem reads_dec59 : Reads (dec59 sel d md f c b a) ⟨0x59, sel, d⟩ (.x md f c b a) := by
  unfold dec59
  repeat' refine reads_row rfl ?_ ?_
  all_goals simp +contextual [mkAmo_fields, scopeEnc_dec, scopeReg_dec]

theorem reads_dec5A {imm : BitVec 11} : Reads (dec5A sel d imm a) ⟨0x5a, sel, d⟩ (.i imm a) := by
  unfold dec5A
  repeat' refine reads_row rfl ?_ ?_
  all_goals simp +contextual [mkFence_fields, scopeEnc_dec, scopeReg_dec]

theorem reads_dec60 {imm : BitVec 11} : Reads (dec60 sel d imm a) ⟨0x60, sel, d⟩ (.i imm a) := by
  unfold dec60
  repeat' refine reads_row rfl ?_ ?_
  all_goals simp +contextual

theorem reads_dec61 : Reads (dec61 sel d) ⟨0x61, sel, d⟩ .none := by
  unfold dec61
  repeat' refine reads_row rfl ?_ ?_
  all_goals simp +contextual

theorem reads_dec62 {imm : BitVec 27} : Reads (dec62 sel d imm a) ⟨0x62, sel, d⟩ (.i27 imm a) := by
  unfold dec62
  repeat' refine reads_row rfl ?_ ?_
  all_goals simp +contextual [mk1512_lo12]

theorem reads_dec63 : Reads (dec63 sel d f b a) ⟨0x63, sel, d⟩ (.r f b a) := by
  unfold dec63
  repeat' refine reads_row rfl ?_ ?_
  all_goals simp +contextual

theorem reads_dec64 : Reads (dec64 sel d f b a) ⟨0x64, sel, d⟩ (.r f b a) := by
  unfold dec64
  repeat' refine reads_row rfl ?_ ?_
  all_goals simp +contextual

theorem reads_dec66 : Reads (dec66 sel d f b a) ⟨0x66, sel, d⟩ (.r f b a) := by
  unfold dec66
  repeat' refine reads_row rfl ?_ ?_
  all_goals simp +contextual

theorem reads_dec67 : Reads (dec67 sel d f b a) ⟨0x67, sel, d⟩ (.r f b a) := by
  unfold dec67
  repeat' refine reads_row rfl ?_ ?_
  all_goals simp +contextual

theorem reads_dec68 : Reads (dec68 sel d f b a) ⟨0x68, sel, d⟩ (.r f b a) := by
  unfold dec68
  repeat' refine reads_row rfl ?_ ?_
  all_goals simp +contextual

theorem reads_dec65 : Reads (dec65 sel d f b a) ⟨0x65, sel, d⟩ (.r f b a) := by
  unfold dec65
  repeat' refine reads_row rfl ?_ ?_
  all_goals simp +contextual

end

/-- An OP and its fields are read as an instruction with that OP and those fields: the rows of the table of formats in
its own order, each with the one tail that its format leaves. -/
theorem reads_decodeFields {op : Nat} {sel : BitVec 2} {d : Reg} {t : Tail}
    (hf : opFormat op = some t.format) : Reads (decodeFields op sel d t) ⟨op, sel, d⟩ t := by
  unfold opFormat at hf
  split at hf <;> cases t <;> cases hf
  · exact reads_dec01
  · exact reads_dec02
  · exact reads_dec03
  · exact reads_dec04
  · exact reads_dec05
  · exact reads_dec06
  · exact reads_dec08
  · exact reads_dec09
  · exact reads_dec0A
  · exact reads_dec0B
  · exact reads_dec0C
  · exact reads_dec0D
  · exact reads_dec10
  · exact reads_dec11
  · exact reads_dec12
  · exact reads_dec13
  · exact reads_dec14
  · exact reads_dec18
  · exact reads_dec19
  · exact reads_dec1A
  · exact reads_dec1B
  · exact reads_dec1C
  · exact reads_dec1D
  · exact reads_dec1E
  · exact reads_dec20
  · exact reads_dec21
  · exact reads_dec22
  · exact reads_dec23
  · exact reads_dec24
  · exact reads_dec25
  · exact reads_dec26
  · exact reads_dec27
  · exact reads_dec28
  · exact reads_dec29
  · exact reads_dec2A
  · exact reads_dec2B
  · exact reads_dec2C
  · exact reads_dec2D
  · exact reads_dec40
  · exact reads_dec41
  · exact reads_dec42
  · exact reads_dec43
  · exact reads_dec44
  · exact reads_dec46
  · exact reads_dec47
  · exact reads_dec48
  · exact reads_dec49
  · exact reads_dec45
  · exact reads_dec4A
  · exact reads_dec4B
  · exact reads_dec4C
  · exact reads_dec50
  · exact reads_dec51
  · exact reads_dec52
  · exact reads_dec53
  · exact reads_dec54
  · exact reads_dec55
  · exact reads_dec56
  · exact reads_dec57
  · exact reads_dec58
  · exact reads_dec59
  · exact reads_dec5A
  · exact reads_dec60
  · exact reads_dec61
  · exact reads_dec62
  · exact reads_dec63
  · exact reads_dec64
  · exact reads_dec66
  · exact reads_dec67
  · exact reads_dec68
  · exact reads_dec65

/-! ## Heads and tails -/

/-- R12: the fields of a tail are put back to the bits they were read from. -/
theorem pack_unpack (fm : Format) {v : BitVec 48} (short : v.toNat < 2 ^ (16 * fm.tl)) :
    (Tail.unpack fm v).pack = v := by
  cases fm with
  | none => exact (zero_above 48 short).trans BitVec.extractLsb'_eq_self
  | r => exact (join 0 5 (join 5 5 (join 10 6 (zero_above 32 short) rfl) rfl) rfl).trans BitVec.extractLsb'_eq_self
  | i => exact (join 0 5 (join 5 11 (zero_above 32 short) rfl) rfl).trans BitVec.extractLsb'_eq_self
  | x =>
    exact (join 0 5 (join 5 5 (join 10 5 (join 15 6 (join 21 11 (zero_above 16 short) rfl) rfl) rfl) rfl) rfl).trans
      BitVec.extractLsb'_eq_self
  | i27 => exact (join 0 5 (join 5 27 (zero_above 16 short) rfl) rfl).trans BitVec.extractLsb'_eq_self
  | br =>
    exact (join 0 5 (join 5 5 (join 10 5 (join 15 17 (zero_above 16 short) rfl) rfl) rfl) rfl).trans
      BitVec.extractLsb'_eq_self
  | i48 => exact (join 0 5 (join 5 11 rfl rfl) rfl).trans BitVec.extractLsb'_eq_self
  | e =>
    exact (join 0 5 (join 5 5 (join 10 5 (join 15 8 (join 23 2 (join 25 11 (join 36 8 rfl rfl) rfl) rfl) rfl) rfl) rfl)
      rfl).trans BitVec.extractLsb'_eq_self

theorem format_unpack (fm : Format) (v : BitVec 48) : (Tail.unpack fm v).format = fm := by cases fm <;> rfl

/-- R11: the fields of a head are put back to the bits they were read from. -/
theorem packHead_fields (h : BitVec 16) : packHead (headTL h) ⟨headOP h, headSel h, headD h⟩ = h := by
  simp only [packHead, headTL, headOP, BitVec.ofNat_toNat, BitVec.setWidth_eq]
  exact (join 0 5 (join 5 2 (join 7 7 rfl rfl) rfl) rfl).trans BitVec.extractLsb'_eq_self

/-- What a decoded head says: its OP has the format that its TL asks for, its fields name the instruction, and the
instruction is well formed (R29 steps 3 and 4). -/
theorem fields_of_decode {h : BitVec 16} {t : BitVec 48} {i : Instr} (dec : decode h t = .ok i) :
    ∃ fm, opFormat (headOP h) = some fm ∧ headTL h = fm.tl ∧
      decodeFields (headOP h) (headSel h) (headD h) (Tail.unpack fm t) = some i ∧ i.wellFormed = true := by
  unfold decode at dec
  split at dec
  · cases dec
  · rename_i fm format
    split at dec
    · cases dec
    · rename_i tl
      split at dec
      · rename_i j fields
        split at dec
        · rename_i wf
          cases dec
          exact ⟨fm, format, Decidable.not_not.mp tl, fields, wf⟩
        · cases dec
      · cases dec

theorem encode_of_decode {h : BitVec 16} {t : BitVec 48} {i : Instr} (dec : decode h t = .ok i)
    (short : t.toNat < 2 ^ (16 * headTL h)) : encode i = some (h, t) ∧ i.wellFormed = true := by
  obtain ⟨fm, format, tl, fields, wf⟩ := fields_of_decode dec
  have enc : encodeFields i = some (⟨headOP h, headSel h, headD h⟩, Tail.unpack fm t) :=
    reads_decodeFields (by rw [format, format_unpack]) i fields
  refine ⟨?_, wf⟩
  rw [encode, enc]
  simp only [format_unpack, ← tl, packHead_fields, pack_unpack fm (tl ▸ short)]

end Sys2Proof.Laws

/-- Settles O53: a decoded head and tail are the encoding of the instruction whose fields were read from them. -/
theorem encodeOfDecode : Obligations.EncodeOfDecode :=
  fun _ _ _ dec short => Sys2Proof.Laws.encode_of_decode dec short

/-- Settles O54: each word is taken apart by the tables. -/
theorem decodedWords : Obligations.DecodedWords := by
  unfold Obligations.DecodedWords
  decide

end

/-! # Registers (O1), the program counter (O2), and privileged instructions (O19) -/

section
set_option Elab.async false
open Sys2Proof Sys2Proof.Machine Sys2Proof.Spec

namespace Sys2Proof.Machine

/-! ## Registers -/

theorem getX_setX (s : State) (d r : Reg) (v : Word) (hd : d ≠ 0) :
    (s.setX d v).getX r = if r = d then v else s.getX r := by
  simp only [State.getX, c_setX]
  split
  · next h => subst h; exact Ctx.getX_setX_same _ v hd
  · next h => exact Ctx.getX_setX_ne _ v h

/-- R344: a register that has been written has good parity. -/
theorem badAmong_setX (s : State) (d : Reg) (v : Word) (hd : d ≠ 0) : (s.setX d v).c.badAmong [.x d] = none := by
  rw [c_setX, Ctx.setX_ne _ v hd]
  simp [Ctx.badAmong, RRef.code]

theorem hungOn_mono {c : Ctx} {rs qs : List RRef} (sub : rs ⊆ qs) (h : c.hungOn qs = false) : c.hungOn rs = false := by
  simp only [Ctx.hungOn, List.any_eq_false, Bool.and_eq_true, Bool.or_eq_true, List.contains_iff_mem, not_and, not_or]
    at h ⊢
  intro w hw hg
  obtain ⟨hd, hp⟩ := h w hw hg
  exact ⟨fun n m => hd n (sub m), fun k m => hp k (sub m)⟩

theorem badAmong_nil (c : Ctx) : c.badAmong [] = none := rfl

end Sys2Proof.Machine

/-- Settles O1, by the reads of a register after a write to it and to another. -/
theorem registers : Obligations.Registers :=
  ⟨fun s v => ⟨Ctx.getX_zero s.c, by rw [c_setX, Ctx.setX_zero], Ctx.getX_zero _⟩,
    fun s d r v hd => ⟨getX_setX s d r v hd, badAmong_setX s d v hd⟩⟩

namespace Sys2Proof.Machine

/-! ## The program counter -/

/-- R15: the next PC in a line whose header holds the byte `b`. -/
theorem nextPc_of_line {c : Ctx} {l : LineCopy} {b : Byte} {r : List Byte} (hl : c.line = some l)
    (hb : l.bytes = b :: r) :
    c.nextPc = if (c.pc.toNat / 2) % 32 < b.toNat % 32 then c.pc + 2 else (c.pc &&& ~~~0x3F#64) + 0x42 := by
  simp [Ctx.nextPc, Ctx.lineH, hl, hb, lineAddr, wbits, bitsOf, Nat.shiftRight_eq_div_pow]

/-- A transfer of control keeps the link that its head has written. -/
theorem getX_setX_jump (s : State) {d : Reg} (v pc : Word) (hd : d ≠ 0) : ((s.setX d v).jump pc).getX d = v := by
  have link : ((s.setX d v).jump pc).getX d = (s.setX d v).getX d := by
    simp only [State.getX, c_jump]; rfl
  rw [link, getX_setX s d d v hd, if_pos rfl]

/-- Bit 0 of an address does not change with an even displacement. -/
theorem getLsbD_zero_add_two_mul (x y : Word) : (x + 2 * y).getLsbD 0 = x.getLsbD 0 := by
  have two : (2 : Word).toNat = 2 := rfl
  simp only [BitVec.getLsbD, BitVec.toNat_add, BitVec.toNat_mul, Nat.testBit_zero, two]
  have parity : (x.toNat + 2 * y.toNat % 2 ^ 64) % 2 ^ 64 % 2 = x.toNat % 2 := by omega
  rw [parity]

theorem exec_jal_link {s : State} {d : Reg} {t : BTarget} (hd : d ≠ 0) (h : s.c.hungOn [.x d] = false) :
    ∃ u, exec (.jal d t) s = .next u ∧ u.getX d = s.c.nextPc :=
  ⟨_, congrArg Host.Outcome.next (withRegs_ready s [] [.x d] _ h (badAmong_nil _)), getX_setX_jump s _ _ hd⟩

theorem exec_jalr_link {s : State} {d a : Reg} {imm : BitVec 11} (hd : d ≠ 0) (h : s.c.hungOn [.x a, .x d] = false)
    (good : s.c.badAmong [.x a] = none) (even : (s.getX a).getLsbD 0 = false) :
    ∃ u, exec (.jalr d a imm) s = .next u ∧ u.getX d = s.c.nextPc := by
  have target : wbit (s.getX a + 2 * sx imm) 0 = false := (getLsbD_zero_add_two_mul _ _).trans even
  refine ⟨(s.setX d s.c.nextPc).jump (s.getX a + 2 * sx imm), ?_, getX_setX_jump s _ _ hd⟩
  exact congrArg Host.Outcome.next
    ((withRegs_ready s [.x a] [.x d] _ h good).trans (if_neg (Bool.eq_false_iff.mp target)))

/-! ## What a head that only advances leaves as it was -/

theorem ctxs_updC (s : State) (f : Ctx → Ctx) {k : Nat} (h : k ≠ ctxKey s.cur.core s.cur.ctx) :
    mget {} (s.updC f).ctxs k = mget {} s.ctxs k := mget_mset_ne _ _ _ h

theorem ctxs_headDone (s : State) {k : Nat} (h : k ≠ ctxKey s.cur.core s.cur.ctx) :
    mget {} s.headDone.ctxs k = mget {} s.ctxs k := by
  rw [← ctxs_updC s (fun c => { c with wait := none, st := .running }) h, State.headDone, State.dropMemo]

theorem otherContexts_advance (s : State) : OtherContexts s s.advance := by
  intro k h
  rw [State.advance, ctxs_headDone _ (by rwa [updC_cur]), ctxs_updC s _ h]

theorem onlyX_advance (s : State) (d : Reg) : OnlyX d s s.advance := by
  refine ⟨fun r _ => ?_, ?_⟩
  · simp only [State.getX, c_advance]; rfl
  · rw [c_advance]; exact ⟨fun _ => rfl, fun _ => rfl, rfl, rfl, rfl, rfl, rfl, rfl⟩

theorem sameMemory_advance (s : State) : SameMemory s s.advance := by simp [SameMemory]

theorem sameSpecial_advance (s : State) : SameSpecial s s.advance := by simp [SameSpecial]

theorem frame_advance (s : State) (d : Reg) : Frame d s s.advance :=
  ⟨sameMemory_advance s, sameSpecial_advance s, otherContexts_advance s, onlyX_advance s d⟩

theorem pc_advance (s : State) : s.advance.c.pc = s.c.nextPc := by rw [c_advance]

end Sys2Proof.Machine

/-- Settles O2: NOP only advances, and the links of JAL and JALR survive the jump. -/
theorem programCounter : Obligations.ProgramCounter := by
  refine ⟨fun s l b r d a t imm hl hb => ?_, fun s => ⟨s.advance, rfl, pc_advance s, frame_advance s 0⟩⟩
  rw [← nextPc_of_line hl hb]
  refine ⟨⟨rfl, pc_advance s⟩, fun hd ⟨free, good⟩ => ⟨?_, fun even => exec_jalr_link hd free good even⟩⟩
  exact exec_jal_link hd (hungOn_mono (by simp) free)

/-- Settles O19: every privileged instruction checks its level first. -/
theorem privilegedInstructions : Obligations.PrivilegedInstructions := by
  intro s i below
  have trapped (k : State → State) : Host.Outcome.next (s.withLevel i k) = (.next (s.trap 0x03 i.tval) : Out) :=
    congrArg _ (withLevel_below s i k below)
  cases i with
  | eresume n => exact trapped _
  | kret => exact trapped _
  | fret => exact trapped _
  | wfi => exact trapped _
  | tlbinv a b => exact trapped _
  | ctxsw a => exact trapped _
  | ctxflush a => exact trapped _
  | prset a b => exact trapped _
  | ptload a b => exact trapped _
  | pdrain a b => exact trapped _
  | crrd d n => exact trapped _
  | crwr a n => exact trapped _
  | _ => exact absurd below (Nat.not_lt_zero _)

end

/-! # Control registers read and written (O21) -/

section
set_option Elab.async false
open Sys2Proof Sys2Proof.Machine Sys2Proof.Spec

namespace Sys2Proof.Machine

/-! ## Bits of words -/

/-- What `setBits` makes of a number: the bits above, the field, the bits below. -/
theorem setField_eq (v x lo n : Nat) : v - v / 2 ^ lo % 2 ^ n * 2 ^ lo + x % 2 ^ n * 2 ^ lo =
    2 ^ lo * (2 ^ n * (v / 2 ^ lo / 2 ^ n) + x % 2 ^ n) + v % 2 ^ lo := by
  have low := Nat.div_add_mod v (2 ^ lo)
  have field := Nat.div_add_mod (v / 2 ^ lo) (2 ^ n)
  generalize v / 2 ^ lo = q at *
  generalize q / 2 ^ n = a at *
  generalize q % 2 ^ n = b at *
  generalize v % 2 ^ lo = c at *
  subst field low
  rw [Nat.mul_add, Nat.mul_comm b, Nat.mul_comm (x % 2 ^ n), Nat.mul_add]
  omega

theorem getLsbD_setBits (v : Word) {hi lo : Nat} (x i : Nat) (order : lo ≤ hi) (inside : hi < 64) :
    (setBits v hi lo x).getLsbD i = if lo ≤ i ∧ i ≤ hi then x.testBit (i - lo) else v.getLsbD i := by
  by_cases small : i < 64
  · have low : v.toNat % 2 ^ lo < 2 ^ lo := Nat.mod_lt _ (Nat.two_pow_pos lo)
    have field : x % 2 ^ (hi + 1 - lo) < 2 ^ (hi + 1 - lo) := Nat.mod_lt _ (Nat.two_pow_pos _)
    simp only [setBits, bitsOf, Nat.shiftRight_eq_div_pow, setField_eq, BitVec.getLsbD_ofNat, small, decide_true,
      Bool.true_and, Nat.testBit_two_pow_mul_add _ low, Nat.testBit_two_pow_mul_add _ field]
    by_cases below : i < lo
    · simp [below, Nat.not_le.mpr below, Nat.testBit_mod_two_pow, BitVec.getLsbD]
    · by_cases inField : i ≤ hi
      · simp [below, inField, Nat.not_lt.mp below, show i - lo < hi + 1 - lo by omega, Nat.testBit_mod_two_pow]
      · simp [below, inField, show ¬ i - lo < hi + 1 - lo by omega, Nat.testBit_div_two_pow, BitVec.getLsbD,
          show i - lo - (hi + 1 - lo) + (hi + 1 - lo) + lo = i by omega]
  · rw [BitVec.getLsbD_of_ge _ _ (Nat.not_lt.mp small), BitVec.getLsbD_of_ge _ _ (Nat.not_lt.mp small),
      if_neg (by omega)]

/-- A number put together from flags, bit `k` set where `p k` holds. -/
def flags (p : Nat → Bool) (n : Nat) : Nat := (List.range n).foldl (fun acc k => if p k then acc + 2 ^ k else acc) 0

theorem flags_succ (p : Nat → Bool) (n : Nat) :
    flags p (n + 1) = if p n then flags p n + 2 ^ n else flags p n := by
  simp [flags, List.range_succ]

theorem flags_lt (p : Nat → Bool) (n : Nat) : flags p n < 2 ^ n := by
  induction n with
  | zero => exact Nat.one_pos
  | succ n ih =>
    rw [flags_succ, Nat.pow_succ]
    split <;> omega

theorem testBit_flags (p : Nat → Bool) (n i : Nat) : (flags p n).testBit i = (decide (i < n) && p i) := by
  induction n with
  | zero => simp [flags]
  | succ n ih =>
    rw [flags_succ]
    split
    · next set =>
      rw [Nat.add_comm]
      rcases Nat.lt_trichotomy i n with h | rfl | h
      · rw [Nat.testBit_two_pow_add_gt h, ih]
        simp [h, Nat.lt_succ_of_lt h]
      · rw [Nat.testBit_two_pow_add_eq, ih]
        simp [set]
      · have below : 2 ^ n + flags p n < 2 ^ i :=
          calc 2 ^ n + flags p n < 2 ^ (n + 1) := by have := flags_lt p n; omega
            _ ≤ 2 ^ i := Nat.pow_le_pow_right Nat.two_pos h
        rw [Nat.testBit_lt_two_pow below]
        simp [show ¬ i < n + 1 by omega]
    · next clear =>
      rw [ih]
      rcases Nat.lt_trichotomy i n with h | rfl | h
      · simp [h, Nat.lt_succ_of_lt h]
      · simp [clear]
      · simp [Nat.not_lt_of_gt h, show ¬ i < n + 1 by omega]

/-- A masked write takes the bits of the mask from the new value and keeps the others. -/
theorem getLsbD_masked {mask : Nat} {p : Nat → Bool} (bits : ∀ i < 64, mask.testBit i = p i) (old v : Word) (i : Nat) :
    (masked old v mask).getLsbD i = if p i then v.getLsbD i else old.getLsbD i := by
  by_cases small : i < 64
  · rw [← bits i small]
    simp only [masked, BitVec.getLsbD_or, BitVec.getLsbD_and, BitVec.getLsbD_not, BitVec.getLsbD_ofNat, small,
      decide_true, Bool.true_and]
    cases mask.testBit i <;> simp
  · simp [BitVec.getLsbD_of_ge _ _ (Nat.not_lt.mp small)]

/-- A masked write over 0. -/
theorem getLsbD_masked_zero {mask : Nat} {p : Nat → Bool} (bits : ∀ i < 64, mask.testBit i = p i) (v : Word) (i : Nat) :
    (masked 0 v mask).getLsbD i = (p i && v.getLsbD i) := by
  rw [getLsbD_masked bits]
  cases p i <;> simp

theorem getLsbD_semerrWrite (old v : Word) (i : Nat) :
    (semerrWrite old v).getLsbD i = (old.getLsbD i && !(decide (i = 24 ∨ i = 25) && v.getLsbD i)) := by
  have bits : ∀ i < 64, (maskBits 25 24).testBit i = decide (i = 24 ∨ i = 25) := by decide
  by_cases small : i < 64
  · rw [← bits i small]
    simp only [semerrWrite, BitVec.getLsbD_and, BitVec.getLsbD_not, BitVec.getLsbD_ofNat, small, decide_true,
      Bool.true_and, Bool.and_comm]
  · simp [BitVec.getLsbD_of_ge _ _ (Nat.not_lt.mp small)]

theorem extractLsb'_two_congr {x y : Word} (h2 : x.getLsbD 2 = y.getLsbD 2) (h3 : x.getLsbD 3 = y.getLsbD 3) :
    x.extractLsb' 2 2 = y.extractLsb' 2 2 := by
  apply BitVec.eq_of_getLsbD_eq
  intro i hi
  match i, hi with
  | 0, _ => simpa using h2
  | 1, _ => simpa using h3

/-! ## The status registers (R310) -/

theorem statusRead_eq (s : State) (st : Word) :
    s.statusRead st =
      setBits (setBits st 20 16 (flags (s.pendingSource s.cur.core) 5)) 5 5 (if s.c.pob then 1 else 0) := rfl

theorem statusRead_pob (s : State) (st : Word) : (s.statusRead st).getLsbD 5 = s.c.pob := by
  rw [statusRead_eq, getLsbD_setBits _ _ _ (by decide) (by decide)]
  cases s.c.pob <;> rfl

theorem statusRead_pend (s : State) (st : Word) {i : Nat} (h : i < 5) :
    (s.statusRead st).getLsbD (16 + i) = s.pendingSource s.cur.core i := by
  rw [statusRead_eq, getLsbD_setBits _ _ _ (by decide) (by decide), if_neg (by omega),
    getLsbD_setBits _ _ _ (by decide) (by decide), if_pos (by omega), Nat.add_sub_cancel_left, testBit_flags]
  simp [h]

theorem statusRead_else (s : State) (st : Word) {i : Nat} (h5 : i ≠ 5) (h : i < 16 ∨ 21 ≤ i) :
    (s.statusRead st).getLsbD i = st.getLsbD i := by
  rw [statusRead_eq, getLsbD_setBits _ _ _ (by decide) (by decide), if_neg (by omega),
    getLsbD_setBits _ _ _ (by decide) (by decide), if_neg (by omega)]

theorem statusWrite_kernel (old v : Word) (i : Nat) : (statusWrite false old v).getLsbD i =
    if i < 3 ∨ 8 ≤ i ∧ i < 13 then v.getLsbD i else old.getLsbD i := by
  have bits : ∀ i < 64, (maskBits 12 8 + 7).testBit i = decide (i < 3 ∨ 8 ≤ i ∧ i < 13) := by decide
  simpa using show (statusWrite false old v).getLsbD i = _ from getLsbD_masked bits old v i

/-- FSTATUS written: PL keeps its old value where 3 would be written (R310). -/
theorem statusWrite_firmware (old v : Word) (i : Nat) : (statusWrite true old v).getLsbD i =
    if i < 2 ∨ 8 ≤ i ∧ i < 13 ∨ (i = 2 ∨ i = 3) ∧ wbits v 3 2 ≠ 3 then v.getLsbD i else old.getLsbD i := by
  by_cases three : wbits v 3 2 = 3
  · have bits : ∀ i < 64, (maskBits 12 8 + 3 + 0).testBit i = decide (i < 2 ∨ 8 ≤ i ∧ i < 13) := by decide
    simpa [statusWrite, three] using getLsbD_masked bits old v i
  · have bits : ∀ i < 64,
        (maskBits 12 8 + 3 + 12).testBit i = decide (i < 2 ∨ 8 ≤ i ∧ i < 13 ∨ i = 2 ∨ i = 3) := by decide
    simpa [statusWrite, three] using getLsbD_masked bits old v i

theorem statusWrite_pl_ne_three {old v : Word} (h : (old.extractLsb' 2 2).toNat ≠ 3) :
    ((statusWrite true old v).extractLsb' 2 2).toNat ≠ 3 := by
  by_cases three : wbits v 3 2 = 3
  · have kept (i : Nat) (h : i = 2 ∨ i = 3) : (statusWrite true old v).getLsbD i = old.getLsbD i := by
      rw [statusWrite_firmware, if_neg (by omega)]
    rwa [extractLsb'_two_congr (kept 2 (.inl rfl)) (kept 3 (.inr rfl))]
  · have taken (i : Nat) (h : i = 2 ∨ i = 3) : (statusWrite true old v).getLsbD i = v.getLsbD i := by
      rw [statusWrite_firmware, if_pos (by omega)]
    rw [extractLsb'_two_congr (taken 2 (.inl rfl)) (taken 3 (.inr rfl)), BitVec.extractLsb'_toNat]
    exact three

/-! ## CRRD and CRWR (R171) -/

theorem exec_crrd {s : State} {d : Reg} {n : BitVec 12} (level : n.toNat / 1024 ≤ s.level)
    (ready : Ready s [] [.x d]) (settled : n.toNat ≠ 1) : Gives (.crrd d n) s d (s.crRead n.toNat) := by
  obtain ⟨free, good⟩ := ready
  show Host.Outcome.next _ = _
  rw [withLevel_ok s (.crrd d n) _ level, withRegs_ready s _ _ _ free good, State.fpSettled, if_neg settled]

theorem exec_crwr {s : State} {a : Reg} {n : BitVec 12} (level : n.toNat / 1024 ≤ s.level)
    (ready : Ready s [.x a] []) (settled : n.toNat ≠ 1) :
    exec (.crwr a n) s = .next (s.crWrite n.toNat (s.getX a)).advance := by
  obtain ⟨free, good⟩ := ready
  show Host.Outcome.next _ = _
  rw [withLevel_ok s (.crwr a n) _ level, withRegs_ready s _ _ _ free good, State.fpSettled, if_neg settled]

/-- R48: FPSTAT is read once the vector operation in flight is over. -/
theorem exec_crrd_fpstat {s : State} {d : Reg} (ready : Ready s [] [.x d]) (rest : s.c.rest = []) :
    exec (.crrd d 1) s = .next ((s.updC Ctx.opDone).setX d s.c.opDone.fpstat).advance := by
  obtain ⟨free, good⟩ := ready
  have read : (s.updC Ctx.opDone).crRead 1 = s.c.opDone.fpstat := congrArg Ctx.fpstat (c_updC s _)
  show Host.Outcome.next _ = _
  rw [withLevel_ok s (.crrd d 1) _ (Nat.zero_le _), withRegs_ready s _ _ _ free good, State.fpSettled]
  simp only [rest]
  exact congrArg (fun v => Host.Outcome.next ((s.updC Ctx.opDone).setX d v).advance) read

theorem exec_crwr_fpstat {s : State} {a : Reg} (ready : Ready s [.x a] []) (rest : s.c.rest = []) :
    exec (.crwr a 1) s =
      .next ((s.updC Ctx.opDone).updC (fun c => { c with fpstat := s.getX a &&& 0x1F })).advance := by
  obtain ⟨free, good⟩ := ready
  show Host.Outcome.next _ = _
  rw [withLevel_ok s (.crwr a 1) _ (Nat.zero_le _), withRegs_ready s _ _ _ free good, State.fpSettled]
  simp only [rest]
  rfl

section
variable {s : State} {d a : Reg}

theorem exec_crrd_user (ready : Ready s [] [.x d]) (n : BitVec 12) (k : Nat) (number : n.toNat = k) (user : k < 1024)
    (settled : k ≠ 1) : Gives (.crrd d n) s d (s.crRead k) := by
  have level : n.toNat / 1024 ≤ s.level := by omega
  exact number ▸ exec_crrd level ready (number ▸ settled)

/-- CRRD of a register of the kernel's block that no fault record holds. -/
theorem exec_crrd_kernel (ready : Ready s [] [.x d]) (kernel : 1 ≤ s.level) (n : BitVec 12) (k : Nat)
    (number : n.toNat = 0x400 + k) (block : k < 0x40) : Gives (.crrd d n) s d (s.trapReg s.sl.k false k) := by
  have level : n.toNat / 1024 ≤ s.level := by omega
  have read : s.crRead n.toNat = s.trapReg s.sl.k false k := by
    rw [State.crRead, if_neg (by omega), if_neg (by omega), if_neg (by omega), if_neg (by omega), if_neg (by omega),
      if_neg (by omega), if_pos (by omega), number, Nat.add_sub_cancel_left]
  exact read ▸ exec_crrd level ready (by omega)

/-- CRRD of a word of a fault record (R328). -/
theorem exec_crrd_efrec (ready : Ready s [] [.x d]) (kernel : 1 ≤ s.level) {sl w : Nat} (hs : sl < 8) (hw : w < 8) :
    Gives (.crrd d (0x440 + BitVec.ofNat 12 (8 * sl + w))) s d (s.efrecWord s.clu sl w) := by
  have number : (0x440 + BitVec.ofNat 12 (8 * sl + w)).toNat = 0x440 + (8 * sl + w) := by
    have base : (0x440 : BitVec 12).toNat = 0x440 := rfl
    simp only [BitVec.toNat_add, BitVec.toNat_ofNat, base]
    omega
  have level : (0x440 + BitVec.ofNat 12 (8 * sl + w)).toNat / 1024 ≤ s.level := by omega
  have read : s.crRead (0x440 + BitVec.ofNat 12 (8 * sl + w)).toNat = s.efrecWord s.clu sl w := by
    rw [number, State.crRead, if_neg (by omega), if_neg (by omega), if_neg (by omega), if_neg (by omega),
      if_neg (by omega), if_neg (by omega), if_neg (by omega), if_pos (by omega),
      show (0x440 + (8 * sl + w) - 0x440) / 8 = sl by omega, show (0x440 + (8 * sl + w)) % 8 = w by omega]
  exact read ▸ exec_crrd level ready (by omega)

/-- CRRD of a register of the firmware's block. -/
theorem exec_crrd_firmware (ready : Ready s [] [.x d]) (firmware : 2 ≤ s.level) (n : BitVec 12) (k : Nat)
    (number : n.toNat = 0x800 + k) (block : k < 0x40) : Gives (.crrd d n) s d (s.trapReg s.sl.f true k) := by
  have level : n.toNat / 1024 ≤ s.level := by omega
  have read : s.crRead n.toNat = s.trapReg s.sl.f true k := by
    rw [State.crRead, if_neg (by omega), if_neg (by omega), if_neg (by omega), if_neg (by omega), if_neg (by omega),
      if_neg (by omega), if_neg (by omega), if_neg (by omega), number, Nat.add_sub_cancel_left]
  exact read ▸ exec_crrd level ready (by omega)

end

/-- The number of a scratch register. -/
theorem toNat_scratch {base : BitVec 12} {b j : Nat} (hb : base.toNat = b) (hj : j < 4) (room : b < 4000) :
    (base + BitVec.ofNat 12 j).toNat = b + j := by
  simp only [BitVec.toNat_add, BitVec.toNat_ofNat, hb]
  omega

theorem trapReg_scratch (s : State) (t : TrapRegs) (fw : Bool) {j : Nat} (hj : j < 4) :
    s.trapReg t fw (5 + j) = wd t.scratch j := by
  match j, hj with
  | 0, _ => rfl
  | 1, _ => rfl
  | 2, _ => rfl
  | 3, _ => rfl

theorem controlRegistersRead : ControlRegistersRead := by
  intro s d ready core k f
  refine ⟨?_, fun kernel => ?_, fun firmware => ?_⟩
  · have read := exec_crrd_user ready
    refine ⟨read 0 0 rfl (by decide) (by decide), read 2 2 rfl (by decide) (by decide),
      read 3 3 rfl (by decide) (by decide), read 4 4 rfl (by decide) (by decide),
      read 5 5 rfl (by decide) (by decide), fun idle _ rest =>
      ⟨_, exec_crrd_fpstat ready rest, ?_⟩⟩
    rw [getX_setX_advance, if_pos rfl]
    simp [Ctx.opDone, idle]
  · have read := exec_crrd_kernel ready kernel
    refine ⟨read 0x401 1 rfl (by decide), read 0x402 2 rfl (by decide), read 0x403 3 rfl (by decide),
      read 0x404 4 rfl (by decide), fun j hj => ?_, fun sl w hs hw => exec_crrd_efrec ready kernel hs hw,
      read 0x409 9 rfl (by decide), read 0x40A 10 rfl (by decide), read 0x40B 11 rfl (by decide),
      read 0x40C 12 rfl (by decide), read 0x40D 13 rfl (by decide), _, read 0x400 0 rfl (by decide),
      statusRead_pob s _, fun i => statusRead_pend s _, fun i => statusRead_else s _⟩
    have number := (toNat_scratch (base := 0x405) rfl hj (by decide)).trans (Nat.add_assoc 0x400 5 j)
    exact trapReg_scratch s k false hj ▸ read _ (5 + j) number (by omega)
  · have read := exec_crrd_firmware ready firmware
    refine ⟨⟨_, read 0x800 0 rfl (by decide), statusRead_pob s _, fun i => statusRead_pend s _,
      fun i => statusRead_else s _⟩, fun j hj => ?_, read 0x801 1 rfl (by decide), read 0x802 2 rfl (by decide),
      read 0x803 3 rfl (by decide), read 0x804 4 rfl (by decide), read 0x809 9 rfl (by decide),
      read 0x80A 10 rfl (by decide), read 0x80B 11 rfl (by decide)⟩
    have number := (toNat_scratch (base := 0x805) rfl hj (by decide)).trans (Nat.add_assoc 0x800 5 j)
    exact trapReg_scratch s f true hj ▸ read _ (5 + j) number (by omega)

theorem exec_crwr_number {s : State} {a : Reg} (ready : Ready s [.x a] []) (n : BitVec 12) (k : Nat)
    (number : n.toNat = k) (level : k / 1024 ≤ s.level) (settled : k ≠ 1) :
    exec (.crwr a n) s = .next (s.crWrite k (s.getX a)).advance := by
  subst number
  exact exec_crwr level ready settled

theorem updSl_congr {s : State} {f g : Slot → Slot} (h : f s.sl = g s.sl) : s.updSl f = s.updSl g :=
  congrArg (s.setSlot s.cur.core s.cur.slot) h

theorem updCluster_congr {s : State} {n : Nat} {f g : Cluster → Cluster} (h : f (s.cluster n) = g (s.cluster n)) :
    s.updCluster n f = s.updCluster n g :=
  congrArg (fun c => { s with clusters := mset {} s.clusters n c }) h

theorem crWrite_fpctl (s : State) (v : Word) : s.crWrite 0 v =
    s.updC (fun c => { c with fpctl := v &&& 7 }) := rfl

theorem crWrite_kepc (s : State) (v : Word) : s.crWrite 0x401 v =
    s.updSl (fun t => { t with k := { t.k with epc := v } }) := rfl

theorem crWrite_ktval (s : State) (v : Word) : s.crWrite 0x403 v =
    s.updSl (fun t => { t with k := { t.k with tval := v } }) := rfl

theorem crWrite_kvbase (s : State) (v : Word) : s.crWrite 0x404 v =
    s.updCore s.cur.core (fun c => { c with kvbase := masked 0 v (maskBits 63 12) }) := rfl

theorem crWrite_spillptr (s : State) (v : Word) : s.crWrite 0x40A v =
    s.updCore s.cur.core (fun c => { c with spillptr := masked 0 v (maskBits 63 8) }) := rfl

theorem crWrite_ptbase (s : State) (v : Word) : s.crWrite 0x40B v =
    s.updC (fun c => { c with ptbase := masked 0 v (maskBits 55 12) }) := rfl

theorem crWrite_waitlim (s : State) (v : Word) : s.crWrite 0x40C v =
    s.updCore s.cur.core (fun c => { c with waitlim := v }) := rfl

theorem crWrite_fepc (s : State) (v : Word) : s.crWrite 0x801 v =
    s.updSl (fun t => { t with f := { t.f with epc := v } }) := rfl

theorem crWrite_ftval (s : State) (v : Word) : s.crWrite 0x803 v =
    s.updSl (fun t => { t with f := { t.f with tval := v } }) := rfl

theorem crWrite_fvbase (s : State) (v : Word) : s.crWrite 0x804 v =
    s.updCore s.cur.core (fun c => { c with fvbase := masked 0 v (maskBits 63 12) }) := rfl

theorem crWrite_ftimer (s : State) (v : Word) : s.crWrite 0x809 v =
    s.updCore s.cur.core (fun c => { c with ftimer := v }) := rfl

theorem crWrite_fspillptr (s : State) (v : Word) : s.crWrite 0x80A v =
    s.updCore s.cur.core (fun c => { c with fspillptr := masked 0 v (maskBits 63 8) }) := rfl

theorem crWrite_fptbase (s : State) (v : Word) : s.crWrite 0x80B v =
    s.updC (fun c => { c with fptbase := masked 0 v (maskBits 55 12) }) := rfl

theorem crWrite_kcause (s : State) (v : Word) : s.crWrite 0x402 v =
    s.updSl (fun t => { t with k := { t.k with cause := masked s.sl.k.cause v (maskBits 63 62 + maskBits 15 0) } }) :=
  (show _ = s.updSl (fun t => { t with k := t.k.write false 2 v }) from rfl).trans (updSl_congr rfl)

theorem crWrite_kstatus (s : State) (v : Word) : s.crWrite 0x400 v =
    s.updSl (fun t => { t with k := { t.k with status := statusWrite false s.sl.k.status v } }) :=
  (show _ = s.updSl (fun t => { t with k := t.k.write false 0 v }) from rfl).trans (updSl_congr rfl)

theorem crWrite_fcause (s : State) (v : Word) : s.crWrite 0x802 v =
    s.updSl (fun t => { t with f := { t.f with cause := masked s.sl.f.cause v (maskBits 63 62 + maskBits 15 0) } }) :=
  (show _ = s.updSl (fun t => { t with f := t.f.write true 2 v }) from rfl).trans (updSl_congr rfl)

theorem crWrite_fstatus (s : State) (v : Word) : s.crWrite 0x800 v =
    s.updSl (fun t => { t with f := { t.f with status := statusWrite true s.sl.f.status v } }) :=
  (show _ = s.updSl (fun t => { t with f := t.f.write true 0 v }) from rfl).trans (updSl_congr rfl)

theorem crWrite_semerr (s : State) (v : Word) : s.crWrite 0x40D v =
    s.updCluster s.clu (fun c => { c with semerr := semerrWrite (s.cluster s.clu).semerr v }) :=
  updCluster_congr rfl

theorem crWrite_kscratch (s : State) (v : Word) {j : Nat} (h : j < 4) : s.crWrite (0x405 + j) v =
    s.updSl (fun t => { t with k := { t.k with scratch := t.k.scratch.set j v } }) := by
  match j, h with
  | 0, _ => rfl
  | 1, _ => rfl
  | 2, _ => rfl
  | 3, _ => rfl

theorem crWrite_fscratch (s : State) (v : Word) {j : Nat} (h : j < 4) : s.crWrite (0x805 + j) v =
    s.updSl (fun t => { t with f := { t.f with scratch := t.f.scratch.set j v } }) := by
  match j, h with
  | 0, _ => rfl
  | 1, _ => rfl
  | 2, _ => rfl
  | 3, _ => rfl

theorem testBit_causeMask : ∀ i < 64, (maskBits 63 62 + maskBits 15 0).testBit i = decide (i < 16 ∨ 62 ≤ i) := by
  decide

theorem testBit_maskBits_above12 : ∀ i < 64, (maskBits 63 12).testBit i = decide (12 ≤ i) := by decide

theorem testBit_maskBits_above8 : ∀ i < 64, (maskBits 63 8).testBit i = decide (8 ≤ i) := by decide

theorem testBit_maskBits_root : ∀ i < 64, (maskBits 55 12).testBit i = decide (12 ≤ i ∧ i < 56) := by decide

/-- R315: KTIMER written with 0 is off. -/
theorem crWrite_ktimer_zero (s : State) : s.crWrite 0x409 0 =
    s.updCore s.cur.core (fun c => { c with ktimer := 0 }) := rfl

/-- R315: a new KTIMER is compared when CYCLE reaches it. -/
theorem crWrite_ktimer (s : State) {v : Word} (h : v ≠ 0) : s.crWrite 0x409 v =
    (s.updCore s.cur.core (fun c => { c with ktimer := v })).after (v.toNat - s.now) .ktimerExpire
      { x := s.cur.core } :=
  (show s.crWrite 0x409 v = s.setKtimer v from rfl).trans (if_neg h)

theorem controlRegistersWritten : ControlRegistersWritten := by
  intro s a ready v core bits causeBits
  have write {k : Nat} {u : State} (eq : s.crWrite k v = u) (n : BitVec 12) (number : n.toNat = k)
      (level : k / 1024 ≤ s.level) (settled : k ≠ 1) : exec (.crwr a n) s = .next u.advance :=
    eq ▸ exec_crwr_number ready n k number level settled
  refine ⟨write (crWrite_fpctl s v) 0 rfl (Nat.zero_le _) (by decide), fun rest => exec_crwr_fpstat ready rest,
    fun kernel => ?_, fun firmware => ?_⟩
  · have write {k : Nat} {u : State} (eq : s.crWrite k v = u) (n : BitVec 12) (number : n.toNat = k)
        (block : 0x400 ≤ k ∧ k < 0x800) : exec (.crwr a n) s = .next u.advance :=
      write eq n number (by omega) (by omega)
    refine ⟨⟨_, getLsbD_masked testBit_causeMask _ v, write (crWrite_kcause s v) 0x402 rfl (by decide)⟩,
      fun j hj => write (crWrite_kscratch s v hj) _ (toNat_scratch rfl hj (by decide)) (by omega), fun off => ?_,
      fun on => write (crWrite_ktimer s on) 0x409 rfl (by decide),
      ⟨_, write (crWrite_spillptr s v) 0x40A rfl (by decide), getLsbD_masked_zero testBit_maskBits_above8 v⟩,
      ⟨_, write (crWrite_semerr s v) 0x40D rfl (by decide), getLsbD_semerrWrite _ v⟩,
      write (crWrite_kepc s v) 0x401 rfl (by decide), write (crWrite_ktval s v) 0x403 rfl (by decide),
      write (crWrite_waitlim s v) 0x40C rfl (by decide),
      ⟨_, write (crWrite_kvbase s v) 0x404 rfl (by decide), getLsbD_masked_zero testBit_maskBits_above12 v⟩,
      ⟨_, write (crWrite_ptbase s v) 0x40B rfl (by decide), getLsbD_masked_zero testBit_maskBits_root v⟩,
      ⟨_, write (crWrite_kstatus s v) 0x400 rfl (by decide), statusWrite_kernel _ v⟩⟩
    exact write (off ▸ crWrite_ktimer_zero s) 0x409 rfl (by decide)
  · have write {k : Nat} {u : State} (eq : s.crWrite k v = u) (n : BitVec 12) (number : n.toNat = k)
        (block : 0x800 ≤ k ∧ k < 0xC00) : exec (.crwr a n) s = .next u.advance :=
      write eq n number (by omega) (by omega)
    exact ⟨write (crWrite_fepc s v) 0x801 rfl (by decide), write (crWrite_ftval s v) 0x803 rfl (by decide),
      ⟨_, getLsbD_masked testBit_causeMask _ v, write (crWrite_fcause s v) 0x802 rfl (by decide)⟩,
      fun j hj => write (crWrite_fscratch s v hj) _ (toNat_scratch rfl hj (by decide)) (by omega),
      write (crWrite_ftimer s v) 0x809 rfl (by decide),
      ⟨_, write (crWrite_fvbase s v) 0x804 rfl (by decide), getLsbD_masked_zero testBit_maskBits_above12 v⟩,
      ⟨_, write (crWrite_fspillptr s v) 0x80A rfl (by decide), getLsbD_masked_zero testBit_maskBits_above8 v⟩,
      ⟨_, write (crWrite_fptbase s v) 0x80B rfl (by decide), getLsbD_masked_zero testBit_maskBits_root v⟩,
      _, write (crWrite_fstatus s v) 0x800 rfl (by decide), statusWrite_pl_ne_three, fun i plain => by
        rw [statusWrite_firmware, if_pos (by omega)]⟩

end Sys2Proof.Machine

/-- Settles O21: each register by its number, its bits by the mask that writes it. -/
theorem controlRegisters : Obligations.ControlRegisters :=
  ⟨controlRegistersRead, controlRegistersWritten⟩
end

/-! # Steps: what is fetched, decoded and run (O55) -/

section
set_option Elab.async false
open Sys2Proof Sys2Proof.Machine

namespace Sys2Proof.Machine

/-! ## What a step runs -/

theorem step_of_choose {s s1 : State} {it : Item} (h : s.choose = some (it, s1)) :
    step s = endStep (runItem it s1) := by
  simp only [step, h]

theorem step_of_issue {s s1 : State} {core k : Nat} (h : s.choose = some (.issue core, s1))
    (slot : s1.nextSlot core = some k) : step s = endStep (issueSlot s1 core k) := by
  simp only [step_of_choose h, runItem, slot]

/-- What the core does with what it has fetched. -/
def Fetched.run (f : Fetched) : Out :=
  match f with
  | .head i s => exec i s
  | .stop s => .next s

theorem issueSlot_interrupt {s : State} {core k : Nat} (h : (s.takeable core k).isSome = true) :
    issueSlot s core k = exec .interruptTake { s.enter core k with arg := { x := core, y := k } } := by
  simp only [issueSlot, h, if_true]

theorem issueSlot_before {s v : State} {core k : Nat} (h : s.takeable core k = none)
    (before : (s.enter core k).beforeHead = some v) : issueSlot s core k = .next v := by
  simp [issueSlot, h, before]

theorem issueSlot_fetch {s : State} {core k : Nat} (h : s.takeable core k = none)
    (before : (s.enter core k).beforeHead = none) : issueSlot s core k = (s.enter core k).fetch.run := by
  simp only [issueSlot, h, before, Option.isSome_none, Bool.false_eq_true, if_false]
  cases (s.enter core k).fetch <;> rfl

/-! ## Fetching (R10, R14, R29) -/

theorem fetch_odd {s : State} (h : wbit s.c.pc 0 = true) : s.fetch = .stop (s.trap 0x04 s.c.pc) := by
  simp only [State.fetch, h, if_true]

theorem fetch_held {s : State} {l : LineCopy} (even : wbit s.c.pc 0 = false) (held : s.c.line = some l)
    (addr : l.addr = lineAddr s.c.pc) : s.fetch = s.decodeHead (halfwords l.bytes) := by
  simp [State.fetch, even, held, addr]

section
variable {s u : State} (even : wbit s.c.pc 0 = false) (other : ∀ l, s.c.line = some l → l.addr ≠ lineAddr s.c.pc)
include even other

theorem fetch_filled {l : LineCopy} (fill : s.fetchLine = .ok none u) (held : u.c.line = some l) :
    s.fetch = u.decodeHead (halfwords l.bytes) := by
  cases line : s.c.line with
  | none => simp [State.fetch, even, line, fill, held]
  | some x => simp [State.fetch, even, line, other x line, fill, held]

theorem fetch_failed {c : Nat} (fill : s.fetchLine = .ok (some c) u) : s.fetch = .stop (u.trap c s.c.pc) := by
  cases line : s.c.line with
  | none => simp [State.fetch, even, line, fill]
  | some x => simp [State.fetch, even, line, other x line, fill]

theorem fetch_waits (fill : s.fetchLine = .stop u) : s.fetch = .stop u := by
  cases line : s.c.line with
  | none => simp [State.fetch, even, line, fill]
  | some x => simp [State.fetch, even, line, other x line, fill]

end

/-! ## Decoding the head of a line (R9, R29) -/

section
variable {s : State} {h : List (BitVec 16)}

theorem decodeHead_badLine (bad : lineOk h = false ∨ wbits s.c.pc 5 1 = 0 ∨ lineH h < wbits s.c.pc 5 1) :
    s.decodeHead h = .stop (s.trap 0x01 s.c.pc) := by
  rcases bad with bad | bad | bad <;> simp [State.decodeHead, bad]

variable (ok : lineOk h = true) (low : 1 ≤ wbits s.c.pc 5 1) (high : wbits s.c.pc 5 1 ≤ lineH h)
include ok low high

theorem decodeHead_ok {i : Instr} (dec : decode (hw h (wbits s.c.pc 5 1)) (lineTail h (wbits s.c.pc 5 1)) = .ok i) :
    s.decodeHead h = .head i s := by
  simp [State.decodeHead, ok, Nat.ne_of_gt low, Nat.not_lt.mpr high, dec]

theorem decodeHead_undefinedOp
    (dec : decode (hw h (wbits s.c.pc 5 1)) (lineTail h (wbits s.c.pc 5 1)) = .undefinedOp) : s.decodeHead h =
      .stop (s.trap 0x01 (encodingWord (hw h (wbits s.c.pc 5 1)) (lineTail h (wbits s.c.pc 5 1)))) := by
  simp [State.decodeHead, ok, Nat.ne_of_gt low, Nat.not_lt.mpr high, dec]

theorem decodeHead_badEncoding
    (dec : decode (hw h (wbits s.c.pc 5 1)) (lineTail h (wbits s.c.pc 5 1)) = .badEncoding) : s.decodeHead h =
      .stop (s.trap 0x02 (encodingWord (hw h (wbits s.c.pc 5 1)) (lineTail h (wbits s.c.pc 5 1)))) := by
  simp [State.decodeHead, ok, Nat.ne_of_gt low, Nat.not_lt.mpr high, dec]

end

/-! ## The end of a step (R303) -/

theorem endStep_noActs {t : State} (h : t.acts = []) : endStep (.next t) = .next t.tick := by
  have cleared : { t with acts := [] } = t := by rw [← h]
  simp only [endStep, h, cleared, runActs, afterStep]

theorem endStep_act {t u : State} {i : Instr} {a : EvArg} (h : t.acts = [(i, a)])
    (run : exec i { t with acts := [], arg := a, accs := 0 } = .next u) : endStep (.next t) = .next u.tick := by
  simp only [endStep, h, runActs, run, afterStep]

theorem timeRequests_frame (s : State) : s.timeRequests.now = s.now ∧ s.timeRequests.dram = s.dram ∧
    s.timeRequests.lmem = s.lmem ∧ s.timeRequests.slots = s.slots ∧ s.timeRequests.csr = s.csr := by
  unfold State.timeRequests
  dsimp only
  split
  · exact ⟨rfl, rfl, rfl, rfl, rfl⟩
  · exact ⟨rfl, rfl, rfl, rfl, rfl⟩

theorem csr_wakeParked (s : State) : s.wakeParked.csr = s.csr := by
  unfold State.wakeParked
  refine List.foldlRecOn (motive := fun t : State => t.csr = s.csr) _ _ rfl (fun t same e _ => ?_)
  dsimp only
  split
  · exact same
  · exact same

/-- The passing of time advances the clock and changes no memory, no slot and no control register. -/
theorem tick_frame (s : State) : s.now < s.tick.now ∧ s.tick.dram = s.dram ∧ s.tick.lmem = s.lmem ∧
    s.tick.slots = s.slots ∧ s.tick.csr = s.csr := by
  obtain ⟨now, dram, lmem, slots, csr⟩ := timeRequests_frame { s with now := s.now + 1 + Config.stepCycles s.now }
  obtain ⟨-, wnow, wdram, wlmem, wslots, -⟩ :=
    wakeParked_frame ({ s with now := s.now + 1 + Config.stepCycles s.now } : State).timeRequests
  refine ⟨?_, wdram.trans dram, wlmem.trans lmem, wslots.trans slots, (csr_wakeParked _).trans csr⟩
  have later : s.tick.now = s.now + 1 + Config.stepCycles s.now := wnow.trans now
  omega

end Sys2Proof.Machine

/-- Settles O55: by what is chosen, then by how the fetch of the head ends. -/
theorem stepsRunTheDecodedInstruction : Obligations.StepsRunTheDecodedInstruction := by
  intro s s1 core k l i a e ran
  have decoded (v : State) (hv : step s = endStep (v.decodeHead (halfwords l.bytes)).run) : ran v := by
    refine ⟨fun bad => ?_, fun ok low high => ⟨fun dec => ?_, fun dec => ?_, fun dec => ?_⟩⟩
    · rw [hv, decodeHead_badLine bad, Fetched.run]
    · rw [hv, decodeHead_ok ok low high dec, Fetched.run]
    · rw [hv, decodeHead_undefinedOp ok low high dec, Fetched.run]
    · rw [hv, decodeHead_badEncoding ok low high dec, Fetched.run]
  refine ⟨fun event => step_of_choose event, fun issue slot => ?_, fun t none => ?_, fun t u one run =>
    endStep_act one run⟩
  · rw [step_of_issue issue slot] at decoded ⊢
    refine ⟨fun taken => by rw [issueSlot_interrupt taken], fun free v before => by rw [issueSlot_before free before],
      fun free before => ?_⟩
    rw [issueSlot_fetch free before] at decoded ⊢
    refine ⟨fun odd => by rw [fetch_odd odd, Fetched.run], fun even held addr => decoded e ?_, fun even other =>
      ⟨fun u fill held => decoded u ?_, fun u c fill => ?_, fun u fill => ?_⟩⟩
    · rw [fetch_held even held addr]
    · rw [fetch_filled even other fill held]
    · rw [fetch_failed even other fill, Fetched.run]
    · rw [fetch_waits even other fill, Fetched.run]
  · exact ⟨_, endStep_noActs none, tick_frame _⟩
end

/-! # Engine commands: acceptance (O38), control (O39) and work (O40) -/

section
set_option Elab.async false
open Sys2Proof Sys2Proof.Machine Sys2Proof.Spec

namespace Sys2Proof.Machine

/-! ## The parts of the state that the engines' operations leave -/

@[simp] theorem c_updCluster (s : State) (n : Nat) (f : Cluster → Cluster) : (s.updCluster n f).c = s.c := rfl
@[simp] theorem c_updGroup (s : State) (g : Nat) (f : CollGroup → CollGroup) : (s.updGroup g f).c = s.c := rfl

@[simp] theorem cluster_updGroup (s : State) (g : Nat) (f : CollGroup → CollGroup) (n : Nat) :
    (s.updGroup g f).cluster n = s.cluster n := rfl
@[simp] theorem cluster_advance (s : State) (n : Nat) : s.advance.cluster n = s.cluster n := by
  rw [State.cluster, advance_clusters, State.cluster]

/-! ## The commands of a cluster and their records -/

section
variable (s : State) (cl num n : Nat) (f : Cmd → Cmd)

@[simp] theorem cmds_updCmd : ((s.updCmd cl num f).cluster cl).cmds =
    (s.cluster cl).cmds.map (fun c => if c.num = num then f c else c) := by rw [State.updCmd, cluster_updCluster_same]
@[simp] theorem efrec_updCmd : ((s.updCmd cl num f).cluster cl).efrec = (s.cluster cl).efrec := by
  rw [State.updCmd, cluster_updCluster_same]
@[simp] theorem acc_updCmd (k : Bool) : ((s.updCmd cl num f).cluster cl).acc k = (s.cluster cl).acc k := by
  rw [State.updCmd, cluster_updCluster_same]; rfl

@[simp] theorem cmds_dropCmd :
    ((s.dropCmd cl num).cluster cl).cmds = (s.cluster cl).cmds.filter (fun c => c.num != num) := by
  rw [State.dropCmd, cluster_updCluster_same]
@[simp] theorem efrec_dropCmd : ((s.dropCmd cl num).cluster cl).efrec = (s.cluster cl).efrec := by
  rw [State.dropCmd, cluster_updCluster_same]
@[simp] theorem c_dropCmd : (s.dropCmd cl num).c = s.c := rfl
@[simp] theorem dropCmd_lmem : (s.dropCmd cl num).lmem = s.lmem := rfl
@[simp] theorem dropCmd_dram : (s.dropCmd cl num).dram = s.dram := rfl

@[simp] theorem cmds_freeRecord : ((s.freeRecord cl num).cluster cl).cmds = (s.cluster cl).cmds := by
  rw [State.freeRecord, cluster_updCluster_same]
@[simp] theorem efrec_freeRecord :
    ((s.freeRecord cl num).cluster cl).efrec = (s.cluster cl).efrec.filter (fun e => e.2.2.num != num) := by
  rw [State.freeRecord, cluster_updCluster_same]
@[simp] theorem c_freeRecord : (s.freeRecord cl num).c = s.c := rfl
@[simp] theorem freeRecord_lmem : (s.freeRecord cl num).lmem = s.lmem := rfl
@[simp] theorem freeRecord_dram : (s.freeRecord cl num).dram = s.dram := rfl

@[simp] theorem cluster_cmdBoundary : (s.cmdBoundary cl num).cluster n = s.cluster n := rfl
@[simp] theorem c_cmdBoundary : (s.cmdBoundary cl num).c = s.c := rfl
@[simp] theorem cmdBoundary_lmem : (s.cmdBoundary cl num).lmem = s.lmem := rfl
@[simp] theorem cmdBoundary_dram : (s.cmdBoundary cl num).dram = s.dram := rfl

@[simp] theorem cluster_after (d : Nat) (i : Instr) (a : EvArg) : (s.after d i a).cluster n = s.cluster n := rfl

end

/-! ## Acceptance (R113, R118) -/

section
variable {s : State} {i : Instr} {op : Nat} {d a b : Reg} {sel0 sel1 : Bool} {wt : EWait} {sg : ESignal}

/-- R118: the command of an engine head with the values that it captures; its number comes with its acceptance. -/
def State.captured (s : State) (i : Instr) (op : Nat) (d a b : Reg) (sel0 sel1 : Bool) (wt : EWait) (sg : ESignal) : Cmd :=
  { num := 0, op := op, head := ((encode i).getD (0, 0)).1, tail := ((encode i).getD (0, 0)).2, vd := s.getX d,
    va := s.getX a, vb := s.getX b, vc := s.getX wt.reg, sel0 := sel0, sel1 := sel1, wait := waitOf s wt, sig := sg,
    core := s.cur.core, slot := s.cur.slot, ctx := s.cur.ctx, uid := s.c.uid, asid := s.c.asid, level := s.level }

/-- An engine head whose registers are ready traps with its reason, waits for its queue, or is accepted. -/
theorem engineHead_ready (ready : Ready s [.x d, .x a, .x b, .x wt.reg] []) :
    engineHead s i op d a b sel0 sel1 wt sg = .next
      (if acceptReason op (s.getX d) (s.getX a) (s.getX b) ≠ 0 then
        s.trapFull 1 0x11 s.c.pc (BitVec.ofNat 64 (acceptReason op (s.getX d) (s.getX a) (s.getX b)))
      else if s.queueFull s.clu (queueOf op) then s.stall { kind := .engineQueue, what := queueOf op }
      else (s.acceptCmd (s.captured i op d a b sel0 sel1 wt sg)).advance) := by
  obtain ⟨free, good⟩ := ready
  rw [engineHead, withRegs_ready s _ _ _ free good]
  rfl

end

/-- R113: an accepted command stands at the end of its cluster's commands, with the next acceptance number. -/
theorem acceptCmd_joins (s : State) (c : Cmd) : ∃ use,
    ((s.acceptCmd c).cluster s.clu).cmds =
      (s.cluster s.clu).cmds ++ [{ c with num := (s.cluster s.clu).accNum, use := use }] ∧
    ((s.acceptCmd c).cluster s.clu).accNum = ((s.cluster s.clu).accNum + 1) % 2 ^ 64 := by
  unfold State.acceptCmd
  dsimp only
  split
  · exact ⟨_, by rw [cluster_updGroup, cluster_updCluster_same], by rw [cluster_updGroup, cluster_updCluster_same]⟩
  · exact ⟨_, by rw [cluster_updCluster_same], by rw [cluster_updCluster_same]⟩

/-- Acceptance changes neither the context nor the memories. -/
theorem acceptCmd_frame (s : State) (c : Cmd) :
    (s.acceptCmd c).c = s.c ∧ (s.acceptCmd c).lmem = s.lmem ∧ (s.acceptCmd c).dram = s.dram := by
  unfold State.acceptCmd
  dsimp only
  split
  · exact ⟨rfl, rfl, rfl⟩
  · exact ⟨rfl, rfl, rfl⟩

/-- R118, R128: the one rule of a TCOPY is the alignment of its two addresses. -/
theorem acceptReason_tcopy (d a b : Word) :
    acceptReason 0x44 d a b = 0 ↔ d.toNat % 16 = 0 ∧ a.toNat % 16 = 0 := by
  rw [acceptReason, if_neg (by decide)]
  simp [copyReason]

end Sys2Proof.Machine

/-- Settles O38: the head is one of `engineHead`, and the three outcomes are its three branches. -/
theorem engineCommandsAccepted : Obligations.EngineCommandsAccepted := by
  intro s acc w d a b wt sg i op rd rb s0 s1 row ready r
  have meaning : exec i s = engineHead s i op rd a rb s0 s1 wt sg := by
    simp only [List.mem_cons, List.not_mem_nil, or_false, Prod.mk.injEq] at row
    rcases row with h | h | h | h | h | h | h | h | h | h | h
    all_goals (obtain ⟨rfl, rfl, rfl, rfl, rfl, rfl⟩ := h; rfl)
  rw [engineHead_ready ready] at meaning
  refine ⟨fun refused => ?_, fun ok full => ?_, fun ok room => ?_, fun tcopy => ?_⟩
  · rw [meaning, if_pos refused]
  · rw [meaning, if_neg (not_not_intro ok), if_pos full]
  · rw [if_neg (not_not_intro ok), if_neg (Bool.eq_false_iff.mp room)] at meaning
    obtain ⟨use, joins, count⟩ := acceptCmd_joins s (s.captured i op rd a rb s0 s1 wt sg)
    obtain ⟨same, lmem, dram⟩ := acceptCmd_frame s (s.captured i op rd a rb s0 s1 wt sg)
    refine ⟨_, _, meaning, ?_, ?_, (congrArg _ (cluster_advance _ _)).trans joins, rfl,
      (congrArg _ (cluster_advance _ _)).trans count, rfl, rfl, rfl, rfl, rfl, rfl, rfl, rfl, rfl, rfl, rfl, rfl, rfl,
      rfl, (advance_lmem _).trans lmem, (advance_dram _).trans dram⟩
    · rw [pc_advance, same]
    · rw [c_advance, same]
  · subst tcopy
    exact acceptReason_tcopy _ _ _

namespace Sys2Proof.Machine

/-! ## Completion without a signal (R120) -/

theorem finishCmd_unsignalled {s : State} {cl : Nat} {c : Cmd} (unsignalled : c.sig = none) (status : Nat) :
    s.finishCmd cl c status = (s.cmdBoundary cl c.num).dropCmd cl c.num := by
  simp [State.finishCmd, Cmd.notifies, unsignalled]

/-! ## ESTAT (R138) -/

theorem exec_estat {s : State} {d a : Reg} (b : Reg) (ready : Ready s [.x a] [.x d]) : Gives (.estat d a b) s d
    (BitVec.ofNat 64 (if (s.getX a).toNat % 4 = 3 then s.recordBits s.clu
      else s.queueStatus s.clu ((s.getX a).toNat % 4))) := by
  obtain ⟨free, good⟩ := ready
  show Host.Outcome.next _ = _
  rw [withRegs_ready s _ _ _ free good]

theorem getLsbD_recordBits (s : State) (cl : Nat) {j : Nat} (h : j < 64) :
    (BitVec.ofNat 64 (s.recordBits cl)).getLsbD j = (decide (j < 8) && (s.cluster cl).efrec.any (fun e => e.1 = j)) := by
  have bits : s.recordBits cl = flags (fun k => (s.cluster cl).efrec.any (fun e => e.1 = k)) 8 := rfl
  rw [BitVec.getLsbD_ofNat, bits, testBit_flags, decide_eq_true h, Bool.true_and]

theorem ite_eq_mul_toNat (b : Bool) (k : Nat) : (if b then k else 0) = k * b.toNat := by cases b <;> simp

/-- R138: the fields of a queue's status word. -/
theorem statusWord_fields {pending : Nat} (small : pending < 256) (faulted waiting running : Bool) :
    let v : Word := BitVec.ofNat 64 (pending % 256 * 256 + (if faulted then 4 else 0) + (if waiting then 2 else 0) +
      (if running then 1 else 0))
    (v.extractLsb' 8 8).toNat = pending ∧ v.getLsbD 0 = running ∧ v.getLsbD 2 = faulted := by
  have f := faulted.toNat_le
  have w := waiting.toNat_le
  have r := running.toNat_le
  simp only [ite_eq_mul_toNat, BitVec.extractLsb'_toNat, BitVec.getLsbD_ofNat, BitVec.toNat_ofNat,
    Nat.shiftRight_eq_div_pow, Nat.testBit_eq_decide_div_mod_eq]
  refine ⟨by omega, ?_, ?_⟩
  · rw [show (pending % 256 * 256 + 4 * faulted.toNat + 2 * waiting.toNat + 1 * running.toNat) / 2 ^ 0 % 2 =
      running.toNat by omega]
    cases running <;> rfl
  · rw [show (pending % 256 * 256 + 4 * faulted.toNat + 2 * waiting.toNat + 1 * running.toNat) / 2 ^ 2 % 2 =
      faulted.toNat by omega]
    cases faulted <;> rfl

/-- A command in a state that is not final counts among the pending ones of its queue. -/
theorem any_pending (l : List Cmd) (q : Nat) {x : CmdSt} (unfinished : ∀ n, x ≠ .posting n) :
    (l.filter (fun c => queueOf c.op = q && !c.final)).any (fun c => c.st = x) =
      l.any (fun c => queueOf c.op = q && c.st = x) := by
  rw [List.any_filter]
  congr 1
  funext c
  by_cases h : c.st = x
  · have notFinal : c.final = false := by
      unfold Cmd.final
      split
      · next n posting => exact absurd (h.symm.trans posting) (unfinished n)
      · rfl
    simp [h, notFinal]
  · simp [h]

theorem queueStatus_fields (s : State) (cl q : Nat)
    (small : ((s.cluster cl).cmds.filter (fun c => queueOf c.op = q && !c.final)).length < 256) :
    let v : Word := BitVec.ofNat 64 (s.queueStatus cl q)
    (v.extractLsb' 8 8).toNat = ((s.cluster cl).cmds.filter (fun c => queueOf c.op = q && !c.final)).length ∧
      v.getLsbD 0 = (s.cluster cl).cmds.any (fun c => queueOf c.op = q && c.st = .running) ∧
      v.getLsbD 2 = (s.cluster cl).cmds.any (fun c => queueOf c.op = q && c.st = .faulted) := by
  rw [← any_pending _ q (x := .running) nofun, ← any_pending _ q (x := .faulted) nofun]
  exact statusWord_fields small _ _ _

/-! ## ECANCEL (R139) -/

/-- R139: the commands that an ECANCEL with the word `x` cancels. -/
def State.cancelled (s : State) (x : Word) : List Cmd :=
  (s.cluster s.clu).cmds.filter (fun c => wbit x (queueOf c.op) && c.core = s.cur.core && c.asid = s.c.asid &&
    (c.st = .queued || (c.st = .faulted && wbit x 3)))

theorem exec_ecancel {s : State} {a : Reg} (b : Reg) (ready : Ready s [.x a] []) : exec (.ecancel a b) s = .next
    ((s.cancelled (s.getX a)).foldl (fun u c => (u.freeRecord s.clu c.num).finishCmd s.clu c 1) s).advance := by
  obtain ⟨free, good⟩ := ready
  show Host.Outcome.next _ = _
  rw [withRegs_ready s _ _ _ free good]
  rfl

theorem cancelled_nil {s : State} {x : Word} (unselected : ∀ c ∈ (s.cluster s.clu).cmds, c.core = s.cur.core →
    c.asid = s.c.asid → x.getLsbD (queueOf c.op) = false) : s.cancelled x = [] := by
  refine List.filter_eq_nil_iff.mpr fun c mem hit => ?_
  simp only [Bool.and_eq_true, decide_eq_true_eq] at hit
  obtain ⟨⟨⟨selected, core⟩, asid⟩, -⟩ := hit
  exact absurd (unselected c mem core asid) (by rw [show x.getLsbD _ = true from selected]; decide)

/-- R139: a queued command without a signal, the one command of its cluster, is cancelled: nothing but the cluster's
commands and records and the PC changes. -/
theorem exec_ecancel_single {s : State} {a : Reg} (b : Reg) {c : Cmd} (ready : Ready s [.x a] [])
    (only : (s.cluster s.clu).cmds = [c]) (selected : (s.getX a).getLsbD (queueOf c.op) = true)
    (core : c.core = s.cur.core) (asid : c.asid = s.c.asid) (queued : c.st = .queued) (unsignalled : c.sig = none) :
    ∃ t, exec (.ecancel a b) s = .next t ∧ (t.cluster s.clu).cmds = [] ∧ t.c.pc = s.c.nextPc ∧ t.c.x = s.c.x ∧
      t.lmem = s.lmem ∧ t.dram = s.dram := by
  have hit : s.cancelled (s.getX a) = [c] := by simp [State.cancelled, only, wbit, selected, core, asid, queued]
  have run := exec_ecancel b ready
  rw [hit, List.foldl_cons, List.foldl_nil, finishCmd_unsignalled unsignalled] at run
  refine ⟨_, run, ?_, ?_, ?_, ?_, ?_⟩
  · rw [cluster_advance, cmds_dropCmd, cluster_cmdBoundary, cmds_freeRecord, only]
    simp
  · rw [pc_advance, c_dropCmd, c_cmdBoundary, c_freeRecord]
  · rw [c_advance, c_dropCmd, c_cmdBoundary, c_freeRecord]
  · rw [advance_lmem, dropCmd_lmem, cmdBoundary_lmem, freeRecord_lmem]
  · rw [advance_dram, dropCmd_dram, cmdBoundary_dram, freeRecord_dram]

/-! ## ERESUME (R137) -/

section
variable {s : State} {n : BitVec 3} (kernel : 1 ≤ s.level)
include kernel

theorem exec_eresume_empty (empty : (s.cluster s.clu).efrec.find? (fun e => e.1 = n.toNat) = none) :
    exec (.eresume n) s = .next (s.trapFull 1 0x11 s.c.pc 0x07) := by
  show Host.Outcome.next _ = _
  rw [withLevel_ok s (.eresume n) _ kernel]
  simp only [empty]

/-- R137: the command of a resumable record is queued before every other command of the cluster, and its record is free. -/
theorem exec_eresume_resumable {k : Nat} {ws : List Word} {c : Cmd}
    (held : (s.cluster s.clu).efrec.find? (fun e => e.1 = n.toNat) = some (k, ws, c))
    (command : s.cmd s.clu c.num = some c) (resumable : (wd ws 0).getLsbD 62 = true) :
    ∃ t, exec (.eresume n) s = .next t ∧
      (t.cluster s.clu).cmds =
        { c with st := .queued, passed := true } :: (s.cluster s.clu).cmds.filter (fun o => o.num != c.num) ∧
      (t.cluster s.clu).efrec = (s.cluster s.clu).efrec.filter (fun e => e.2.2.num != c.num) ∧
      t.c.pc = s.c.nextPc ∧ t.lmem = s.lmem := by
  refine ⟨(((s.freeRecord s.clu c.num).dropCmd s.clu c.num).updCluster s.clu (fun k =>
    { k with cmds := { c with st := .queued, passed := true } :: k.cmds })).advance, ?_, ?_, ?_, ?_, ?_⟩
  · show Host.Outcome.next _ = _
    rw [withLevel_ok s (.eresume n) _ kernel]
    simp only [held, command, wbit, resumable, Option.getD_some]
    rfl
  · rw [cluster_advance, cluster_updCluster_same, cmds_dropCmd, cmds_freeRecord]
  · rw [cluster_advance, cluster_updCluster_same, efrec_dropCmd, efrec_freeRecord]
  · rw [pc_advance, c_updCluster, c_dropCmd, c_freeRecord]
  · rw [advance_lmem, updCluster_lmem, dropCmd_lmem, freeRecord_lmem]

end

/-! ## The start of a command (R114, R348) -/

section
variable {s : State} {c : Cmd}

/-- R114: a command of a cluster is running; a TCOPYW that starts at its first chunk has set the type of its array. -/
def State.started (s : State) (cl : Nat) (c : Cmd) : State :=
  let s1 := s.updCmd cl c.num (fun x => { x with st := .running, passed := true })
  if c.op = 0x45 && c.cursor = 0 then
    s1.updCluster cl (fun k => k.setWarr c.sel0 { k.warr c.sel0 with ty := etyOf (wbits c.vb 3 0), mx := wbit c.vb 4 })
  else s1

theorem cmds_setWarr (k : Cluster) (b : Bool) (w : WArr) : (k.setWarr b w).cmds = k.cmds := by cases b <;> rfl

theorem cmds_started (cl : Nat) : ((s.started cl c).cluster cl).cmds = (s.cluster cl).cmds.map (fun o =>
    if o.num = c.num then { o with st := .running, passed := true } else o) := by
  unfold State.started
  dsimp only
  split
  · rw [cluster_updCluster_same, cmds_setWarr, cmds_updCmd]
  · rw [cmds_updCmd]

theorem started_frame (cl : Nat) : (s.started cl c).lmem = s.lmem ∧ (s.started cl c).dram = s.dram ∧
    (s.started cl c).timers = s.timers ∧ (s.started cl c).now = s.now := by
  unfold State.started
  dsimp only
  split
  · exact ⟨rfl, rfl, rfl, rfl⟩
  · exact ⟨rfl, rfl, rfl, rfl⟩

theorem startFault_none {cl : Nat} (fit : (s.cluster cl).matrixOff = false ∨ 0x44 ≤ c.op) :
    s.startFault cl c = none := by
  refine if_neg fun bad => ?_
  simp only [Bool.and_eq_true, decide_eq_true_eq] at bad
  obtain ⟨off, matrix⟩ := bad
  rcases fit with on | copy
  · exact absurd (on.symm.trans off) nofun
  · omega

theorem startFault_some {cl : Nat} (off : (s.cluster cl).matrixOff = true) (matrix : c.op ≤ 0x43) :
    s.startFault cl c = some (rowFault 0x12 0 c.cursor false) := by
  simp [State.startFault, off, matrix]

section
variable (ready : s.engineReady s.arg.x s.arg.y = true) (front : s.frontCmd s.arg.x s.arg.y = some c)
include ready front

theorem exec_engineCommandStart_runs (fit : s.startFault s.arg.x c = none) : exec .engineCommandStart s = .next
    ((s.started s.arg.x c).after 8 .engineCommandComplete { x := s.arg.x, y := c.num }) := by
  show execEngineCommandStart s = _
  simp only [execEngineCommandStart, ready, front, fit]
  rfl

theorem exec_engineCommandStart_faults {f : EFault} (unfit : s.startFault s.arg.x c = some f) :
    exec .engineCommandStart s =
      .next ((s.started s.arg.x c).post .engineFault { x := s.arg.x, y := c.num, body := .fault f }) := by
  show execEngineCommandStart s = _
  simp only [execEngineCommandStart, ready, front, unfit]
  rfl

/-- R114, R348: the front command of a ready queue runs; its first part follows, or the fault of a matrix command whose
engine has no spare rows left. -/
theorem exec_engineCommandStart : ∃ t, exec .engineCommandStart s = .next t ∧
    (t.cluster s.arg.x).cmds = (s.cluster s.arg.x).cmds.map (fun o =>
      if o.num = c.num then { o with st := .running, passed := true } else o) ∧
    t.lmem = s.lmem ∧ t.dram = s.dram ∧
    ((s.cluster s.arg.x).matrixOff = false ∨ 0x44 ≤ c.op →
      t.timers = s.timers ++ [(s.now + 8, .engineCommandComplete, { x := s.arg.x, y := c.num })]) ∧
    ((s.cluster s.arg.x).matrixOff = true → c.op ≤ 0x43 → ∃ g, g.cause = 0x12 ∧
      .event .engineFault { x := s.arg.x, y := c.num, body := .fault g } ∈ t.agenda) := by
  obtain ⟨lmem, dram, timers, now⟩ := started_frame (s := s) (c := c) s.arg.x
  have cmds := cmds_started (s := s) (c := c) s.arg.x
  by_cases unfit : (s.cluster s.arg.x).matrixOff = true ∧ c.op ≤ 0x43
  · obtain ⟨off, matrix⟩ := unfit
    refine ⟨_, exec_engineCommandStart_faults ready front (startFault_some off matrix), cmds, lmem, dram,
      fun fit => ?_, fun _ _ => ⟨_, rfl, List.mem_append_right _ (List.mem_singleton_self _)⟩⟩
    rcases fit with on | copy
    · exact absurd (on.symm.trans off) nofun
    · omega
  · have fit : (s.cluster s.arg.x).matrixOff = false ∨ 0x44 ≤ c.op :=
      (Decidable.not_and_iff_not_or_not.mp unfit).imp Bool.eq_false_iff.mpr Nat.lt_of_not_le
    refine ⟨_, exec_engineCommandStart_runs ready front (startFault_none fit), cmds, lmem, dram, fun _ => ?_,
      fun off matrix => absurd ⟨off, matrix⟩ unfit⟩
    rw [State.after, timers, now]

end

end

/-! ## Faults and their records (R136, R328) -/

theorem cluster_raise (s : State) (core : Nat) (e : CoreEvent) (n : Nat) : (s.raise core e).cluster n = s.cluster n := by
  unfold State.raise
  split
  · rfl
  · rfl

theorem raise_dram (s : State) (core : Nat) (e : CoreEvent) : (s.raise core e).dram = s.dram := by
  unfold State.raise
  split
  · rfl
  · rfl

theorem events_raise {s : State} {core : Nat} (e : CoreEvent) (room : (s.core core).events.length < 32) :
    ((s.raise core e).core core).events = (s.core core).events ++ [e] := by
  rw [State.raise, if_pos room, core_updCore_same]

/-- R136: a fault with a free slot is recorded there and raised at the issuing core. -/
theorem recordFault_records {s : State} {cl q : Nat} {c : Cmd} (f : EFault) (goesOn : c.stopping = false)
    (slot : s.recordSlot cl = some q) :
    let t := s.recordFault cl c f
    (t.cluster cl).efrec = (s.cluster cl).efrec ++
      [(q, c.record (s.gcid c.core) f, { c with st := .faulted, fault := none, cursor := f.cursor })] ∧
    ((s.core c.core).events.length < 32 → (t.core c.core).events = (s.core c.core).events ++
      [{ source := 0, sub := 2, tval := BitVec.ofNat 64 (2 ^ 63 + q), slot := c.slot, mark := c.num + 1 }]) ∧
    t.dram = s.dram := by
  simp only [State.recordFault, goesOn, slot]
  refine ⟨?_, fun room => events_raise _ room, raise_dram _ _ _⟩
  rw [if_neg Bool.false_ne_true, cluster_raise, cluster_updCluster_same, efrec_updCmd]

theorem exec_engineFault {s : State} {c : Cmd} {f : EFault} (found : s.cmd s.arg.x s.arg.y = some c)
    (body : s.arg.body = .fault f) (running : c.st = .running) (sound : c.fault = none) :
    exec .engineFault s = .next ((s.cmdBoundary s.arg.x c.num).recordFault s.arg.x c f) := by
  show execEngineFault s = _
  simp [execEngineFault, found, body, running, sound]

theorem exec_engineRecordWrite {s : State} {c : Cmd} {f : EFault} {q : Nat}
    (waiter : s.recordWaiter s.arg.x = some (c, f)) (slot : s.recordSlot s.arg.x = some q) :
    exec .engineRecordWrite s = .next (s.recordFault s.arg.x c f) := by
  show execEngineRecordWrite s = _
  simp [execEngineRecordWrite, State.recordReady, waiter, slot]

/-! ## Messages that waited (R121) -/

theorem cluster_intoInbox (s : State) (core : Nat) (m : Message) (n : Nat) :
    (s.intoInbox core m).cluster n = s.cluster n := by
  unfold State.intoInbox
  split
  · rfl
  · rfl

theorem intoInbox_dram (s : State) (core : Nat) (m : Message) : (s.intoInbox core m).dram = s.dram := by
  unfold State.intoInbox
  split
  · rfl
  · rfl

theorem messages_intoInbox {s : State} {core : Nat} (m : Message) (sound : s.fenced core = false) :
    ((s.intoInbox core m).core core).messages = (s.core core).messages ++ [m] := by
  rw [State.intoInbox, if_neg (Bool.eq_false_iff.mp sound), core_updCore_same]

theorem retryDone_idle {s : State} {cl : Nat} (idle : (s.cluster cl).cmds = []) : s.retryDone cl = s := by
  rw [State.retryDone, idle]
  rfl

/-- R121: a message that waited leaves the buffer for its inbox; without commands at the cluster nothing else happens. -/
theorem exec_pendingMessageDeliver {s : State} {e : Nat × Message} (next : s.pendingNext s.arg.x = some e)
    (idle : (s.cluster s.arg.x).cmds = []) : exec .pendingMessageDeliver s = .next
      ((s.updCluster s.arg.x (fun k => { k with pending := k.pending.erase e })).intoInbox e.1 e.2) := by
  have still : (((s.updCluster s.arg.x (fun k => { k with pending := k.pending.erase e })).intoInbox e.1 e.2).cluster
      s.arg.x).cmds = [] := by rw [cluster_intoInbox, cluster_updCluster_same, idle]
  show execPendingMessageDeliver s = _
  simp only [execPendingMessageDeliver, next, still, List.findSome?_nil, retryDone_idle]

end Sys2Proof.Machine

/-- Settles O39: each instruction and event by the equation that says what it does, its fields by the rules of the
operations in it. -/
theorem engineControl : Obligations.EngineControl := by
  intro s d a b n q c f x cl K
  refine ⟨fun ready => ⟨fun records => ?_, fun j queue sel small => ?_⟩, fun ready => ⟨fun unselected => ?_,
    fun only _ => exec_ecancel_single b ready only⟩,
    fun kernel => ⟨exec_eresume_empty kernel, fun k ws => exec_eresume_resumable kernel⟩, exec_engineCommandStart,
    ?_, ?_, ?_⟩
  · refine ⟨_, exec_estat b ready, fun j h => ?_⟩
    rw [if_pos records, getLsbD_recordBits s s.clu h]
  · refine ⟨_, exec_estat b ready, ?_⟩
    rw [sel, if_neg (by omega)]
    exact queueStatus_fields s s.clu j small
  · rw [exec_ecancel b ready, cancelled_nil unselected]
    rfl
  · intro found body running sound goesOn slot
    exact ⟨_, exec_engineFault found body running sound, recordFault_records f goesOn slot⟩
  · intro waiter goesOn slot
    exact ⟨_, exec_engineRecordWrite waiter slot, (recordFault_records f goesOn slot).1⟩
  · intro e next sound idle
    refine ⟨_, exec_pendingMessageDeliver next idle, ?_, ?_, intoInbox_dram _ _ _⟩
    · rw [cluster_intoInbox, cluster_updCluster_same]
    · exact messages_intoInbox _ sound

namespace Sys2Proof.Machine

/-! ## A command goes on with its next part (R127) -/

/-- An updated command is found under its number, which the update keeps. -/
theorem cmd_updCmd {s : State} {cl num : Nat} {c : Cmd} {f : Cmd → Cmd} (found : s.cmd cl num = some c)
    (keeps : ∀ c, (f c).num = c.num) : (s.updCmd cl num f).cmd cl num = some (f c) := by
  rw [State.cmd] at found ⊢
  have still (o : Cmd) : (if o.num = num then f o else o).num = num ↔ o.num = num := by
    split
    · next same => rw [keeps]
    · rfl
  have same : c.num = num := by simpa using List.find?_some found
  simp only [cmds_updCmd, List.find?_map, Function.comp_def, still, found, Option.map_some, if_pos same]

/-- A command that has parts left goes on with the next one after the engine's cycles. -/
theorem nextPart_goesOn {s : State} {cl num parts : Nat} {c : Cmd} (found : s.cmd cl num = some c)
    (goesOn : c.stopping = false) (more : c.cursor + 1 < parts) : s.nextPart cl num parts =
      ((s.cmdBoundary cl num).updCmd cl num (fun x => { x with cursor := x.cursor + 1 })).after engineCycles
        .engineCommandComplete { x := cl, y := num } := by
  have found1 : ((s.cmdBoundary cl num).updCmd cl num (fun x => { x with cursor := x.cursor + 1 })).cmd cl num =
      some { c with cursor := c.cursor + 1 } := cmd_updCmd found (fun _ => rfl)
  simp only [State.nextPart, found1, goesOn, Bool.false_eq_true, if_false, if_pos more]

/-- What a command that goes on changes: its cursor. -/
theorem nextPart_frame {s : State} {cl num parts : Nat} {c : Cmd} (found : s.cmd cl num = some c)
    (goesOn : c.stopping = false) (more : c.cursor + 1 < parts) :
    let t := s.nextPart cl num parts
    t.cmd cl num = some { c with cursor := c.cursor + 1 } ∧ (∀ k, (t.cluster cl).acc k = (s.cluster cl).acc k) ∧
      t.lmem = s.lmem ∧ t.dram = s.dram := by
  rw [nextPart_goesOn found goesOn more]
  refine ⟨?_, fun k => ?_, rfl, rfl⟩
  · exact cmd_updCmd found (fun _ => rfl)
  · rw [cluster_after, acc_updCmd, cluster_cmdBoundary]

/-- A running command as the event ENGINE_COMMAND_COMPLETE finds it: no fault waits, and it is not to stop. -/
structure Working (s : State) (c : Cmd) : Prop where
  found : s.cmd s.arg.x s.arg.y = some c
  num : c.num = s.arg.y
  running : c.st = .running
  sound : c.fault = none
  goesOn : c.stopping = false

section
variable {s : State} {c : Cmd} (working : Working s c)
include working

theorem exec_engineCommandComplete_matrix (matrix : c.op ≤ 0x43) : exec .engineCommandComplete s =
    .next (if mwRows c.va ≤ c.cursor then s.finishCmd s.arg.x c 0 else s.matrixPart s.arg.x c) := by
  show execEngineCommandComplete s = _
  simp [execEngineCommandComplete, working.found, working.running, working.sound, matrix]

theorem exec_engineCommandComplete_copy (low : 0x44 ≤ c.op) (high : c.op ≤ 0x47) : exec .engineCommandComplete s =
    .next (if chunksOf c.total ≤ c.cursor then s.finishCmd s.arg.x c 0 else s.copyPart s.arg.x c) := by
  show execEngineCommandComplete s = _
  simp [execEngineCommandComplete, working.found, working.running, working.sound, high, Nat.not_le.mpr low]

/-- A row that is done: the cursor and the count of rows rise by one, and the accumulators and memories are those that
the row leaves. -/
theorem exec_row_done {u : State} (matrix : c.op ≤ 0x43) (more : c.cursor + 1 < mwRows c.va)
    (row : s.matrixRow s.arg.x c c.cursor = .done u) (kept : u.cmd s.arg.x c.num = some c) :
    ∃ v, exec .engineCommandComplete s = .next v ∧
      v.cmd s.arg.x c.num = some { c with cursor := c.cursor + 1, done := c.done + 1 } ∧
      (∀ k, (v.cluster s.arg.x).acc k = (u.cluster s.arg.x).acc k) ∧ v.lmem = u.lmem ∧ v.dram = u.dram := by
  have counted : (u.updCmd s.arg.x c.num (fun x => { x with done := x.done + 1 })).cmd s.arg.x c.num =
      some { c with done := c.done + 1 } := cmd_updCmd kept (fun _ => rfl)
  obtain ⟨next, acc, lmem, dram⟩ := nextPart_frame (parts := mwRows c.va) counted working.goesOn more
  refine ⟨_, exec_engineCommandComplete_matrix working matrix, ?_⟩
  rw [if_neg (by omega), State.matrixPart, row]
  exact ⟨next, fun k => (acc k).trans (acc_updCmd _ _ _ _ _), lmem, dram⟩

/-- A chunk that is done: the cursor rises by one, and the memories are those that the chunk leaves. -/
theorem exec_chunk_done {u : State} {k : Cmd} (low : 0x44 ≤ c.op) (high : c.op ≤ 0x47)
    (more : c.cursor + 1 < chunksOf c.total) (chunk : s.copyChunk s.arg.x c c.cursor = .ok none u)
    (kept : u.cmd s.arg.x c.num = some k) (cursor : k.cursor = c.cursor) (goesOn : k.stopping = false) :
    ∃ v, exec .engineCommandComplete s = .next v ∧
      v.cmd s.arg.x c.num = some { k with cursor := c.cursor + 1 } ∧ v.dram = u.dram ∧ v.lmem = u.lmem := by
  obtain ⟨next, -, lmem, dram⟩ := nextPart_frame (parts := chunksOf c.total) kept goesOn (by omega)
  refine ⟨_, exec_engineCommandComplete_copy working low high, ?_⟩
  rw [if_neg (by omega), State.copyPart, chunk]
  exact ⟨cursor ▸ next, dram, lmem⟩

/-- A matrix command whose rows are done leaves its queue. -/
theorem exec_rows_ended (matrix : c.op ≤ 0x43) (ended : mwRows c.va ≤ c.cursor) (unsignalled : c.sig = none) :
    exec .engineCommandComplete s = .next ((s.cmdBoundary s.arg.x c.num).dropCmd s.arg.x c.num) := by
  rw [exec_engineCommandComplete_matrix working matrix, if_pos ended, finishCmd_unsignalled unsignalled]

end

/-! ## Rows of an accumulator (R112) -/

/-- A map after writes to `n` keys in a row. -/
theorem mget_foldl_mset {α : Type} [DecidableEq α] (d : α) (m : SMap α) (base : Nat) (f : Nat → α) (n k : Nat) :
    mget d ((List.range n).foldl (fun w i => mset d w (base + i) (f i)) m) k =
      if base ≤ k ∧ k < base + n then f (k - base) else mget d m k := by
  induction n with
  | zero => simp [show ¬ (base ≤ k ∧ k < base) by omega]
  | succ n ih =>
    rw [List.range_succ, List.foldl_append, List.foldl_cons, List.foldl_nil, mget_mset, ih]
    by_cases last : base + n = k
    · subst last
      simp
    · have range : (base ≤ k ∧ k < base + n) ↔ (base ≤ k ∧ k < base + (n + 1)) := by omega
      simp only [if_neg last, range]

/-- A whole row of words, put in an accumulator, is the row's new content, and the other rows stay. -/
theorem word_put_row (a : Acc) {row r j : Nat} {l : List (BitVec 32)} (whole : l.length = 128) (h : j < 128) :
    (a.put row 0 l).word r j = if r = row then l.getD j 0 else a.word r j := by
  rw [Acc.word, Acc.put, mget_foldl_mset, whole]
  by_cases same : r = row
  · subst same
    rw [if_pos (by omega), if_pos rfl]
    congr 1
    omega
  · rw [if_neg (by omega), if_neg same, Acc.word]

section
variable (s : State) (cl : Nat) (c : Cmd) (row : Nat) (l : List (BitVec 32))

theorem acc_setAcc (k : Cluster) (b : Bool) (a : Acc) : (k.setAcc b a).acc b = a := by cases b <;> rfl
theorem cmds_setAcc (k : Cluster) (b : Bool) (a : Acc) : (k.setAcc b a).cmds = k.cmds := by cases b <;> rfl

theorem cmd_putRow (num : Nat) : (s.putRow cl c row l).cmd cl num = s.cmd cl num := by
  rw [State.cmd, State.putRow, cluster_updCluster_same, cmds_setAcc, State.cmd]

theorem acc_putRow : ((s.putRow cl c row l).cluster cl).acc c.sel0 = ((s.cluster cl).acc c.sel0).put row 0 l := by
  rw [State.putRow, cluster_updCluster_same, acc_setAcc]

end

/-! ## Rows of AMZERO and MMA (R124, R125) -/

theorem matrixRow_amzero {s : State} {cl : Nat} {c : Cmd} (i : Nat) (op : c.op = 0x41) :
    s.matrixRow cl c i = .done (s.putRow cl c (mwRow0 c.va + i) (List.replicate 128 0)) := by
  simp only [State.matrixRow, op]

/-- Local memory without bad words under the range, and without an armed error, is read. -/
theorem engineRead_good {s : State} {cl off n : Nat} (unarmed : s.injArmed = false)
    (good : ∀ w ∈ lmemWords cl off n, s.lmemBad.lookup w = none) :
    s.engineRead cl off n = (some (s.lmemBytes cl off n), s) := by
  have none_bad : (lmemWords cl off n).find? (fun w => (s.lmemBad.lookup w).isSome) = none :=
    List.find?_eq_none.mpr fun w mem => by simp [good w mem]
  simp [State.engineRead, State.lmemRead, unarmed, none_bad]

/-- R123: the type of the elements of A, and where row `i` of A lies in the window. -/
def Cmd.aType (c : Cmd) : ETy := etyOf (mwType c.va)
def Cmd.aOffset (c : Cmd) (i : Nat) : Nat := c.offAt (rowBytes c.aType * i)

/-- R124: the accumulator words that row `i` of an MMA without scales gives. -/
def State.mmaWords (s : State) (cl : Nat) (c : Cmd) (i : Nat) : List (BitVec 32) :=
  (List.range 128).map (fun j =>
    mmaWord c.aType false (rowElems c.aType (s.lmemBytes cl (c.aOffset i) (rowBytes c.aType))) []
      ((s.cluster cl).warr c.sel1) ((s.accRow cl c).word (mwRow0 c.va + i) j) j)

theorem length_mmaWords (s : State) (cl : Nat) (c : Cmd) (i : Nat) : (s.mmaWords cl c i).length = 128 := by
  rw [State.mmaWords, List.length_map, List.length_range]

theorem getD_mmaWords (s : State) (cl : Nat) (c : Cmd) (i : Nat) {j : Nat} (h : j < 128) :
    (s.mmaWords cl c i).getD j 0 =
      mmaWord c.aType false (rowElems c.aType (s.lmemBytes cl (c.aOffset i) (rowBytes c.aType))) []
        ((s.cluster cl).warr c.sel1) ((s.accRow cl c).word (mwRow0 c.va + i) j) j := by
  rw [State.mmaWords, List.getD_eq_getElem?_getD, List.getElem?_map, List.getElem?_range h, Option.map_some,
    Option.getD_some]

/-- R124: a row of an MMA without scales that nothing stops. -/
theorem matrixRow_mma {s : State} {cl : Nat} {c : Cmd} {i : Nat} (op : c.op = 0x40) (unscaled : mwMx c.va = false)
    (admitted : s.rowBlocked cl c (c.aOffset i) (rowBytes c.aType) = false)
    (weights : ((s.cluster cl).warr c.sel1).badRows = [])
    (words : (s.accRow cl c).isBad (mwRow0 c.va + i) 0 128 = false)
    (good : ∀ w ∈ lmemWords cl (c.aOffset i) (rowBytes c.aType), s.lmemBad.lookup w = none)
    (unarmed : s.injArmed = false) :
    s.matrixRow cl c i = .done (s.putRow cl c (mwRow0 c.va + i) (s.mmaWords cl c i)) := by
  have read := engineRead_good unarmed good
  rw [Cmd.aOffset, Cmd.aType] at admitted read
  simp only [State.matrixRow, op, State.mmaRow, unscaled, admitted, weights, words, read]
  rfl

section
variable {s : State} {c : Cmd} (working : Working s c)
include working

/-- A row that puts its words in the accumulator: they are the row's new content, and the other rows and the memories
stay. -/
theorem exec_row_put {l : List (BitVec 32)} (matrix : c.op ≤ 0x43) (more : c.cursor + 1 < mwRows c.va)
    (put : s.matrixRow s.arg.x c c.cursor = .done (s.putRow s.arg.x c (mwRow0 c.va + c.cursor) l))
    (whole : l.length = 128) : ∃ v, exec .engineCommandComplete s = .next v ∧
      v.cmd s.arg.x c.num = some { c with cursor := c.cursor + 1, done := c.done + 1 } ∧
      (∀ r j, j < 128 → ((v.cluster s.arg.x).acc c.sel0).word r j =
        if r = mwRow0 c.va + c.cursor then l.getD j 0 else ((s.cluster s.arg.x).acc c.sel0).word r j) ∧
      v.lmem = s.lmem ∧ v.dram = s.dram := by
  obtain ⟨v, run, command, acc, lmem, dram⟩ := exec_row_done working matrix more put
    (by rw [cmd_putRow, working.num, working.found])
  refine ⟨v, run, command, fun r j h => ?_, lmem, dram⟩
  rw [acc, acc_putRow, word_put_row _ whole h]

end

end Sys2Proof.Machine

/-- Settles O40: a row or a chunk that is done moves the cursor on; a row's words are those put in the accumulator. -/
theorem engineWork : Obligations.EngineWork := by
  intro s c cl row t rb off A next found num running sound goesOn
  have working : Working s c := ⟨found, num, running, sound, goesOn⟩
  refine ⟨fun matrix more => ⟨fun op => ?_, fun op unscaled admitted weights words good unarmed => ?_⟩,
    fun low high more u k chunk held cursor on => exec_chunk_done working low high more chunk held cursor on,
    fun matrix ended unsignalled => ⟨_, exec_rows_ended working matrix ended unsignalled, cmds_dropCmd _ _ _, rfl, rfl⟩⟩
  · obtain ⟨v, run, command, put, lmem, dram⟩ := exec_row_put working matrix more (matrixRow_amzero _ op)
      (List.length_replicate ..)
    refine ⟨v, run, ⟨_, command, rfl, rfl⟩, fun j h => ?_, fun r j h other => ?_, lmem, dram⟩
    · rw [put row j h, if_pos rfl, List.getD_eq_getElem?_getD, List.getElem?_replicate, if_pos h, Option.getD_some]
    · rw [put r j h, if_neg other]
  · obtain ⟨v, run, command, put, lmem, dram⟩ := exec_row_put working matrix more
      (matrixRow_mma op unscaled admitted weights words good unarmed) (length_mmaWords ..)
    refine ⟨v, run, ⟨_, command, rfl, rfl⟩, fun j h => ?_, fun r j h other => ?_, lmem, dram⟩
    · rw [put row j h, if_pos rfl]
      exact getD_mmaWords s cl c c.cursor h
    · rw [put r j h, if_neg other]

end
